-- ==== Sys2Proof/Word.lean ====
section
/-!
DEFINITION. Word: the bit-vector types of the part (03 R40, 07 R125) and their plainest arithmetic.
-/

namespace Sys2Proof

/-- A byte of memory. -/
abbrev Byte := BitVec 8

/-- A scalar register, an instruction word or a 32-bit system register. -/
abbrev Word := BitVec 32

/-- A 64-bit address, base or trap value. -/
abbrev Addr := BitVec 64

/-- A vector register (07 R125). -/
abbrev VWord := BitVec 512

/-- A mask register (07 R125). -/
abbrev Mask := BitVec 64

/-- 1 when the condition holds, else 0. -/
def Word.ofBool (b : Bool) : Word := if b then 1 else 0

end Sys2Proof
end

