-- ==== Sys2Proof/Config.lean ====
section
/-!
DEFINITION. Config: what one part fixes and the spec leaves open. Every constant here is opaque: no proof
can see its value, so a claim holds whatever it is. Each has an entry in notes/assumptions.
-/

namespace Sys2Proof.Config

/-- The package's fabric identifier (R94); the spec gives no number for it. -/
opaque fabricId : Nat

/-- A choice that the spec leaves to the part: which of several pending acts comes first, which line or
entry is replaced. The argument is the number of the draw. -/
opaque pick : Nat → Nat

/-- A word that the spec leaves open, by the number of the draw. -/
opaque freeWord : Nat → Word

/-- The byte read from a sector through another key than the one it was written under (R62, R71, R188):
sector, byte in it, the key it was written under, the key of the read. -/
opaque garble : Nat → Nat → Nat → Nat → Byte

/-- How a region of the pool is kept (R186): on one module, on two, or striped over modules with rotating parity. -/
inductive PoolMode where
  | single (m : Nat)
  | mirrored (a b : Nat)
  | parity (modules : List Nat)
  deriving DecidableEq, Repr

/-- A region descriptor of the pool (R186): the spec gives it no layout. -/
structure PoolRegion where
  base : Nat
  size : Nat
  mode : PoolMode
  deriving DecidableEq, Repr

/-- The operator's region descriptors (R186), of which 256 count. -/
opaque poolRegions : List PoolRegion

/-- The CXL link that serves a pool address (R186). -/
opaque poolLink : Nat → Nat

/-- Which module of a stripe holds a pool sector: its place in the list of modules (R186). -/
opaque poolModule : Nat → Nat

/-- The slice that caches a pool line (R187): the spec gives no rule for the pool class. -/
opaque poolSlice : Nat → Nat

/-- Whether a partition holds the fabric key set of a process group (R329); no register holds it. -/
opaque groupKeys : Nat → Nat → Bool

/-- Digests and signatures of the security controller (R59, R60): what is digested and which block. -/
opaque digest : List Nat → Nat → Nat

/-- A field of a message that SPDM lays out and the spec does not: the message's bytes, and which field (R58). -/
opaque spdmField : List Nat → Nat → Nat

/-- A byte of a payload that lies on another package (R286, R288), whose memory is no part of this machine (log 10, DESIGN
CHOICE): the package, the payload's place, the cycle of the read, the byte. -/
opaque peerByte : Nat → Nat → Nat → Nat → Byte

/-- Whether such a payload cannot be read, because a page of it is not present or refused (log 10, DESIGN CHOICE). -/
opaque peerLost : Nat → Nat → Nat → Bool

end Sys2Proof.Config
end

