-- ==== Sys2Proof/Syntax.lean ====
section
/-!
DEFINITION. Syntax: the one inductive of instructions, one constructor for each row of the opcode table.
The first 208 are instruction words (02 R32-R36); the other 122 are the events of the part that the
table lists beside them, with the parameters that say which unit, record or pending act they concern.
A 5-bit field names a scalar register, a 4-bit field a vector register, a 3-bit field a mask or segment
register or a small selector. `act` is the number of a pending hardware activity (State.acts).
-/

namespace Sys2Proof

/-- The rows of the opcode table. -/
inductive Instr where
  /-- ADD, R140. Writes the sum of two scalar registers modulo 2^32 to d. -/
  | add (d : BitVec 5) (a : BitVec 5) (b : BitVec 5)
  /-- SUB, R140. Writes a minus b modulo 2^32 to d. -/
  | sub (d : BitVec 5) (a : BitVec 5) (b : BitVec 5)
  /-- AND, R140. Writes the bitwise AND of a and b to d. -/
  | and (d : BitVec 5) (a : BitVec 5) (b : BitVec 5)
  /-- OR, R140. Writes the bitwise OR of a and b to d. -/
  | or (d : BitVec 5) (a : BitVec 5) (b : BitVec 5)
  /-- XOR, R140. Writes the bitwise XOR of a and b to d. -/
  | xor (d : BitVec 5) (a : BitVec 5) (b : BitVec 5)
  /-- ANDN, R140. Writes a AND NOT b to d. -/
  | andn (d : BitVec 5) (a : BitVec 5) (b : BitVec 5)
  /-- ORN, R140. Writes a OR NOT b to d. -/
  | orn (d : BitVec 5) (a : BitVec 5) (b : BitVec 5)
  /-- XNOR, R140. Writes NOT (a XOR b) to d. -/
  | xnor (d : BitVec 5) (a : BitVec 5) (b : BitVec 5)
  /-- SLL, R140. Shifts a left by b[4:0] bits. -/
  | sll (d : BitVec 5) (a : BitVec 5) (b : BitVec 5)
  /-- SRL, R140. Shifts a right logically by b[4:0] bits. -/
  | srl (d : BitVec 5) (a : BitVec 5) (b : BitVec 5)
  /-- SRA, R140. Shifts a right arithmetically by b[4:0] bits. -/
  | sra (d : BitVec 5) (a : BitVec 5) (b : BitVec 5)
  /-- ROL, R140. Rotates a left by b[4:0] bits. -/
  | rol (d : BitVec 5) (a : BitVec 5) (b : BitVec 5)
  /-- ROR, R140. Rotates a right by b[4:0] bits. -/
  | ror (d : BitVec 5) (a : BitVec 5) (b : BitVec 5)
  /-- SLT, R140. Writes 1 when a is less than b as signed values, else 0. -/
  | slt (d : BitVec 5) (a : BitVec 5) (b : BitVec 5)
  /-- SLTU, R140. Writes 1 when a is less than b as unsigned values, else 0. -/
  | sltu (d : BitVec 5) (a : BitVec 5) (b : BitVec 5)
  /-- MIN, R140. Writes the signed lesser of a and b. -/
  | min (d : BitVec 5) (a : BitVec 5) (b : BitVec 5)
  /-- MAX, R140. Writes the signed greater of a and b. -/
  | max (d : BitVec 5) (a : BitVec 5) (b : BitVec 5)
  /-- MINU, R140. Writes the unsigned lesser of a and b. -/
  | minu (d : BitVec 5) (a : BitVec 5) (b : BitVec 5)
  /-- MAXU, R140. Writes the unsigned greater of a and b. -/
  | maxu (d : BitVec 5) (a : BitVec 5) (b : BitVec 5)
  /-- MUL, R140. Writes the low 32 bits of the product of a and b. -/
  | mul (d : BitVec 5) (a : BitVec 5) (b : BitVec 5)
  /-- MULH, R140. Writes the high 32 bits of the signed product. -/
  | mulh (d : BitVec 5) (a : BitVec 5) (b : BitVec 5)
  /-- MULHU, R140. Writes the high 32 bits of the unsigned product. -/
  | mulhu (d : BitVec 5) (a : BitVec 5) (b : BitVec 5)
  /-- MULHSU, R140. Writes the high 32 bits of the signed-by-unsigned product. -/
  | mulhsu (d : BitVec 5) (a : BitVec 5) (b : BitVec 5)
  /-- DIV, R140. Writes the signed quotient truncated toward zero, with defined results for division by zero and overflow. -/
  | div (d : BitVec 5) (a : BitVec 5) (b : BitVec 5)
  /-- DIVU, R140. Writes the unsigned quotient, or all ones for division by zero. -/
  | divu (d : BitVec 5) (a : BitVec 5) (b : BitVec 5)
  /-- REM, R140. Writes the signed remainder with the sign of the dividend. -/
  | rem (d : BitVec 5) (a : BitVec 5) (b : BitVec 5)
  /-- REMU, R140. Writes the unsigned remainder, or a for division by zero. -/
  | remu (d : BitVec 5) (a : BitVec 5) (b : BitVec 5)
  /-- CLZ, R140. Writes the number of leading zero bits of a. -/
  | clz (d : BitVec 5) (a : BitVec 5)
  /-- CTZ, R140. Writes the number of trailing zero bits of a. -/
  | ctz (d : BitVec 5) (a : BitVec 5)
  /-- POPC, R140. Writes the number of one bits of a. -/
  | popc (d : BitVec 5) (a : BitVec 5)
  /-- SEXTB, R140. Writes a[7:0] sign-extended. -/
  | sextb (d : BitVec 5) (a : BitVec 5)
  /-- SEXTH, R140. Writes a[15:0] sign-extended. -/
  | sexth (d : BitVec 5) (a : BitVec 5)
  /-- ZEXTH, R140. Writes a[15:0] zero-extended. -/
  | zexth (d : BitVec 5) (a : BitVec 5)
  /-- BSWAP, R140. Writes a with its four bytes reversed. -/
  | bswap (d : BitVec 5) (a : BitVec 5)
  /-- ADDI, R141. Adds a sign-extended immediate to a. -/
  | addi (d : BitVec 5) (a : BitVec 5) (imm : BitVec 16)
  /-- ANDI, R141. ANDs a with a zero-extended immediate. -/
  | andi (d : BitVec 5) (a : BitVec 5) (imm : BitVec 16)
  /-- ORI, R141. ORs a with a zero-extended immediate. -/
  | ori (d : BitVec 5) (a : BitVec 5) (imm : BitVec 16)
  /-- XORI, R141. XORs a with a zero-extended immediate. -/
  | xori (d : BitVec 5) (a : BitVec 5) (imm : BitVec 16)
  /-- SLTI, R141. Writes 1 when a is less than the sign-extended immediate as signed values. -/
  | slti (d : BitVec 5) (a : BitVec 5) (imm : BitVec 16)
  /-- SLTIU, R141. Writes 1 when a is less than the sign-extended immediate as unsigned values. -/
  | sltiu (d : BitVec 5) (a : BitVec 5) (imm : BitVec 16)
  /-- SLLI, R142. Shifts a left by an immediate count. -/
  | slli (d : BitVec 5) (a : BitVec 5) (n : BitVec 5)
  /-- SRLI, R142. Shifts a right logically by an immediate count. -/
  | srli (d : BitVec 5) (a : BitVec 5) (n : BitVec 5)
  /-- SRAI, R142. Shifts a right arithmetically by an immediate count. -/
  | srai (d : BitVec 5) (a : BitVec 5) (n : BitVec 5)
  /-- LUI, R143. Writes IMM21 shifted left by 11 to d. -/
  | lui (d : BitVec 5) (imm : BitVec 21)
  /-- ADPC, R143. Writes pc plus IMM21 shifted left by 11 to d. -/
  | adpc (d : BitVec 5) (imm : BitVec 21)
  /-- JAL, R144. Jumps by a word offset and writes the link to d. -/
  | jal (d : BitVec 5) (off : BitVec 21)
  /-- JALR, R144. Jumps to a plus an immediate, trapping MISALIGN on a misaligned target, and writes the link to d. -/
  | jalr (d : BitVec 5) (a : BitVec 5) (imm : BitVec 16)
  /-- BEQ, R145. Branches when a equals b. -/
  | beq (a : BitVec 5) (b : BitVec 5) (off : BitVec 13)
  /-- BNE, R145. Branches when a differs from b. -/
  | bne (a : BitVec 5) (b : BitVec 5) (off : BitVec 13)
  /-- BLT, R145. Branches when a is less than b as signed values. -/
  | blt (a : BitVec 5) (b : BitVec 5) (off : BitVec 13)
  /-- BGE, R145. Branches when a is at least b as signed values. -/
  | bge (a : BitVec 5) (b : BitVec 5) (off : BitVec 13)
  /-- BLTU, R145. Branches when a is less than b as unsigned values. -/
  | bltu (a : BitVec 5) (b : BitVec 5) (off : BitVec 13)
  /-- BGEU, R145. Branches when a is at least b as unsigned values. -/
  | bgeu (a : BitVec 5) (b : BitVec 5) (off : BitVec 13)
  /-- LDB, R190. Loads a sign-extended byte. -/
  | ldb (d : BitVec 5) (a : BitVec 5) (seg : BitVec 3) (imm : BitVec 10)
  /-- LDBU, R190. Loads a zero-extended byte. -/
  | ldbu (d : BitVec 5) (a : BitVec 5) (seg : BitVec 3) (imm : BitVec 10)
  /-- LDH, R190. Loads a sign-extended half-word. -/
  | ldh (d : BitVec 5) (a : BitVec 5) (seg : BitVec 3) (imm : BitVec 10)
  /-- LDHU, R190. Loads a zero-extended half-word. -/
  | ldhu (d : BitVec 5) (a : BitVec 5) (seg : BitVec 3) (imm : BitVec 10)
  /-- LDW, R190. Loads a word. -/
  | ldw (d : BitVec 5) (a : BitVec 5) (seg : BitVec 3) (imm : BitVec 10)
  /-- STB, R190. Stores the low byte of d. -/
  | stb (d : BitVec 5) (a : BitVec 5) (seg : BitVec 3) (imm : BitVec 10)
  /-- STH, R190. Stores the low half-word of d. -/
  | sth (d : BitVec 5) (a : BitVec 5) (seg : BitVec 3) (imm : BitVec 10)
  /-- STW, R190. Stores the word d. -/
  | stw (d : BitVec 5) (a : BitVec 5) (seg : BitVec 3) (imm : BitVec 10)
  /-- LDFE, R192. Waits until a TCM word is full, reads it and sets it empty, as an acquire. -/
  | ldfe (d : BitVec 5) (a : BitVec 5) (seg : BitVec 3) (imm : BitVec 10)
  /-- LDFF, R192. Waits until a TCM word is full and reads it, as an acquire. -/
  | ldff (d : BitVec 5) (a : BitVec 5) (seg : BitVec 3) (imm : BitVec 10)
  /-- STFE, R192. Waits until a TCM word is empty, writes it and sets it full, as a release. -/
  | stfe (d : BitVec 5) (a : BitVec 5) (seg : BitVec 3) (imm : BitVec 10)
  /-- STFF, R192. Writes a TCM word and sets it full unconditionally, as a release. -/
  | stff (d : BitVec 5) (a : BitVec 5) (seg : BitVec 3) (imm : BitVec 10)
  /-- AMOADD, R196. Atomically adds b to a word and returns the old value, ordered by ORDER. -/
  | amoadd (order : BitVec 3) (d : BitVec 5) (a : BitVec 5) (seg : BitVec 3) (b : BitVec 5)
  /-- AMOSWAP, R196. Atomically swaps b into a word and returns the old value. -/
  | amoswap (order : BitVec 3) (d : BitVec 5) (a : BitVec 5) (seg : BitVec 3) (b : BitVec 5)
  /-- AMOCAS, R196. Atomically writes b when the word equals d, and returns the old value. -/
  | amocas (order : BitVec 3) (d : BitVec 5) (a : BitVec 5) (seg : BitVec 3) (b : BitVec 5)
  /-- AMOAND, R196. Atomically ANDs b into a word. -/
  | amoand (order : BitVec 3) (d : BitVec 5) (a : BitVec 5) (seg : BitVec 3) (b : BitVec 5)
  /-- AMOOR, R196. Atomically ORs b into a word. -/
  | amoor (order : BitVec 3) (d : BitVec 5) (a : BitVec 5) (seg : BitVec 3) (b : BitVec 5)
  /-- AMOXOR, R196. Atomically XORs b into a word. -/
  | amoxor (order : BitVec 3) (d : BitVec 5) (a : BitVec 5) (seg : BitVec 3) (b : BitVec 5)
  /-- AMOMIN, R196. Atomically keeps the signed lesser of the word and b. -/
  | amomin (order : BitVec 3) (d : BitVec 5) (a : BitVec 5) (seg : BitVec 3) (b : BitVec 5)
  /-- AMOMAX, R196. Atomically keeps the signed greater of the word and b. -/
  | amomax (order : BitVec 3) (d : BitVec 5) (a : BitVec 5) (seg : BitVec 3) (b : BitVec 5)
  /-- AMOMINU, R196. Atomically keeps the unsigned lesser of the word and b. -/
  | amominu (order : BitVec 3) (d : BitVec 5) (a : BitVec 5) (seg : BitVec 3) (b : BitVec 5)
  /-- AMOMAXU, R196. Atomically keeps the unsigned greater of the word and b. -/
  | amomaxu (order : BitVec 3) (d : BitVec 5) (a : BitVec 5) (seg : BitVec 3) (b : BitVec 5)
  /-- FENCE, R199. Performs a release, acquire or both at the named scope, invalidating core-cache lines on wide acquires. -/
  | fence (kind : BitVec 5) (scope : BitVec 3)
  /-- DRAIN, R200. Parks until UNACK is zero and the write-combining buffer is empty, forming no edge. -/
  | drain
  /-- FECLR, R195. Clears the full/empty bits of b consecutive TCM words. -/
  | feclr (seg : BitVec 3) (a : BitVec 5) (b : BitVec 5)
  /-- TRIG, R212. Arms a copy, fill or DEC to fire once when a counter reaches a threshold. -/
  | trig (d : BitVec 5) (seg : BitVec 3) (a : BitVec 5) (b : BitVec 5)
  /-- WAITC, R211. Parks until a counter reaches a threshold, then returns its value as an acquire. -/
  | waitc (d : BitVec 5) (seg : BitVec 3) (a : BitVec 5) (b : BitVec 5)
  /-- NCMP, R213. Sends a near-memory compare over a region to the slice engines. -/
  | ncmp (d : BitVec 5) (seg : BitVec 3) (a : BitVec 5) (b : BitVec 5)
  /-- NRED, R213. Sends a near-memory sum, minimum or maximum over a region to the slice engines. -/
  | nred (d : BitVec 5) (seg : BitVec 3) (a : BitVec 5) (b : BitVec 5)
  /-- CPY, R207. Issues a copy of LEN 64-byte units to the copy engine with a completion tag. -/
  | cpy (hint : BitVec 3) (d : BitVec 5) (a : BitVec 5) (b : BitVec 5)
  /-- CPYG, R209. Issues a gather of a counted number of rows bounded by a shape record. -/
  | cpyg (hint : BitVec 3) (d : BitVec 5) (a : BitVec 5) (b : BitVec 5)
  /-- CPYS, R208. Issues a strided copy described by a stride record. -/
  | cpys (hint : BitVec 3) (d : BitVec 5) (a : BitVec 5) (b : BitVec 5)
  /-- CPYF, R206. Issues a fill of LEN 64-byte units with a word. -/
  | cpyf (hint : BitVec 3) (d : BitVec 5) (a : BitVec 5) (b : BitVec 5)
  /-- WTANY, R204. Parks until a selected tag is set and returns the lowest such tag, as an acquire. -/
  | wtany (d : BitVec 5) (a : BitVec 5)
  /-- WTALL, R204. Parks until no selected tag has an operation in flight. -/
  | wtall (a : BitVec 5)
  /-- TFIRST, R204. Returns the lowest selected set tag without parking. -/
  | tfirst (d : BitVec 5) (a : BitVec 5)
  /-- TCLR, R204. Clears SET and the status of every selected tag. -/
  | tclr (a : BitVec 5)
  /-- TSTAT, R205. Returns a tag's status word or recorded count without parking. -/
  | tstat (d : BitVec 5) (a : BitVec 5)
  /-- VLD, R201. Loads 64 contiguous bytes into a vector register under a byte mask. -/
  | vld (vd : BitVec 4) (seg : BitVec 3) (a : BitVec 5) (imm : BitVec 4) (k : BitVec 3)
  /-- VLDS, R201. Loads 16 words at a scalar stride. -/
  | vlds (vd : BitVec 4) (seg : BitVec 3) (a : BitVec 5) (imm : BitVec 4) (b : BitVec 5) (k : BitVec 3)
  /-- VLDX, R201. Loads 16 words at offsets taken from a vector register. -/
  | vldx (vd : BitVec 4) (seg : BitVec 3) (a : BitVec 5) (imm : BitVec 4) (vb : BitVec 4) (k : BitVec 3)
  /-- VST, R201. Stores 64 contiguous bytes of a vector register under a byte mask. -/
  | vst (vd : BitVec 4) (seg : BitVec 3) (a : BitVec 5) (imm : BitVec 4) (k : BitVec 3)
  /-- VSTS, R201. Stores 16 words at a scalar stride. -/
  | vsts (vd : BitVec 4) (seg : BitVec 3) (a : BitVec 5) (imm : BitVec 4) (b : BitVec 5) (k : BitVec 3)
  /-- VSTX, R201. Stores 16 words at offsets taken from a vector register. -/
  | vstx (vd : BitVec 4) (seg : BitVec 3) (a : BitVec 5) (imm : BitVec 4) (vb : BitVec 4) (k : BitVec 3)
  /-- VIADD, R233. Adds integer lanes modulo the lane width. -/
  | viadd (t : BitVec 3) (vd : BitVec 4) (va : BitVec 4) (vb : BitVec 4) (k : BitVec 3)
  /-- VISUB, R233. Subtracts integer lanes modulo the lane width. -/
  | visub (t : BitVec 3) (vd : BitVec 4) (va : BitVec 4) (vb : BitVec 4) (k : BitVec 3)
  /-- VIMUL, R233. Multiplies integer lanes, keeping the low bits. -/
  | vimul (t : BitVec 3) (vd : BitVec 4) (va : BitVec 4) (vb : BitVec 4) (k : BitVec 3)
  /-- VIMIN, R233. Takes the signed lesser of integer lanes. -/
  | vimin (t : BitVec 3) (vd : BitVec 4) (va : BitVec 4) (vb : BitVec 4) (k : BitVec 3)
  /-- VIMAX, R233. Takes the signed greater of integer lanes. -/
  | vimax (t : BitVec 3) (vd : BitVec 4) (va : BitVec 4) (vb : BitVec 4) (k : BitVec 3)
  /-- VIAND, R233. ANDs integer lanes. -/
  | viand (t : BitVec 3) (vd : BitVec 4) (va : BitVec 4) (vb : BitVec 4) (k : BitVec 3)
  /-- VIOR, R233. ORs integer lanes. -/
  | vior (t : BitVec 3) (vd : BitVec 4) (va : BitVec 4) (vb : BitVec 4) (k : BitVec 3)
  /-- VIXOR, R233. XORs integer lanes. -/
  | vixor (t : BitVec 3) (vd : BitVec 4) (va : BitVec 4) (vb : BitVec 4) (k : BitVec 3)
  /-- VISLL, R233. Shifts integer lanes left. -/
  | visll (t : BitVec 3) (vd : BitVec 4) (va : BitVec 4) (vb : BitVec 4) (k : BitVec 3)
  /-- VISRL, R233. Shifts integer lanes right logically. -/
  | visrl (t : BitVec 3) (vd : BitVec 4) (va : BitVec 4) (vb : BitVec 4) (k : BitVec 3)
  /-- VISRA, R233. Shifts integer lanes right arithmetically. -/
  | visra (t : BitVec 3) (vd : BitVec 4) (va : BitVec 4) (vb : BitVec 4) (k : BitVec 3)
  /-- VIABS, R233. Takes the absolute value of integer lanes, keeping the most negative value. -/
  | viabs (t : BitVec 3) (vd : BitVec 4) (va : BitVec 4) (k : BitVec 3)
  /-- VADD, R234. Adds floating lanes with one RNE rounding. -/
  | vadd (t : BitVec 3) (vd : BitVec 4) (va : BitVec 4) (vb : BitVec 4) (k : BitVec 3)
  /-- VSUB, R234. Subtracts floating lanes with one rounding. -/
  | vsub (t : BitVec 3) (vd : BitVec 4) (va : BitVec 4) (vb : BitVec 4) (k : BitVec 3)
  /-- VMUL, R234. Multiplies floating lanes with one rounding. -/
  | vmul (t : BitVec 3) (vd : BitVec 4) (va : BitVec 4) (vb : BitVec 4) (k : BitVec 3)
  /-- VFMA, R234. Computes va times vb plus vd fused, with one rounding. -/
  | vfma (t : BitVec 3) (vd : BitVec 4) (va : BitVec 4) (vb : BitVec 4) (k : BitVec 3)
  /-- VFMS, R234. Computes va times vb minus vd fused, with one rounding. -/
  | vfms (t : BitVec 3) (vd : BitVec 4) (va : BitVec 4) (vb : BitVec 4) (k : BitVec 3)
  /-- VMIN, R234. Takes the lesser of floating lanes. -/
  | vmin (t : BitVec 3) (vd : BitVec 4) (va : BitVec 4) (vb : BitVec 4) (k : BitVec 3)
  /-- VMAX, R234. Takes the greater of floating lanes. -/
  | vmax (t : BitVec 3) (vd : BitVec 4) (va : BitVec 4) (vb : BitVec 4) (k : BitVec 3)
  /-- VABS, R234. Clears the sign of floating lanes. -/
  | vabs (t : BitVec 3) (vd : BitVec 4) (va : BitVec 4) (k : BitVec 3)
  /-- VNEG, R234. Inverts the sign of floating lanes. -/
  | vneg (t : BitVec 3) (vd : BitVec 4) (va : BitVec 4) (k : BitVec 3)
  /-- VSQRT, R234. Computes the correctly rounded square root of floating lanes. -/
  | vsqrt (t : BitVec 3) (vd : BitVec 4) (va : BitVec 4) (k : BitVec 3)
  /-- VRCP, R234. Computes the correctly rounded reciprocal of floating lanes. -/
  | vrcp (t : BitVec 3) (vd : BitVec 4) (va : BitVec 4) (k : BitVec 3)
  /-- VRSQ, R234. Computes the correctly rounded reciprocal square root of floating lanes. -/
  | vrsq (t : BitVec 3) (vd : BitVec 4) (va : BitVec 4) (k : BitVec 3)
  /-- VEXP2, R234. Computes the correctly rounded power of two of floating lanes. -/
  | vexp2 (t : BitVec 3) (vd : BitVec 4) (va : BitVec 4) (k : BitVec 3)
  /-- VSCL, R234. Scales floating lanes by 2 to an integer lane of vb. -/
  | vscl (t : BitVec 3) (vd : BitVec 4) (va : BitVec 4) (vb : BitVec 4) (k : BitVec 3)
  /-- VCMP, R236. Compares lanes under a condition and writes a mask register. -/
  | vcmp (cond : BitVec 2) (t : BitVec 3) (kd : BitVec 3) (va : BitVec 4) (vb : BitVec 4) (k : BitVec 3)
  /-- VSEL, R237. Selects each lane from va or vb by the mask. -/
  | vsel (t : BitVec 3) (vd : BitVec 4) (va : BitVec 4) (vb : BitVec 4) (k : BitVec 3)
  /-- VSHUF, R237. Permutes lanes of va by indices in vb. -/
  | vshuf (t : BitVec 3) (vd : BitVec 4) (va : BitVec 4) (vb : BitVec 4) (k : BitVec 3)
  /-- VSLIDE, R237. Slides lanes of va by a signed count, filling with zero. -/
  | vslide (t : BitVec 3) (vd : BitVec 4) (va : BitVec 4) (vb : BitVec 4) (k : BitVec 3)
  /-- VREDSUM, R238. Sums enabled lanes into lane 0 with one rounding. -/
  | vredsum (t : BitVec 3) (vd : BitVec 4) (va : BitVec 4) (k : BitVec 3)
  /-- VREDMAX, R238. Places the greatest enabled lane in lane 0. -/
  | vredmax (t : BitVec 3) (vd : BitVec 4) (va : BitVec 4) (k : BitVec 3)
  /-- VREDMIN, R238. Places the least enabled lane in lane 0. -/
  | vredmin (t : BitVec 3) (vd : BitVec 4) (va : BitVec 4) (k : BitVec 3)
  /-- VCVT, R239. Converts lanes from a source type to a destination type under a rounding mode. -/
  | vcvt (mode : BitVec 2) (t : BitVec 3) (src : BitVec 4) (vd : BitVec 4) (va : BitVec 4) (k : BitVec 3)
  /-- KAND, R240. ANDs two mask registers. -/
  | kand (kd : BitVec 3) (ka : BitVec 3) (kb : BitVec 3)
  /-- KOR, R240. ORs two mask registers. -/
  | kor (kd : BitVec 3) (ka : BitVec 3) (kb : BitVec 3)
  /-- KNOT, R240. Inverts a mask register. -/
  | knot (kd : BitVec 3) (ka : BitVec 3)
  /-- KMOV, R240. Copies a mask register. -/
  | kmov (kd : BitVec 3) (ka : BitVec 3)
  /-- VBCAST, R241. Broadcasts a scalar into every lane of a width. -/
  | vbcast (vd : BitVec 4) (a : BitVec 5) (m : BitVec 3)
  /-- VGET, R241. Reads one lane of a vector register into a scalar. -/
  | vget (d : BitVec 5) (va : BitVec 4) (b : BitVec 5) (m : BitVec 3)
  /-- VPUT, R241. Writes a scalar into one lane of a vector register as a partial write. -/
  | vput (vd : BitVec 4) (a : BitVec 5) (b : BitVec 5) (m : BitVec 3)
  /-- KGET, R241. Reads one word of a mask register. -/
  | kget (d : BitVec 5) (ka : BitVec 3) (w : BitVec 3)
  /-- KSET, R241. Writes one word of a mask register. -/
  | kset (kd : BitVec 3) (a : BitVec 5) (w : BitVec 3)
  /-- MMA, R259. Queues a tile multiply-accumulate and parks until C is written. -/
  | mma (d : BitVec 5) (a : BitVec 5) (m : BitVec 3)
  /-- MMARB, R259. Queues a multiply-accumulate that then hands the B latch to the ring successor. -/
  | mmarb (d : BitVec 5) (a : BitVec 5) (m : BitVec 3)
  /-- MMACN, R259. Queues a multiply-accumulate that then sends A west and B north. -/
  | mmacn (d : BitVec 5) (a : BitVec 5) (m : BitVec 3)
  /-- MBLD, R260. Loads a B latch from a TCM tile, parking while the latch is in use. -/
  | mbld (a : BitVec 5) (l : BitVec 3)
  /-- MBPASS, R261. Queues an entry that hands a latch to the ring successor without multiplying. -/
  | mbpass (l : BitVec 3)
  /-- MZERO, R262. Writes 1,024 zero bytes to a C tile. -/
  | mzero (d : BitVec 5)
  /-- MFMT, R263. Sets the format word, trapping FORMAT_CTX on an illegal word. -/
  | mfmt (a : BitVec 5)
  /-- MFMTQ, R263. Sets the superscale S. -/
  | mfmtq (a : BitVec 5)
  /-- PUT, R297. Inserts a tuple with a TCM payload into a hall as a release. -/
  | put (vd : BitVec 4) (a : BitVec 5) (b : BitVec 5)
  /-- PUTG, R297. Inserts a tuple whose payload is a region of global memory. -/
  | putg (vd : BitVec 4) (a : BitVec 5) (b : BitVec 5)
  /-- READ, R299. Sends a template to its home to copy the oldest matching tuple. -/
  | read (mode : BitVec 3) (vd : BitVec 4) (a : BitVec 5) (b : BitVec 5)
  /-- TAKE, R299. Sends a template to its home to remove and deliver the oldest matching tuple. -/
  | take (mode : BitVec 3) (vd : BitVec 4) (a : BitVec 5) (b : BitVec 5)
  /-- TCANCEL, R302. Withdraws the thread's waiters of a tag and hall and returns the count withdrawn. -/
  | tcancel (d : BitVec 5) (b : BitVec 5)
  /-- HALLDEF_DEFINE, R303. Installs a hall descriptor at every slice of the package. -/
  | halldefDefine (d : BitVec 5) (a : BitVec 5) (b : BitVec 5)
  /-- HALLDEF_RETIRE, R303. Removes a hall definition and frees its heap parts. -/
  | halldefRetire (d : BitVec 5) (a : BitVec 5) (b : BitVec 5)
  /-- HALLQ, R304. Returns a selected value about a hall on this package. -/
  | hallq (d : BitVec 5) (a : BitVec 5) (b : BitVec 5)
  /-- SPLIT, R305. Starts moving part of a system-scope hall's range to another package. -/
  | split (d : BitVec 5) (a : BitVec 5)
  /-- SPLST, R306. Reports this package's phase of a hall's latest split. -/
  | splst (d : BitVec 5) (a : BitVec 5)
  /-- SKSET, R319. Attaches a sketch slot from a descriptor. -/
  | skset (n : BitVec 3) (a : BitVec 5)
  /-- SKUPD, R320. Adds 16 values into a sketch's counters through the slice engines. -/
  | skupd (n : BitVec 3) (d : BitVec 5) (va : BitVec 4) (vb : BitVec 4)
  /-- SKQRY, R321. Returns the median estimates of 16 indices. -/
  | skqry (n : BitVec 3) (vd : BitVec 4) (va : BitVec 4)
  /-- SKADD, R322. Adds one sketch into another counter by counter. -/
  | skadd (n : BitVec 3) (d : BitVec 5) (a : BitVec 5)
  /-- SKCLR, R323. Zeroes every counter of a sketch and clears its status word. -/
  | skclr (n : BitVec 3)
  /-- FREEZE, R102. Ends the prologue, captures the forme and distributes it. -/
  | freeze
  /-- NEST, R111. Makes a nested forme and queues sub-items on the core. -/
  | nest (a : BitVec 5) (b : BitVec 5)
  /-- NJOIN, R112. Waits until every sub-impression has retired, as an acquire. -/
  | njoin
  /-- TSTW, R110. Writes a word of the forme's template in place. -/
  | tstw (d : BitVec 5) (a : BitVec 5)
  /-- TSTV, R110. Writes 64 bytes of the forme's template in place. -/
  | tstv (vd : BitVec 4) (a : BitVec 5)
  /-- FINFO, R116. Returns a selected fact about the impression and its forme. -/
  | finfo (d : BitVec 5) (n : BitVec 3)
  /-- MSG, R146. Sends a two-word message of a type to a core. -/
  | msg (d : BitVec 5) (a : BitVec 5) (b : BitVec 5)
  /-- RPUT, R147. Fills an exposed scalar register of another thread. -/
  | rput (a : BitVec 5) (b : BitVec 5)
  /-- RPUTV, R147. Fills an exposed vector register of another thread. -/
  | rputv (vd : BitVec 4) (a : BitVec 5)
  /-- EMPTY, R148. Clears the presence bit of a scalar register. -/
  | empty (d : BitVec 5)
  /-- EMPTYV, R148. Clears the presence bit of a vector register. -/
  | emptyv (vd : BitVec 4)
  /-- TESTP, R148. Returns whether a scalar register is full. -/
  | testp (d : BitVec 5) (x : BitVec 5)
  /-- TESTP_VECTOR, R148. Returns whether a vector register is full. -/
  | testpVector (d : BitVec 5) (x : BitVec 4)
  /-- WFM, R149. Waits for a fill of an empty exposed register and returns the presence bits. -/
  | wfm (d : BitVec 5)
  /-- LANDA, R335. Releases and arrives at a landing. -/
  | landa (a : BitVec 5)
  /-- LANDW, R335. Waits for the flip of the generation of the thread's last arrival, as an acquire. -/
  | landw (a : BitVec 5)
  /-- LANDAW, R335. Arrives at a landing and waits for that generation's flip. -/
  | landaw (a : BitVec 5)
  /-- LANDQ, R335. Returns a landing's status as seen at this core. -/
  | landq (d : BitVec 5) (a : BitVec 5)
  /-- CGPUT, R342. Contributes a scalar to a collective group as a release. -/
  | cgput (a : BitVec 5) (b : BitVec 5)
  /-- CGPUTV, R342. Contributes 16 lanes to a vector collective group. -/
  | cgputv (a : BitVec 5) (vb : BitVec 4)
  /-- CGGET, R347. Waits for and returns a scalar collective result, as an acquire. -/
  | cgget (d : BitVec 5) (a : BitVec 5)
  /-- CGGETV, R347. Waits for and returns a vector collective result. -/
  | cggetv (vd : BitVec 4) (a : BitVec 5)
  /-- CGSET, R339. Writes a collective group entry of a router or network engine. -/
  | cgset (a : BitVec 5) (b : BitVec 5)
  /-- SPAWN, R150. Submits a launch record from TCM as a child launch. -/
  | spawn (a : BitVec 5)
  /-- DEC, R151. Releases and sends a decrement message to a task counter. -/
  | dec (a : BitVec 5) (b : BitVec 5)
  /-- DEC_EVENT, R151. Releases and atomically decrements an event word through segment M (M from 1 to 7). -/
  | decEvent (seg : BitVec 3) (a : BitVec 5) (b : BitVec 5)
  /-- EXIT, R152. Ends the thread after joining, withdrawing waiters and draining, then retires it. -/
  | exit
  /-- YIELD, R153. Offers a work slot back to the run list, pre-empting when higher work waits. -/
  | yield
  /-- HSIFT, R361. Offers a score to a gate heap in TCM as one indivisible step. -/
  | hsift (a : BitVec 5) (b : BitVec 5)
  /-- REMAPW_APPEND, R365. Appends a token row to a remap window and counts it at the notification word. -/
  | remapwAppend (a : BitVec 5) (b : BitVec 5)
  /-- REMAPW_RELEASE, R365. Returns a window's full or sealed buffers below a row to the pool. -/
  | remapwRelease (a : BitVec 5) (b : BitVec 5)
  /-- REMAPW_CLOSE, R365. Seals a window's last buffer and sets END in its notification word. -/
  | remapwClose (a : BitVec 5) (b : BitVec 5)
  /-- REMAPC_POOL, R369. Installs the partition's remap pool record. -/
  | remapcPool (a : BitVec 5) (b : BitVec 5)
  /-- REMAPC_DEFINE, R369. Installs a remap window record. -/
  | remapcDefine (a : BitVec 5) (b : BitVec 5)
  /-- REMAPC_RESET, R369. Drains, returns the buffers of and undefines a remap window. -/
  | remapcReset (a : BitVec 5) (b : BitVec 5)
  /-- SYSRD, R157. Reads a system register. -/
  | sysrd (d : BitVec 5) (n : BitVec 12)
  /-- SYSWR, R157. Writes a system register, clearing W1C bits set in d. -/
  | syswr (d : BitVec 5) (n : BitVec 12)
  /-- SYSSET, R157. Sets bits of a system register, clearing W1C bits set in d. -/
  | sysset (d : BitVec 5) (n : BitVec 12)
  /-- SYSCLR, R157. Clears RW bits of a system register. -/
  | sysclr (d : BitVec 5) (n : BitVec 12)
  /-- ECALL, R160. Completes and traps ECALL with TPC at the next instruction. -/
  | ecall
  /-- BREAK, R160. Completes and traps BREAK with TPC at the next instruction. -/
  | brk
  /-- TRET, R388. Returns from a trap to TPC, restoring the mode and the saved code segment. -/
  | tret
  /-- HALT, R160. Stops the thread for the debug interface, or acts as an error EXIT when debug is disabled. -/
  | halt
  /-- SEGLD, R161. Loads a segment register from the descriptor table. -/
  | segld (sg : BitVec 3) (a : BitVec 5)
  /-- SEGRD, R162. Reads one word of a segment register. -/
  | segrd (d : BitVec 5) (sg : BitVec 3) (w : BitVec 3)
  /-- REGISTER_WRITE, R157. A write to a register that has no row of its own, applying its RW and W1C rules. -/
  | registerWrite (kind unit off : Nat) (value : Word)
  /-- SLOTCLS_WRITE, R119. Changes slot classes for the next thread started in each slot, ignoring code 0. -/
  | slotclsWrite (core : Nat) (value : Word)
  /-- RUNCTL_WRITE, R86. Sets HOLD and the pre-emption margin of the core's run list. -/
  | runctlWrite (core : Nat) (value : Word)
  /-- SHPOOL_WRITE, R97. Places the forme area, ignoring writes that break its rules. -/
  | shpoolWrite (core : Nat) (value : Word)
  /-- LCSPLIT_WRITE, R168. Starts moving the TCM/cache boundary, parking accesses to bytes that change role. -/
  | lcsplitWrite (core : Nat) (value : Word)
  /-- LCSPLIT_CHANGE_DONE, R168. Completes an LCSPLIT change, zeroing moved bytes and releasing parked accesses. -/
  | lcsplitChangeDone (core : Nat)
  /-- MVTBASE_WRITE, R120. Sets the message vector table and starts the communication thread when slot 0 is free. -/
  | mvtbaseWrite (core : Nat) (value : Word)
  /-- VPOOL_WRITE, R171. Enables or disables the flight's victim pool, dropping pooled lines on a change. -/
  | vpoolWrite (flight : Nat) (value : Word)
  /-- CYCLE_LOW_READ, R158. Returns CYCLE's low word and latches the high word for the thread. -/
  | cycleLowRead (d : BitVec 5)
  /-- STAGING_WRITE, R73. Writes host bytes into staging slots, discarding bytes to busy slots with OVR. -/
  | stagingWrite (part off : Nat) (bytes : List Byte)
  /-- LDOOR, R73. Rings the launch doorbell, putting the staging slot as a tuple into the launch hall. -/
  | ldoor (part : Nat) (value : BitVec 64) (size : Nat)
  /-- STAGING_CAPTURE_DONE, R73. Clears BUSY of a staging slot once its payload is in the heap. -/
  | stagingCaptureDone (part slot : Nat)
  /-- CPOP, R77. Takes one completion from the completion hall and places its payload in CWIN. -/
  | cpop (part size : Nat)
  /-- WINDOW_WRITE, R65. Writes host data through the memory window, discarding it on a missing or read-only page. -/
  | windowWrite (part off : Nat) (bytes : List Byte)
  /-- WINDOW_READ, R65. Reads partition memory through the memory window, failing with Unsupported Request on a fault. -/
  | windowRead (part off size : Nat)
  /-- SMASK_WRITE, R70. Moves storeys into or out of a partition and wipes each moved storey. -/
  | smaskWrite (part : Nat) (mask : BitVec 128)
  /-- PARTITION_DESCRIPTOR_WRITE, R70. Writes WBASE or SDTB, or sends a locked TDI to ERROR. -/
  | partitionDescriptorWrite (part off : Nat) (value : BitVec 64)
  /-- KEY_SLOT_WRITE, R71. Changes a key slot's ownership and erases the slot. -/
  | keySlotWrite (slot : Nat) (value : Byte)
  /-- KEY_MATERIAL_READY, R71. The security controller finishes generating fresh key material for an assigned slot. -/
  | keyMaterialReady (slot : Nat)
  /-- GET_VERSION, R58. SPDM request for supported versions. -/
  | getVersion
  /-- GET_CAPABILITIES, R58. SPDM request for capabilities. -/
  | getCapabilities
  /-- NEGOTIATE_ALGORITHMS, R58. SPDM request that negotiates algorithms, including the dual signature: whether the requester
  offers the pair of signatures, SHA-384, secp384r1 and AES-256-GCM. -/
  | negotiateAlgorithms (offers : Bool)
  /-- GET_DIGESTS, R58. SPDM request for certificate digests. -/
  | getDigests
  /-- GET_CERTIFICATE, R58. SPDM request for the device identity certificate. -/
  | getCertificate (slot off len : Nat)
  /-- CHALLENGE, R59. SPDM challenge answered with a dual signature. -/
  | challenge (nonce : Nat)
  /-- GET_MEASUREMENTS, R60. Returns the SHA-384 measurement blocks, including the TDI's configuration. Bits 7 to 0 of `index`
  name the block, and bit 8 asks for a signature (R59). -/
  | getMeasurements (fn index : Nat)
  /-- KEY_EXCHANGE, R58. SPDM request opening a secure session. -/
  | keyExchange (nonce : Nat)
  /-- FINISH, R58. SPDM request completing a secure session handshake. -/
  | spdmFinish (verified : Bool)
  /-- KEY_UPDATE, R58. SPDM request updating session keys. -/
  | keyUpdate
  /-- HEARTBEAT, R58. SPDM session heartbeat. -/
  | heartbeat
  /-- END_SESSION, R58. SPDM request ending a session. -/
  | endSession
  /-- CHUNK_SEND, R58. SPDM request carrying one chunk of a large message. -/
  | chunkSend (bytes : List Byte) (last : Bool)
  /-- CHUNK_GET, R58. SPDM request for one chunk of a large response. -/
  | chunkGet (seq : Nat)
  /-- IDE_KM, R58. Programs or refreshes IDE stream keys inside a secure session. -/
  | ideKm (stream : Nat)
  /-- LOCK_INTERFACE_REQUEST, R64. Moves a TDI to CONFIG_LOCKED and computes its measurement block. -/
  | lockInterfaceRequest (part : Nat)
  /-- START_INTERFACE_REQUEST, R64. Moves a TDI from CONFIG_LOCKED to RUN. -/
  | startInterfaceRequest (part : Nat)
  /-- STOP_INTERFACE_REQUEST, R64. Cancels the partition's work, wipes its storeys and lines, and unlocks the TDI. -/
  | stopInterfaceRequest (part : Nat)
  /-- IDE_INTEGRITY_FAILURE, R64. An IDE integrity failure on a TDI's stream moves the TDI to ERROR. -/
  | ideIntegrityFailure (stream : Nat)
  /-- VF_FUNCTION_LEVEL_RESET, R417. A VF's Function Level Reset acts as STOP_INTERFACE_REQUEST on its TDI. -/
  | vfFunctionLevelReset (part : Nat)
  /-- FIRMWARE_IMAGE, R59. Accepts a firmware image only when both signature halves verify. -/
  | firmwareImage (component image : Nat) (edOk mlOk : Bool)
  /-- LAUNCH_ADMIT, R82. Takes one launch tuple from a partition's launch hall in round robin and admits it as a task. -/
  | launchAdmit (part : Nat)
  /-- DEC_MESSAGE, R84. A task unit applies a decrement to a task counter, clamping and setting DECERR. -/
  | decMessage (act : Nat)
  /-- ERROR_TOKEN, R92. Cancels the receiving task and forwards tokens to its successors. -/
  | errorToken (act : Nat)
  /-- WAKE_MESSAGE, R95. Delivers a FLAT launch to a core set of another rank. -/
  | wakeMessage (act : Nat)
  /-- COMPOSING_THREAD_START, R100. Loads the template copy and starts the prologue thread on the home core. -/
  | composingThreadStart (task : Nat)
  /-- FORME_COPY_RECEIVED, R103. A core allocates and receives its forme copy once it has room. -/
  | formeCopyReceived (core task : Nat)
  /-- STAMP_ITEM, R104. Starts an impression of the next item, a sub-item or a resumed impression in a free work slot. -/
  | stampItem (core slot : Nat)
  /-- PREEMPT, R87. Removes the most recently stamped lowest-level impression when higher work waits. -/
  | preempt (core : Nat)
  /-- IMAGE_SAVE_DONE, R396. The last byte of an image is written and the slot passes to new work. -/
  | imageSaveDone (slotid : Nat)
  /-- RESUME, R403. Restores a pre-empted impression's granules and registers and makes it runnable. -/
  | resume (core slot : Nat)
  /-- WATCHDOG_EXPIRY, R91. Traps WATCHDOG in every running impression of the task and freezes its queue. -/
  | watchdogExpiry (task : Nat)
  /-- TASK_COMPLETION, R88. Releases the task's writes, sends DECs or tokens and puts the completion tuple. -/
  | taskCompletion (task : Nat)
  /-- FORME_RELEASE, R114. Returns a core's forme copy and its granules when no impression of it remains. -/
  | formeRelease (core task : Nat)
  /-- NESTED_FORME_RELEASE, R113. Releases a nested forme when its last sub-impression retires, returning LENT granules. -/
  | nestedFormeRelease (core forme : Nat)
  /-- MESSAGE_ARRIVAL, R134. A message reaches a core and goes to the task unit, the message queue or the run list. -/
  | messageArrival (act : Nat)
  /-- HANDLER_THREAD_START, R135. Starts a handler thread for a queued message when a handler slot is free. -/
  | handlerThreadStart (core slot : Nat)
  /-- REMOTE_FILL, R127. Applies or discards a fill of an exposed register and acknowledges it. -/
  | remoteFill (act : Nat)
  /-- REMOTE_ACCESS_ARRIVAL, R172. A remote load, store or atomic is performed at its target. -/
  | remoteAccessArrival (act : Nat)
  /-- SYNC_REQUEST_ARRIVAL, R193. A synchronising request is performed or queued at its TCM word, and the queues are served. -/
  | syncRequestArrival (act : Nat)
  /-- ACCESS_REPLY, R123. A load or atomic reply is written and its thread becomes runnable. -/
  | accessReply (act : Nat)
  /-- ACKNOWLEDGEMENT, R172. An acknowledgement decreases the sender's UNACK. -/
  | acknowledgement (act : Nat)
  /-- WALK_COMPLETE, R181. A page walk ends, filling TLBs, trapping PAGE_PERM or marking the entry FAULTED. -/
  | walkComplete (storey page : Nat)
  /-- FBPOP_READ, R183. Pops the oldest fault-buffer entry and writes its page to FSVA. -/
  | fbpopRead (storey : Nat)
  /-- FBSTAT_DROP_CLEAR, R183. Clears DROP and NDROP. -/
  | fbstatDropClear (storey : Nat)
  /-- REPLAY_ALL, R183. Frees FAULTED entries of the storey and reissues their parked threads. -/
  | replayAll (storey : Nat)
  /-- INVAL_VA, R183. Removes the page holding FSVA from the storey's L2 TLB and its flights' L1 TLBs. -/
  | invalVa (storey : Nat)
  /-- INVAL_ALL, R183. Empties the storey's L2 TLB and its flights' L1 TLBs. -/
  | invalAll (storey : Nat)
  /-- DOMAIN_CONFIG_STAGE, R176. Stages a new DOMCFG or HMASK value at a slice. -/
  | domainConfigStage (slice off : Nat) (value : Word)
  /-- SCMD_WB, R176. Starts writing back the dirty lines a slice will not own under its staged configuration. -/
  | scmdWb (slice : Nat)
  /-- SCMD_WB_DONE, R176. A slice's staged write-back finishes and SCMD.WB reads 0. -/
  | scmdWbDone (slice : Nat)
  /-- DOMSW_GO, R177. Commits every staged domain configuration at one cycle or refuses with ERR. -/
  | domswGo
  /-- DOMAIN_SWITCH_DONE, R177. Slices finish writing back lines they no longer own and GO reads 0. -/
  | domainSwitchDone
  /-- HOTNESS_HALVING, R184. Halves every page's hotness counters every 2^24 cycles. -/
  | hotnessHalving
  /-- MIGRATION_START, R185. A slice engine sets MIG and begins copying a page toward its hot stack. -/
  | migrationStart (part page dest : Nat)
  /-- MIGRATION_FLIP, R185. Writes the new PA, clears MIG and invalidates the page in every TLB of the partition. -/
  | migrationFlip (part page : Nat)
  /-- COPY_COMPLETE, R207. A copy-engine operation finishes and its tag is set. -/
  | copyComplete (act : Nat)
  /-- NEAR_MEMORY_COMPLETE, R213. An NCMP or NRED writes its result word and sets its tag. -/
  | nearMemoryComplete (act : Nat)
  /-- SKUPD_COMPLETE, R320. Every counter update of an SKUPD is performed, UNACK decreases and the tag is set. -/
  | skupdComplete (act : Nat)
  /-- COUNTER_WATCH_MET, R210. A counter reaches a watched threshold, completing WAITCs or firing triggers. -/
  | counterWatchMet (act : Nat)
  /-- TRIGGER_FIRE, R212. Performs an armed copy, fill or DEC when its counter reaches the threshold. -/
  | triggerFire (act : Nat)
  /-- SC_WINDOW_CLOSE, R198. A notification window closes and its SC atomics' threads are released. -/
  | scWindowClose
  /-- MATRIX_OP_START, R252. A queued matrix entry starts, checking tile formats and reading A. -/
  | matrixOpStart (core : Nat)
  /-- MATRIX_OP_COMPLETE, R252. A matrix operation writes C, sets flags and frees its entry or starts its hand-off. -/
  | matrixOpComplete (core : Nat)
  /-- HANDOFF_LAND, R251. A handed-off tile lands in a neighbour's receive buffer and the sender's latch empties. -/
  | handoffLand (act : Nat)
  /-- GALLERY_PUT_ARRIVAL, R281. A put at its home serves matching READ waiters and one TAKE waiter, or indexes the tuple. -/
  | galleryPutArrival (act : Nat)
  /-- GALLERY_MATCH_REQUEST, R278. A READ or TAKE at its home delivers the oldest match, answers NOMATCH or stores a waiter. -/
  | galleryMatchRequest (act : Nat)
  /-- GALLERY_CANCEL_ARRIVAL, R282. A cancel at a home withdraws the waiter if it is still waiting. -/
  | galleryCancelArrival (act : Nat)
  /-- PUT_ANSWER, R298. A put's answer fills the key register's status, decreases UNACK and sets the tag. -/
  | putAnswer (act : Nat)
  /-- RETRY_REISSUE, R280. The network interface reissues an operation answered RETRY after back-off. -/
  | retryReissue (act : Nat)
  /-- REDIRECT_REISSUE, R287. The network interface reissues a redirected request to the new home and counts REDIRECTS. -/
  | redirectReissue (act : Nat)
  /-- RANGE_ENTRY_ACK, R287. A package acknowledges a broadcast range-table entry of a split. -/
  | rangeEntryAck (hall fabric : Nat)
  /-- SPLIT_FLIP, R287. The destination has applied every copied change, and the source holds operations while the entry is broadcast. -/
  | splitFlip (hall : Nat)
  /-- SPLIT_DRAIN, R287. Every package has acknowledged the entry, and the source forwards held operations and an end marker. -/
  | splitDrain (hall : Nat)
  /-- SPLIT_DONE, R287. A package reaches DONE of a split. -/
  | splitDone (hall : Nat)
  /-- LANDING_ARRIVAL, R333. Counts an arrival at a landing and flips the generation when the count is met. -/
  | landingArrival (act : Nat)
  /-- LANDING_ACK, R333. An arrival's acknowledgement naming its generation reaches its thread. -/
  | landingAck (act : Nat)
  /-- LANDING_FLIP_SEEN, R333. A flip becomes visible at every core, releasing waiting threads. -/
  | landingFlipSeen (landing : Nat)
  /-- LOWN_WRITE, R331. Assigns a landing to a partition and resets its counts and arrival records. -/
  | lownWrite (landing : Nat) (value : Word)
  /-- LCFG_WRITE, R332. Sets a landing's participant count while no arrival is counted. -/
  | lcfgWrite (storey landing : Nat) (value : Word)
  /-- COLLECTIVE_ARRIVAL, R340. A contribution or partial reaches a tree node and completes the round when all are present. -/
  | collectiveArrival (act : Nat)
  /-- COLLECTIVE_RESULT, R341. A round's result reaches a contributor's collective record. -/
  | collectiveResult (act : Nat)
  /-- PACKET_DELIVERY, R329. Writes a whole packet into a receive queue once it has room. -/
  | packetDelivery (act : Nat)
  /-- TRANSPORT_GIVE_UP, R351. A packet exceeds its retransmission limit and fences its Ethernet port. -/
  | transportGiveUp (act : Nat)
  /-- FUNCTION_FENCE, R404. Fences a core, flight, slice, link or port on an uncorrectable or integrity error and logs it. -/
  | functionFence (kind reason unit : Nat)
  /-- DEFERRED_FENCED_TRAP, R390. Raises a pending FENCED trap at the thread's next instruction boundary. -/
  | deferredFencedTrap (slotid : Nat)
  /-- DEBUG_RELEASE, R160. The debug interface releases a halted thread to continue. -/
  | debugRelease (slotid : Nat) (newPc : Option Word)
  /-- POWER_ON_RESET, R417. Module power is applied and the package resets into STANDBY. -/
  | powerOnReset
  /-- PACKAGE_RESET, R418. RSTCTL.PKG or a PF0 Function Level Reset resets and wipes the package. -/
  | packageReset
  /-- DEBUG_RESET, R419. RSTCTL.CORE cancels every thread of a core and wipes it. -/
  | debugReset (core : Nat)
  /-- LIFE_CYCLE_CHANGE, R420. A signed firmware command changes the life-cycle state with a package reset and wipe. -/
  | lifeCycleChange (target : Nat) (verified : Bool)
  /-- WIPE_COMPLETE, R422. A wipe finishes and held requests are served against the wiped state. -/
  | wipeComplete (storey : Nat)
  /-- POWER_REMOVED, R423. Power removal takes the module to OFF. -/
  | powerRemoved
  /-- THR_RISE, R425. Raises the throttle level when power or temperature exceeds its limit. -/
  | thrRise (power temp : Nat)
  /-- THR_FALL, R425. Lowers the throttle level after 2^24 cycles within limits. -/
  | thrFall (power temp : Nat)
  /-- THERMAL_TRIP, R426. At 105 °C cancels every task and signals MSI-X vector 2 of PF0. -/
  | thermalTrip (temp : Nat)
  /-- THERMAL_OFF, R426. Enters OFF 2^20 cycles after a thermal trip. -/
  | thermalOff
  /-- MSI_X_VECTOR_UNMASK, R76. The host unmasks an MSI-X vector that holds a pending message, and the part sends that one pending message. -/
  | msiXVectorUnmask (fn vector : Nat)
  /-- POOL_MODULE_FAILURE, R186. A pool module fails, so mirrored regions are served by the other copy and parity regions rebuild the lost data, or a sector with no good copy becomes uncorrectable. -/
  | poolModuleFailure (module : Nat)
  /-- BOUNCED_REQUEST_REISSUE, R177. The requesting port receives a request bounced by a slice that no longer owns the line, or caught by a migration flip, and reissues it to the new owner or under the new entry. -/
  | bouncedRequestReissue (act : Nat)
  /-- MIRRORED_CHANGE, R287. During the COPY phase the destination receives and applies a copied or mirrored index entry, waiter, insertion or removal of the moving range. -/
  | mirroredChange (act : Nat)
  /-- SOURCE_HOME_NOTICE, R288. The source home receives the destination's notice that a tuple it still holds the payload for was taken, and frees the tuple's heap granules. -/
  | sourceHomeNotice (act : Nat)
  /-- RANK_COMPLETION_REPORT, R95. Rank 0 receives another rank's report that its share of a FLAT launch has completed, and completes the launch once every rank has reported. -/
  | rankCompletionReport (act : Nat)
  deriving DecidableEq, Repr

end Sys2Proof
end

