-- ==== Sys2Proof/WellFormed.lean ====
section
/-!
DEFINITION. WellFormed: the values that a field may hold beyond its width (02 R33-R37, 12 R242, 13 R258,
15 R296). `Instr.illFormed` names the first rule an instruction breaks.
-/

namespace Sys2Proof

/-- Why a word is no instruction (02 R37), by name. -/
inductive Reject where
  /-- fewer than four bytes are there -/
  | shortFetch
  /-- the word is zero -/
  | zeroWord
  /-- the major opcode is 0x00 or lies in 0x26-0x3F -/
  | opcode
  /-- the function value lies outside the lists -/
  | function
  /-- COND is 6 or 7 -/
  | condition
  /-- T is 6 or 7, or not permitted for the instruction -/
  | laneType
  /-- MODE is 3 -/
  | mode
  /-- AOP is 10-15 -/
  | operator
  /-- ORDER is 5-7 -/
  | order
  /-- SZ is 3 in LD or ST, or U is set where it may not be -/
  | size
  /-- U is set in SYNCM -/
  | unsignedFlag
  /-- an M, D, VB or X2 value lies outside the values allowed -/
  | value
  /-- the SHI selector is 3-63 -/
  | shiftSelector
  /-- a field fixed at zero is not zero -/
  | reservedField
  /-- a READ or TAKE names a result register outside v8-v15 -/
  | resultRegister
  /-- a TAGW pair operand names an odd register -/
  | oddPair
  deriving DecidableEq, Repr

/-- The lane types of VINT: INT32 and INT8 (12 R233). -/
def tInt (t : BitVec 3) : Bool := t == 4 || t == 5

/-- The lane types of VFLT: FP32 and BF16 (12 R234). -/
def tFlt (t : BitVec 3) : Bool := t == 0 || t == 1

/-- The lane types of VCMP and the reductions (12 R242). -/
def tArith (t : BitVec 3) : Bool := tInt t || tFlt t

/-- Every lane type (12 R230). -/
def tAny (t : BitVec 3) : Bool := t.toNat ≤ 5

/-- `r` when the condition fails. -/
def need (c : Bool) (r : Reject) : Option Reject := if c then none else some r

/-- The matrix operand M: a latch and the source of A; A is 0 when the buffer is the source (13 R258). -/
def matrixOk (a : BitVec 5) (m : BitVec 3) : Bool := m.toNat ≤ 3 && (!m.getLsbD 1 || a == 0)

/-- The first value limit that an instruction breaks. An event has none here: a unit number out of range
names no unit, and the event then changes nothing. -/
def Instr.illFormed : Instr → Option Reject
  | .add _ _ _ => none
  | .sub _ _ _ => none
  | .and _ _ _ => none
  | .or _ _ _ => none
  | .xor _ _ _ => none
  | .andn _ _ _ => none
  | .orn _ _ _ => none
  | .xnor _ _ _ => none
  | .sll _ _ _ => none
  | .srl _ _ _ => none
  | .sra _ _ _ => none
  | .rol _ _ _ => none
  | .ror _ _ _ => none
  | .slt _ _ _ => none
  | .sltu _ _ _ => none
  | .min _ _ _ => none
  | .max _ _ _ => none
  | .minu _ _ _ => none
  | .maxu _ _ _ => none
  | .mul _ _ _ => none
  | .mulh _ _ _ => none
  | .mulhu _ _ _ => none
  | .mulhsu _ _ _ => none
  | .div _ _ _ => none
  | .divu _ _ _ => none
  | .rem _ _ _ => none
  | .remu _ _ _ => none
  | .clz _ _ => none
  | .ctz _ _ => none
  | .popc _ _ => none
  | .sextb _ _ => none
  | .sexth _ _ => none
  | .zexth _ _ => none
  | .bswap _ _ => none
  | .addi _ _ _ => none
  | .andi _ _ _ => none
  | .ori _ _ _ => none
  | .xori _ _ _ => none
  | .slti _ _ _ => none
  | .sltiu _ _ _ => none
  | .slli _ _ _ => none
  | .srli _ _ _ => none
  | .srai _ _ _ => none
  | .lui _ _ => none
  | .adpc _ _ => none
  | .jal _ _ => none
  | .jalr _ _ _ => none
  | .beq _ _ _ => none
  | .bne _ _ _ => none
  | .blt _ _ _ => none
  | .bge _ _ _ => none
  | .bltu _ _ _ => none
  | .bgeu _ _ _ => none
  | .ldb _ _ _ _ => none
  | .ldbu _ _ _ _ => none
  | .ldh _ _ _ _ => none
  | .ldhu _ _ _ _ => none
  | .ldw _ _ _ _ => none
  | .stb _ _ _ _ => none
  | .sth _ _ _ _ => none
  | .stw _ _ _ _ => none
  | .ldfe _ _ _ _ => none
  | .ldff _ _ _ _ => none
  | .stfe _ _ _ _ => none
  | .stff _ _ _ _ => none
  | .amoadd order _ _ _ _ => need (order.toNat ≤ 4) .order
  | .amoswap order _ _ _ _ => need (order.toNat ≤ 4) .order
  | .amocas order _ _ _ _ => need (order.toNat ≤ 4) .order
  | .amoand order _ _ _ _ => need (order.toNat ≤ 4) .order
  | .amoor order _ _ _ _ => need (order.toNat ≤ 4) .order
  | .amoxor order _ _ _ _ => need (order.toNat ≤ 4) .order
  | .amomin order _ _ _ _ => need (order.toNat ≤ 4) .order
  | .amomax order _ _ _ _ => need (order.toNat ≤ 4) .order
  | .amominu order _ _ _ _ => need (order.toNat ≤ 4) .order
  | .amomaxu order _ _ _ _ => need (order.toNat ≤ 4) .order
  | .fence kind scope => need (kind.toNat ≤ 2 && scope.toNat ≤ 4) .value
  | .drain => none
  | .feclr _ _ _ => none
  | .trig _ _ _ _ => none
  | .waitc _ _ _ _ => none
  | .ncmp _ _ _ _ => none
  | .nred _ _ _ _ => none
  | .cpy hint _ _ _ => need (hint.toNat ≤ 2) .value
  | .cpyg hint _ _ _ => need (hint.toNat ≤ 2) .value
  | .cpys hint _ _ _ => need (hint.toNat ≤ 2) .value
  | .cpyf hint _ _ _ => need (hint.toNat ≤ 2) .value
  | .wtany _ a => need (!a.getLsbD 0) .oddPair
  | .wtall a => need (!a.getLsbD 0) .oddPair
  | .tfirst _ a => need (!a.getLsbD 0) .oddPair
  | .tclr a => need (!a.getLsbD 0) .oddPair
  | .tstat _ _ => none
  | .vld _ _ _ _ _ => none
  | .vlds _ _ _ _ _ _ => none
  | .vldx _ _ _ _ _ _ => none
  | .vst _ _ _ _ _ => none
  | .vsts _ _ _ _ _ _ => none
  | .vstx _ _ _ _ _ _ => none
  | .viadd t _ _ _ _ => need (tInt t) .laneType
  | .visub t _ _ _ _ => need (tInt t) .laneType
  | .vimul t _ _ _ _ => need (tInt t) .laneType
  | .vimin t _ _ _ _ => need (tInt t) .laneType
  | .vimax t _ _ _ _ => need (tInt t) .laneType
  | .viand t _ _ _ _ => need (tInt t) .laneType
  | .vior t _ _ _ _ => need (tInt t) .laneType
  | .vixor t _ _ _ _ => need (tInt t) .laneType
  | .visll t _ _ _ _ => need (tInt t) .laneType
  | .visrl t _ _ _ _ => need (tInt t) .laneType
  | .visra t _ _ _ _ => need (tInt t) .laneType
  | .viabs t _ _ _ => need (tInt t) .laneType
  | .vadd t _ _ _ _ => need (tFlt t) .laneType
  | .vsub t _ _ _ _ => need (tFlt t) .laneType
  | .vmul t _ _ _ _ => need (tFlt t) .laneType
  | .vfma t _ _ _ _ => need (tFlt t) .laneType
  | .vfms t _ _ _ _ => need (tFlt t) .laneType
  | .vmin t _ _ _ _ => need (tFlt t) .laneType
  | .vmax t _ _ _ _ => need (tFlt t) .laneType
  | .vabs t _ _ _ => need (tFlt t) .laneType
  | .vneg t _ _ _ => need (tFlt t) .laneType
  | .vsqrt t _ _ _ => need (tFlt t) .laneType
  | .vrcp t _ _ _ => need (tFlt t) .laneType
  | .vrsq t _ _ _ => need (tFlt t) .laneType
  | .vexp2 t _ _ _ => need (tFlt t) .laneType
  | .vscl t _ _ _ _ => need (tFlt t) .laneType
  | .vcmp _ t _ _ _ _ => need (tArith t) .laneType
  | .vsel t _ _ _ _ => need (tAny t) .laneType
  | .vshuf t _ _ _ _ => need (tAny t) .laneType
  | .vslide t _ _ _ _ => need (tAny t) .laneType
  | .vredsum t _ _ _ => need (tArith t) .laneType
  | .vredmax t _ _ _ => need (tArith t) .laneType
  | .vredmin t _ _ _ => need (tArith t) .laneType
  | .vcvt _ t src _ _ _ => if tAny t then need (src.toNat ≤ 5) .value else some .laneType
  | .kand _ _ _ => none
  | .kor _ _ _ => none
  | .knot _ _ => none
  | .kmov _ _ => none
  | .vbcast _ _ m => need (m.toNat ≤ 2) .value
  | .vget _ _ _ m => need (m.toNat ≤ 2) .value
  | .vput _ _ _ m => need (m.toNat ≤ 2) .value
  | .kget _ _ w => need (w.toNat ≤ 1) .value
  | .kset _ _ w => need (w.toNat ≤ 1) .value
  | .mma _ a m => need (matrixOk a m) .value
  | .mmarb _ a m => need (matrixOk a m) .value
  | .mmacn _ a m => need (matrixOk a m) .value
  | .mbld _ l => need (l.toNat ≤ 1) .value
  | .mbpass l => need (l.toNat ≤ 1) .value
  | .mzero _ => none
  | .mfmt _ => none
  | .mfmtq _ => none
  | .put _ _ _ => none
  | .putg _ _ _ => none
  | .read mode vd _ _ => if mode.toNat ≤ 2 then need (vd.getLsbD 3) .resultRegister else some .value
  | .take mode vd _ _ => if mode.toNat ≤ 2 then need (vd.getLsbD 3) .resultRegister else some .value
  | .tcancel _ _ => none
  | .halldefDefine _ _ _ => none
  | .halldefRetire _ _ _ => none
  | .hallq _ _ _ => none
  | .split _ _ => none
  | .splst _ _ => none
  | .skset _ _ => none
  | .skupd _ _ _ _ => none
  | .skqry _ _ _ => none
  | .skadd _ _ _ => none
  | .skclr _ => none
  | .freeze => none
  | .nest _ _ => none
  | .njoin => none
  | .tstw _ _ => none
  | .tstv _ _ => none
  | .finfo _ _ => none
  | .msg _ _ _ => none
  | .rput _ _ => none
  | .rputv _ _ => none
  | .empty _ => none
  | .emptyv _ => none
  | .testp _ _ => none
  | .testpVector _ _ => none
  | .wfm _ => none
  | .landa _ => none
  | .landw _ => none
  | .landaw _ => none
  | .landq _ _ => none
  | .cgput _ _ => none
  | .cgputv _ _ => none
  | .cgget _ _ => none
  | .cggetv _ _ => none
  | .cgset _ _ => none
  | .spawn _ => none
  | .dec _ _ => none
  | .decEvent seg _ _ => need (seg != 0) .value
  | .exit => none
  | .yield => none
  | .hsift _ _ => none
  | .remapwAppend _ _ => none
  | .remapwRelease _ _ => none
  | .remapwClose _ _ => none
  | .remapcPool _ _ => none
  | .remapcDefine _ _ => none
  | .remapcReset _ _ => none
  | .sysrd _ _ => none
  | .syswr _ _ => none
  | .sysset _ _ => none
  | .sysclr _ _ => none
  | .ecall => none
  | .brk => none
  | .tret => none
  | .halt => none
  | .segld _ _ => none
  | .segrd _ _ w => need (w.toNat ≤ 3) .value
  | .registerWrite _ _ _ _ => none
  | .slotclsWrite _ _ => none
  | .runctlWrite _ _ => none
  | .shpoolWrite _ _ => none
  | .lcsplitWrite _ _ => none
  | .lcsplitChangeDone _ => none
  | .mvtbaseWrite _ _ => none
  | .vpoolWrite _ _ => none
  | .cycleLowRead _ => none
  | .stagingWrite _ _ _ => none
  | .ldoor _ _ _ => none
  | .stagingCaptureDone _ _ => none
  | .cpop _ _ => none
  | .windowWrite _ _ _ => none
  | .windowRead _ _ _ => none
  | .smaskWrite _ _ => none
  | .partitionDescriptorWrite _ _ _ => none
  | .keySlotWrite _ _ => none
  | .keyMaterialReady _ => none
  | .getVersion => none
  | .getCapabilities => none
  | .negotiateAlgorithms _ => none
  | .getDigests => none
  | .getCertificate _ _ _ => none
  | .challenge _ => none
  | .getMeasurements _ _ => none
  | .keyExchange _ => none
  | .spdmFinish _ => none
  | .keyUpdate => none
  | .heartbeat => none
  | .endSession => none
  | .chunkSend _ _ => none
  | .chunkGet _ => none
  | .ideKm _ => none
  | .lockInterfaceRequest _ => none
  | .startInterfaceRequest _ => none
  | .stopInterfaceRequest _ => none
  | .ideIntegrityFailure _ => none
  | .vfFunctionLevelReset _ => none
  | .firmwareImage _ _ _ _ => none
  | .launchAdmit _ => none
  | .decMessage _ => none
  | .errorToken _ => none
  | .wakeMessage _ => none
  | .composingThreadStart _ => none
  | .formeCopyReceived _ _ => none
  | .stampItem _ _ => none
  | .preempt _ => none
  | .imageSaveDone _ => none
  | .resume _ _ => none
  | .watchdogExpiry _ => none
  | .taskCompletion _ => none
  | .formeRelease _ _ => none
  | .nestedFormeRelease _ _ => none
  | .messageArrival _ => none
  | .handlerThreadStart _ _ => none
  | .remoteFill _ => none
  | .remoteAccessArrival _ => none
  | .syncRequestArrival _ => none
  | .accessReply _ => none
  | .acknowledgement _ => none
  | .walkComplete _ _ => none
  | .fbpopRead _ => none
  | .fbstatDropClear _ => none
  | .replayAll _ => none
  | .invalVa _ => none
  | .invalAll _ => none
  | .domainConfigStage _ _ _ => none
  | .scmdWb _ => none
  | .scmdWbDone _ => none
  | .domswGo => none
  | .domainSwitchDone => none
  | .hotnessHalving => none
  | .migrationStart _ _ _ => none
  | .migrationFlip _ _ => none
  | .copyComplete _ => none
  | .nearMemoryComplete _ => none
  | .skupdComplete _ => none
  | .counterWatchMet _ => none
  | .triggerFire _ => none
  | .scWindowClose => none
  | .matrixOpStart _ => none
  | .matrixOpComplete _ => none
  | .handoffLand _ => none
  | .galleryPutArrival _ => none
  | .galleryMatchRequest _ => none
  | .galleryCancelArrival _ => none
  | .putAnswer _ => none
  | .retryReissue _ => none
  | .redirectReissue _ => none
  | .rangeEntryAck _ _ => none
  | .splitFlip _ => none
  | .splitDrain _ => none
  | .splitDone _ => none
  | .landingArrival _ => none
  | .landingAck _ => none
  | .landingFlipSeen _ => none
  | .lownWrite _ _ => none
  | .lcfgWrite _ _ _ => none
  | .collectiveArrival _ => none
  | .collectiveResult _ => none
  | .packetDelivery _ => none
  | .transportGiveUp _ => none
  | .functionFence _ _ _ => none
  | .deferredFencedTrap _ => none
  | .debugRelease _ _ => none
  | .powerOnReset => none
  | .packageReset => none
  | .debugReset _ => none
  | .lifeCycleChange _ _ => none
  | .wipeComplete _ => none
  | .powerRemoved => none
  | .thrRise _ _ => none
  | .thrFall _ _ => none
  | .thermalTrip _ => none
  | .thermalOff => none
  | .msiXVectorUnmask _ _ => none
  | .poolModuleFailure _ => none
  | .bouncedRequestReissue _ => none
  | .mirroredChange _ => none
  | .sourceHomeNotice _ => none
  | .rankCompletionReport _ => none

/-- An instruction is well formed when it breaks no value limit. -/
def Instr.wellFormed (i : Instr) : Bool := i.illFormed.isNone

end Sys2Proof
end

