-- ==== Sys2Proof/Decode.lean ====
section
/-!
DEFINITION. Decode: from instruction words to instructions and back, after the tables of 02 R32-R37.
`decodeWord` is total: it answers an instruction or rejects the word by the name of the first reason of
R37 that it meets. `encode` is written from the same tables. Events have no encoding.
-/

namespace Sys2Proof

/-- Bits [lo + len - 1 : lo] of a word, as a number (00 R2). -/
def fld (w lo len : Nat) : Nat := w / 2 ^ lo % 2 ^ len

/-- The same bits as a bit vector. -/
def bits (w lo len : Nat) {n : Nat} : BitVec n := BitVec.ofNat n (fld w lo len)

/-- Format RR (02 R32). -/
def wordRR (op d a b f6 : Nat) : Nat :=
  op + 64 * d + 2048 * a + 65536 * b + 67108864 * f6

/-- Format RI (02 R32). -/
def wordRI (op d a imm : Nat) : Nat :=
  op + 64 * d + 2048 * a + 65536 * imm

/-- Format U (02 R32). -/
def wordU (op d imm : Nat) : Nat :=
  op + 64 * d + 2048 * imm

/-- Format B (02 R32). -/
def wordB (op a b cond off : Nat) : Nat :=
  op + 64 * a + 2048 * b + 65536 * cond + 524288 * off

/-- Format M (02 R32). -/
def wordM (op d a seg sz u imm : Nat) : Nat :=
  op + 64 * d + 2048 * a + 65536 * seg + 524288 * sz + 2097152 * u + 4194304 * imm

/-- Format A (02 R32). -/
def wordA (op d a b seg aop order : Nat) : Nat :=
  op + 64 * d + 2048 * a + 65536 * b + 2097152 * seg + 16777216 * aop + 268435456 * order

/-- Format V (02 R32). -/
def wordV (op vd va vb k t x2 f6 : Nat) : Nat :=
  op + 64 * vd + 1024 * va + 16384 * vb + 262144 * k + 2097152 * t + 16777216 * x2 + 67108864 * f6

/-- Format VM (02 R32). -/
def wordVM (op vd a seg k b mode imm : Nat) : Nat :=
  op + 64 * vd + 1024 * a + 32768 * seg + 262144 * k + 2097152 * b + 67108864 * mode + 268435456 * imm

/-- Format E (02 R32). -/
def wordE (op d a b m f8 : Nat) : Nat :=
  op + 64 * d + 2048 * a + 65536 * b + 2097152 * m + 16777216 * f8

/-- Format E with a register number (02 R35) (02 R32). -/
def wordN (op d n f8 : Nat) : Nat :=
  op + 64 * d + 2048 * n + 16777216 * f8

/-- The word of an instruction (02 R34-R36); an event of the part has none. -/
def encode : Instr → Option Nat
  | .add d a b => some (wordRR 1 d.toNat a.toNat b.toNat 0)
  | .sub d a b => some (wordRR 1 d.toNat a.toNat b.toNat 1)
  | .and d a b => some (wordRR 1 d.toNat a.toNat b.toNat 2)
  | .or d a b => some (wordRR 1 d.toNat a.toNat b.toNat 3)
  | .xor d a b => some (wordRR 1 d.toNat a.toNat b.toNat 4)
  | .andn d a b => some (wordRR 1 d.toNat a.toNat b.toNat 5)
  | .orn d a b => some (wordRR 1 d.toNat a.toNat b.toNat 6)
  | .xnor d a b => some (wordRR 1 d.toNat a.toNat b.toNat 7)
  | .sll d a b => some (wordRR 1 d.toNat a.toNat b.toNat 8)
  | .srl d a b => some (wordRR 1 d.toNat a.toNat b.toNat 9)
  | .sra d a b => some (wordRR 1 d.toNat a.toNat b.toNat 10)
  | .rol d a b => some (wordRR 1 d.toNat a.toNat b.toNat 11)
  | .ror d a b => some (wordRR 1 d.toNat a.toNat b.toNat 12)
  | .slt d a b => some (wordRR 1 d.toNat a.toNat b.toNat 13)
  | .sltu d a b => some (wordRR 1 d.toNat a.toNat b.toNat 14)
  | .min d a b => some (wordRR 1 d.toNat a.toNat b.toNat 15)
  | .max d a b => some (wordRR 1 d.toNat a.toNat b.toNat 16)
  | .minu d a b => some (wordRR 1 d.toNat a.toNat b.toNat 17)
  | .maxu d a b => some (wordRR 1 d.toNat a.toNat b.toNat 18)
  | .mul d a b => some (wordRR 1 d.toNat a.toNat b.toNat 19)
  | .mulh d a b => some (wordRR 1 d.toNat a.toNat b.toNat 20)
  | .mulhu d a b => some (wordRR 1 d.toNat a.toNat b.toNat 21)
  | .mulhsu d a b => some (wordRR 1 d.toNat a.toNat b.toNat 22)
  | .div d a b => some (wordRR 1 d.toNat a.toNat b.toNat 23)
  | .divu d a b => some (wordRR 1 d.toNat a.toNat b.toNat 24)
  | .rem d a b => some (wordRR 1 d.toNat a.toNat b.toNat 25)
  | .remu d a b => some (wordRR 1 d.toNat a.toNat b.toNat 26)
  | .clz d a => some (wordRR 1 d.toNat a.toNat 0 27)
  | .ctz d a => some (wordRR 1 d.toNat a.toNat 0 28)
  | .popc d a => some (wordRR 1 d.toNat a.toNat 0 29)
  | .sextb d a => some (wordRR 1 d.toNat a.toNat 0 30)
  | .sexth d a => some (wordRR 1 d.toNat a.toNat 0 31)
  | .zexth d a => some (wordRR 1 d.toNat a.toNat 0 32)
  | .bswap d a => some (wordRR 1 d.toNat a.toNat 0 33)
  | .addi d a imm => some (wordRI 2 d.toNat a.toNat imm.toNat)
  | .andi d a imm => some (wordRI 3 d.toNat a.toNat imm.toNat)
  | .ori d a imm => some (wordRI 4 d.toNat a.toNat imm.toNat)
  | .xori d a imm => some (wordRI 5 d.toNat a.toNat imm.toNat)
  | .slti d a imm => some (wordRI 6 d.toNat a.toNat imm.toNat)
  | .sltiu d a imm => some (wordRI 7 d.toNat a.toNat imm.toNat)
  | .slli d a n => some (wordRR 8 d.toNat a.toNat n.toNat 0)
  | .srli d a n => some (wordRR 8 d.toNat a.toNat n.toNat 1)
  | .srai d a n => some (wordRR 8 d.toNat a.toNat n.toNat 2)
  | .lui d imm => some (wordU 9 d.toNat imm.toNat)
  | .adpc d imm => some (wordU 10 d.toNat imm.toNat)
  | .jal d off => some (wordU 11 d.toNat off.toNat)
  | .jalr d a imm => some (wordRI 12 d.toNat a.toNat imm.toNat)
  | .beq a b off => some (wordB 13 a.toNat b.toNat 0 off.toNat)
  | .bne a b off => some (wordB 13 a.toNat b.toNat 1 off.toNat)
  | .blt a b off => some (wordB 13 a.toNat b.toNat 2 off.toNat)
  | .bge a b off => some (wordB 13 a.toNat b.toNat 3 off.toNat)
  | .bltu a b off => some (wordB 13 a.toNat b.toNat 4 off.toNat)
  | .bgeu a b off => some (wordB 13 a.toNat b.toNat 5 off.toNat)
  | .ldb d a seg imm => some (wordM 14 d.toNat a.toNat seg.toNat 0 0 imm.toNat)
  | .ldbu d a seg imm => some (wordM 14 d.toNat a.toNat seg.toNat 0 1 imm.toNat)
  | .ldh d a seg imm => some (wordM 14 d.toNat a.toNat seg.toNat 1 0 imm.toNat)
  | .ldhu d a seg imm => some (wordM 14 d.toNat a.toNat seg.toNat 1 1 imm.toNat)
  | .ldw d a seg imm => some (wordM 14 d.toNat a.toNat seg.toNat 2 0 imm.toNat)
  | .stb d a seg imm => some (wordM 15 d.toNat a.toNat seg.toNat 0 0 imm.toNat)
  | .sth d a seg imm => some (wordM 15 d.toNat a.toNat seg.toNat 1 0 imm.toNat)
  | .stw d a seg imm => some (wordM 15 d.toNat a.toNat seg.toNat 2 0 imm.toNat)
  | .ldfe d a seg imm => some (wordM 16 d.toNat a.toNat seg.toNat 0 0 imm.toNat)
  | .ldff d a seg imm => some (wordM 16 d.toNat a.toNat seg.toNat 1 0 imm.toNat)
  | .stfe d a seg imm => some (wordM 16 d.toNat a.toNat seg.toNat 2 0 imm.toNat)
  | .stff d a seg imm => some (wordM 16 d.toNat a.toNat seg.toNat 3 0 imm.toNat)
  | .amoadd order d a seg b => some (wordA 17 d.toNat a.toNat b.toNat seg.toNat 0 order.toNat)
  | .amoswap order d a seg b => some (wordA 17 d.toNat a.toNat b.toNat seg.toNat 1 order.toNat)
  | .amocas order d a seg b => some (wordA 17 d.toNat a.toNat b.toNat seg.toNat 2 order.toNat)
  | .amoand order d a seg b => some (wordA 17 d.toNat a.toNat b.toNat seg.toNat 3 order.toNat)
  | .amoor order d a seg b => some (wordA 17 d.toNat a.toNat b.toNat seg.toNat 4 order.toNat)
  | .amoxor order d a seg b => some (wordA 17 d.toNat a.toNat b.toNat seg.toNat 5 order.toNat)
  | .amomin order d a seg b => some (wordA 17 d.toNat a.toNat b.toNat seg.toNat 6 order.toNat)
  | .amomax order d a seg b => some (wordA 17 d.toNat a.toNat b.toNat seg.toNat 7 order.toNat)
  | .amominu order d a seg b => some (wordA 17 d.toNat a.toNat b.toNat seg.toNat 8 order.toNat)
  | .amomaxu order d a seg b => some (wordA 17 d.toNat a.toNat b.toNat seg.toNat 9 order.toNat)
  | .fence kind scope => some (wordE 18 kind.toNat 0 0 scope.toNat 0)
  | .drain => some (wordE 18 0 0 0 0 1)
  | .feclr seg a b => some (wordE 18 0 a.toNat b.toNat seg.toNat 2)
  | .trig d seg a b => some (wordE 18 d.toNat a.toNat b.toNat seg.toNat 3)
  | .waitc d seg a b => some (wordE 18 d.toNat a.toNat b.toNat seg.toNat 4)
  | .ncmp d seg a b => some (wordE 18 d.toNat a.toNat b.toNat seg.toNat 5)
  | .nred d seg a b => some (wordE 18 d.toNat a.toNat b.toNat seg.toNat 6)
  | .cpy hint d a b => some (wordE 19 d.toNat a.toNat b.toNat hint.toNat 0)
  | .cpyg hint d a b => some (wordE 19 d.toNat a.toNat b.toNat hint.toNat 1)
  | .cpys hint d a b => some (wordE 19 d.toNat a.toNat b.toNat hint.toNat 2)
  | .cpyf hint d a b => some (wordE 19 d.toNat a.toNat b.toNat hint.toNat 3)
  | .wtany d a => some (wordE 20 d.toNat a.toNat 0 0 0)
  | .wtall a => some (wordE 20 0 a.toNat 0 0 1)
  | .tfirst d a => some (wordE 20 d.toNat a.toNat 0 0 2)
  | .tclr a => some (wordE 20 0 a.toNat 0 0 3)
  | .tstat d a => some (wordE 20 d.toNat a.toNat 0 0 4)
  | .vld vd seg a imm k => some (wordVM 21 vd.toNat a.toNat seg.toNat k.toNat 0 0 imm.toNat)
  | .vlds vd seg a imm b k => some (wordVM 21 vd.toNat a.toNat seg.toNat k.toNat b.toNat 1 imm.toNat)
  | .vldx vd seg a imm vb k => some (wordVM 21 vd.toNat a.toNat seg.toNat k.toNat vb.toNat 2 imm.toNat)
  | .vst vd seg a imm k => some (wordVM 22 vd.toNat a.toNat seg.toNat k.toNat 0 0 imm.toNat)
  | .vsts vd seg a imm b k => some (wordVM 22 vd.toNat a.toNat seg.toNat k.toNat b.toNat 1 imm.toNat)
  | .vstx vd seg a imm vb k => some (wordVM 22 vd.toNat a.toNat seg.toNat k.toNat vb.toNat 2 imm.toNat)
  | .viadd t vd va vb k => some (wordV 23 vd.toNat va.toNat vb.toNat k.toNat t.toNat 0 0)
  | .visub t vd va vb k => some (wordV 23 vd.toNat va.toNat vb.toNat k.toNat t.toNat 0 1)
  | .vimul t vd va vb k => some (wordV 23 vd.toNat va.toNat vb.toNat k.toNat t.toNat 0 2)
  | .vimin t vd va vb k => some (wordV 23 vd.toNat va.toNat vb.toNat k.toNat t.toNat 0 3)
  | .vimax t vd va vb k => some (wordV 23 vd.toNat va.toNat vb.toNat k.toNat t.toNat 0 4)
  | .viand t vd va vb k => some (wordV 23 vd.toNat va.toNat vb.toNat k.toNat t.toNat 0 5)
  | .vior t vd va vb k => some (wordV 23 vd.toNat va.toNat vb.toNat k.toNat t.toNat 0 6)
  | .vixor t vd va vb k => some (wordV 23 vd.toNat va.toNat vb.toNat k.toNat t.toNat 0 7)
  | .visll t vd va vb k => some (wordV 23 vd.toNat va.toNat vb.toNat k.toNat t.toNat 0 8)
  | .visrl t vd va vb k => some (wordV 23 vd.toNat va.toNat vb.toNat k.toNat t.toNat 0 9)
  | .visra t vd va vb k => some (wordV 23 vd.toNat va.toNat vb.toNat k.toNat t.toNat 0 10)
  | .viabs t vd va k => some (wordV 23 vd.toNat va.toNat 0 k.toNat t.toNat 0 11)
  | .vadd t vd va vb k => some (wordV 24 vd.toNat va.toNat vb.toNat k.toNat t.toNat 0 0)
  | .vsub t vd va vb k => some (wordV 24 vd.toNat va.toNat vb.toNat k.toNat t.toNat 0 1)
  | .vmul t vd va vb k => some (wordV 24 vd.toNat va.toNat vb.toNat k.toNat t.toNat 0 2)
  | .vfma t vd va vb k => some (wordV 24 vd.toNat va.toNat vb.toNat k.toNat t.toNat 0 3)
  | .vfms t vd va vb k => some (wordV 24 vd.toNat va.toNat vb.toNat k.toNat t.toNat 0 4)
  | .vmin t vd va vb k => some (wordV 24 vd.toNat va.toNat vb.toNat k.toNat t.toNat 0 5)
  | .vmax t vd va vb k => some (wordV 24 vd.toNat va.toNat vb.toNat k.toNat t.toNat 0 6)
  | .vabs t vd va k => some (wordV 24 vd.toNat va.toNat 0 k.toNat t.toNat 0 7)
  | .vneg t vd va k => some (wordV 24 vd.toNat va.toNat 0 k.toNat t.toNat 0 8)
  | .vsqrt t vd va k => some (wordV 24 vd.toNat va.toNat 0 k.toNat t.toNat 0 9)
  | .vrcp t vd va k => some (wordV 24 vd.toNat va.toNat 0 k.toNat t.toNat 0 10)
  | .vrsq t vd va k => some (wordV 24 vd.toNat va.toNat 0 k.toNat t.toNat 0 11)
  | .vexp2 t vd va k => some (wordV 24 vd.toNat va.toNat 0 k.toNat t.toNat 0 12)
  | .vscl t vd va vb k => some (wordV 24 vd.toNat va.toNat vb.toNat k.toNat t.toNat 0 13)
  | .vcmp cond t kd va vb k => some (wordV 25 kd.toNat va.toNat vb.toNat k.toNat t.toNat cond.toNat 0)
  | .vsel t vd va vb k => some (wordV 25 vd.toNat va.toNat vb.toNat k.toNat t.toNat 0 1)
  | .vshuf t vd va vb k => some (wordV 25 vd.toNat va.toNat vb.toNat k.toNat t.toNat 0 2)
  | .vslide t vd va vb k => some (wordV 25 vd.toNat va.toNat vb.toNat k.toNat t.toNat 0 3)
  | .vredsum t vd va k => some (wordV 25 vd.toNat va.toNat 0 k.toNat t.toNat 0 4)
  | .vredmax t vd va k => some (wordV 25 vd.toNat va.toNat 0 k.toNat t.toNat 0 5)
  | .vredmin t vd va k => some (wordV 25 vd.toNat va.toNat 0 k.toNat t.toNat 0 6)
  | .vcvt mode t src vd va k => some (wordV 25 vd.toNat va.toNat src.toNat k.toNat t.toNat mode.toNat 7)
  | .kand kd ka kb => some (wordV 25 kd.toNat ka.toNat kb.toNat 0 0 0 8)
  | .kor kd ka kb => some (wordV 25 kd.toNat ka.toNat kb.toNat 0 0 0 9)
  | .knot kd ka => some (wordV 25 kd.toNat ka.toNat 0 0 0 0 10)
  | .kmov kd ka => some (wordV 25 kd.toNat ka.toNat 0 0 0 0 11)
  | .vbcast vd a m => some (wordE 26 vd.toNat a.toNat 0 m.toNat 0)
  | .vget d va b m => some (wordE 26 d.toNat va.toNat b.toNat m.toNat 1)
  | .vput vd a b m => some (wordE 26 vd.toNat a.toNat b.toNat m.toNat 2)
  | .kget d ka w => some (wordE 26 d.toNat ka.toNat 0 w.toNat 3)
  | .kset kd a w => some (wordE 26 kd.toNat a.toNat 0 w.toNat 4)
  | .mma d a m => some (wordE 27 d.toNat a.toNat 0 m.toNat 0)
  | .mmarb d a m => some (wordE 27 d.toNat a.toNat 0 m.toNat 1)
  | .mmacn d a m => some (wordE 27 d.toNat a.toNat 0 m.toNat 2)
  | .mbld a l => some (wordE 27 0 a.toNat 0 l.toNat 3)
  | .mbpass l => some (wordE 27 0 0 0 l.toNat 4)
  | .mzero d => some (wordE 27 d.toNat 0 0 0 5)
  | .mfmt a => some (wordE 27 0 a.toNat 0 0 6)
  | .mfmtq a => some (wordE 27 0 a.toNat 0 0 7)
  | .put vd a b => some (wordE 28 vd.toNat a.toNat b.toNat 0 0)
  | .putg vd a b => some (wordE 28 vd.toNat a.toNat b.toNat 0 1)
  | .read mode vd a b => some (wordE 28 vd.toNat a.toNat b.toNat mode.toNat 2)
  | .take mode vd a b => some (wordE 28 vd.toNat a.toNat b.toNat mode.toNat 3)
  | .tcancel d b => some (wordE 28 d.toNat 0 b.toNat 0 4)
  | .halldefDefine d a b => some (wordE 29 d.toNat a.toNat b.toNat 0 0)
  | .halldefRetire d a b => some (wordE 29 d.toNat a.toNat b.toNat 0 0)
  | .hallq d a b => some (wordE 29 d.toNat a.toNat b.toNat 0 1)
  | .split d a => some (wordE 29 d.toNat a.toNat 0 0 2)
  | .splst d a => some (wordE 29 d.toNat a.toNat 0 0 3)
  | .skset n a => some (wordE 30 0 a.toNat 0 n.toNat 0)
  | .skupd n d va vb => some (wordE 30 d.toNat va.toNat vb.toNat n.toNat 1)
  | .skqry n vd va => some (wordE 30 vd.toNat va.toNat 0 n.toNat 2)
  | .skadd n d a => some (wordE 30 d.toNat a.toNat 0 n.toNat 3)
  | .skclr n => some (wordE 30 0 0 0 n.toNat 4)
  | .freeze => some (wordE 31 0 0 0 0 0)
  | .nest a b => some (wordE 31 0 a.toNat b.toNat 0 1)
  | .njoin => some (wordE 31 0 0 0 0 2)
  | .tstw d a => some (wordE 31 d.toNat a.toNat 0 0 3)
  | .tstv vd a => some (wordE 31 vd.toNat a.toNat 0 0 4)
  | .finfo d n => some (wordE 31 d.toNat 0 0 n.toNat 5)
  | .msg d a b => some (wordE 32 d.toNat a.toNat b.toNat 0 0)
  | .rput a b => some (wordE 32 0 a.toNat b.toNat 0 1)
  | .rputv vd a => some (wordE 32 vd.toNat a.toNat 0 0 2)
  | .empty d => some (wordE 32 d.toNat 0 0 0 3)
  | .emptyv vd => some (wordE 32 vd.toNat 0 0 0 4)
  | .testp d x => some (wordE 32 d.toNat x.toNat 0 0 5)
  | .testpVector d x => some (wordE 32 d.toNat x.toNat 0 1 5)
  | .wfm d => some (wordE 32 d.toNat 0 0 0 6)
  | .landa a => some (wordE 33 0 a.toNat 0 0 0)
  | .landw a => some (wordE 33 0 a.toNat 0 0 1)
  | .landaw a => some (wordE 33 0 a.toNat 0 0 2)
  | .landq d a => some (wordE 33 d.toNat a.toNat 0 0 3)
  | .cgput a b => some (wordE 34 0 a.toNat b.toNat 0 0)
  | .cgputv a vb => some (wordE 34 0 a.toNat vb.toNat 0 1)
  | .cgget d a => some (wordE 34 d.toNat a.toNat 0 0 2)
  | .cggetv vd a => some (wordE 34 vd.toNat a.toNat 0 0 3)
  | .cgset a b => some (wordE 34 0 a.toNat b.toNat 0 4)
  | .spawn a => some (wordE 35 0 a.toNat 0 0 0)
  | .dec a b => some (wordE 35 0 a.toNat b.toNat 0 1)
  | .decEvent seg a b => some (wordE 35 0 a.toNat b.toNat seg.toNat 1)
  | .exit => some (wordE 35 0 0 0 0 2)
  | .yield => some (wordE 35 0 0 0 0 3)
  | .hsift a b => some (wordE 36 0 a.toNat b.toNat 0 0)
  | .remapwAppend a b => some (wordE 36 0 a.toNat b.toNat 0 1)
  | .remapwRelease a b => some (wordE 36 0 a.toNat b.toNat 0 1)
  | .remapwClose a b => some (wordE 36 0 a.toNat b.toNat 0 1)
  | .remapcPool a b => some (wordE 36 0 a.toNat b.toNat 0 2)
  | .remapcDefine a b => some (wordE 36 0 a.toNat b.toNat 0 2)
  | .remapcReset a b => some (wordE 36 0 a.toNat b.toNat 0 2)
  | .sysrd d n => some (wordN 37 d.toNat n.toNat 0)
  | .syswr d n => some (wordN 37 d.toNat n.toNat 1)
  | .sysset d n => some (wordN 37 d.toNat n.toNat 2)
  | .sysclr d n => some (wordN 37 d.toNat n.toNat 3)
  | .ecall => some (wordE 37 0 0 0 0 4)
  | .brk => some (wordE 37 0 0 0 0 5)
  | .tret => some (wordE 37 0 0 0 0 6)
  | .halt => some (wordE 37 0 0 0 0 7)
  | .segld sg a => some (wordE 37 sg.toNat a.toNat 0 0 8)
  | .segrd d sg w => some (wordE 37 d.toNat sg.toNat 0 w.toNat 9)
  | .registerWrite _ _ _ _ => none
  | .slotclsWrite _ _ => none
  | .runctlWrite _ _ => none
  | .shpoolWrite _ _ => none
  | .lcsplitWrite _ _ => none
  | .lcsplitChangeDone _ => none
  | .mvtbaseWrite _ _ => none
  | .vpoolWrite _ _ => none
  | .cycleLowRead _ => none
  | .stagingWrite _ _ _ => none
  | .ldoor _ _ _ => none
  | .stagingCaptureDone _ _ => none
  | .cpop _ _ => none
  | .windowWrite _ _ _ => none
  | .windowRead _ _ _ => none
  | .smaskWrite _ _ => none
  | .partitionDescriptorWrite _ _ _ => none
  | .keySlotWrite _ _ => none
  | .keyMaterialReady _ => none
  | .getVersion => none
  | .getCapabilities => none
  | .negotiateAlgorithms _ => none
  | .getDigests => none
  | .getCertificate _ _ _ => none
  | .challenge _ => none
  | .getMeasurements _ _ => none
  | .keyExchange _ => none
  | .spdmFinish _ => none
  | .keyUpdate => none
  | .heartbeat => none
  | .endSession => none
  | .chunkSend _ _ => none
  | .chunkGet _ => none
  | .ideKm _ => none
  | .lockInterfaceRequest _ => none
  | .startInterfaceRequest _ => none
  | .stopInterfaceRequest _ => none
  | .ideIntegrityFailure _ => none
  | .vfFunctionLevelReset _ => none
  | .firmwareImage _ _ _ _ => none
  | .launchAdmit _ => none
  | .decMessage _ => none
  | .errorToken _ => none
  | .wakeMessage _ => none
  | .composingThreadStart _ => none
  | .formeCopyReceived _ _ => none
  | .stampItem _ _ => none
  | .preempt _ => none
  | .imageSaveDone _ => none
  | .resume _ _ => none
  | .watchdogExpiry _ => none
  | .taskCompletion _ => none
  | .formeRelease _ _ => none
  | .nestedFormeRelease _ _ => none
  | .messageArrival _ => none
  | .handlerThreadStart _ _ => none
  | .remoteFill _ => none
  | .remoteAccessArrival _ => none
  | .syncRequestArrival _ => none
  | .accessReply _ => none
  | .acknowledgement _ => none
  | .walkComplete _ _ => none
  | .fbpopRead _ => none
  | .fbstatDropClear _ => none
  | .replayAll _ => none
  | .invalVa _ => none
  | .invalAll _ => none
  | .domainConfigStage _ _ _ => none
  | .scmdWb _ => none
  | .scmdWbDone _ => none
  | .domswGo => none
  | .domainSwitchDone => none
  | .hotnessHalving => none
  | .migrationStart _ _ _ => none
  | .migrationFlip _ _ => none
  | .copyComplete _ => none
  | .nearMemoryComplete _ => none
  | .skupdComplete _ => none
  | .counterWatchMet _ => none
  | .triggerFire _ => none
  | .scWindowClose => none
  | .matrixOpStart _ => none
  | .matrixOpComplete _ => none
  | .handoffLand _ => none
  | .galleryPutArrival _ => none
  | .galleryMatchRequest _ => none
  | .galleryCancelArrival _ => none
  | .putAnswer _ => none
  | .retryReissue _ => none
  | .redirectReissue _ => none
  | .rangeEntryAck _ _ => none
  | .splitFlip _ => none
  | .splitDrain _ => none
  | .splitDone _ => none
  | .landingArrival _ => none
  | .landingAck _ => none
  | .landingFlipSeen _ => none
  | .lownWrite _ _ => none
  | .lcfgWrite _ _ _ => none
  | .collectiveArrival _ => none
  | .collectiveResult _ => none
  | .packetDelivery _ => none
  | .transportGiveUp _ => none
  | .functionFence _ _ _ => none
  | .deferredFencedTrap _ => none
  | .debugRelease _ _ => none
  | .powerOnReset => none
  | .packageReset => none
  | .debugReset _ => none
  | .lifeCycleChange _ _ => none
  | .wipeComplete _ => none
  | .powerRemoved => none
  | .thrRise _ _ => none
  | .thrFall _ _ => none
  | .thermalTrip _ => none
  | .thermalOff => none
  | .msiXVectorUnmask _ _ => none
  | .poolModuleFailure _ => none
  | .bouncedRequestReissue _ => none
  | .mirroredChange _ => none
  | .sourceHomeNotice _ => none
  | .rankCompletionReport _ => none

/-- The function values of major opcode 0x01 (02 R34-R36). -/
def parse01 (w : Nat) : Except Reject Instr :=
  match fld w 26 6 with
  | 0 => .ok (.add (bits w 6 5) (bits w 11 5) (bits w 16 5))
  | 1 => .ok (.sub (bits w 6 5) (bits w 11 5) (bits w 16 5))
  | 2 => .ok (.and (bits w 6 5) (bits w 11 5) (bits w 16 5))
  | 3 => .ok (.or (bits w 6 5) (bits w 11 5) (bits w 16 5))
  | 4 => .ok (.xor (bits w 6 5) (bits w 11 5) (bits w 16 5))
  | 5 => .ok (.andn (bits w 6 5) (bits w 11 5) (bits w 16 5))
  | 6 => .ok (.orn (bits w 6 5) (bits w 11 5) (bits w 16 5))
  | 7 => .ok (.xnor (bits w 6 5) (bits w 11 5) (bits w 16 5))
  | 8 => .ok (.sll (bits w 6 5) (bits w 11 5) (bits w 16 5))
  | 9 => .ok (.srl (bits w 6 5) (bits w 11 5) (bits w 16 5))
  | 10 => .ok (.sra (bits w 6 5) (bits w 11 5) (bits w 16 5))
  | 11 => .ok (.rol (bits w 6 5) (bits w 11 5) (bits w 16 5))
  | 12 => .ok (.ror (bits w 6 5) (bits w 11 5) (bits w 16 5))
  | 13 => .ok (.slt (bits w 6 5) (bits w 11 5) (bits w 16 5))
  | 14 => .ok (.sltu (bits w 6 5) (bits w 11 5) (bits w 16 5))
  | 15 => .ok (.min (bits w 6 5) (bits w 11 5) (bits w 16 5))
  | 16 => .ok (.max (bits w 6 5) (bits w 11 5) (bits w 16 5))
  | 17 => .ok (.minu (bits w 6 5) (bits w 11 5) (bits w 16 5))
  | 18 => .ok (.maxu (bits w 6 5) (bits w 11 5) (bits w 16 5))
  | 19 => .ok (.mul (bits w 6 5) (bits w 11 5) (bits w 16 5))
  | 20 => .ok (.mulh (bits w 6 5) (bits w 11 5) (bits w 16 5))
  | 21 => .ok (.mulhu (bits w 6 5) (bits w 11 5) (bits w 16 5))
  | 22 => .ok (.mulhsu (bits w 6 5) (bits w 11 5) (bits w 16 5))
  | 23 => .ok (.div (bits w 6 5) (bits w 11 5) (bits w 16 5))
  | 24 => .ok (.divu (bits w 6 5) (bits w 11 5) (bits w 16 5))
  | 25 => .ok (.rem (bits w 6 5) (bits w 11 5) (bits w 16 5))
  | 26 => .ok (.remu (bits w 6 5) (bits w 11 5) (bits w 16 5))
  | 27 => .ok (.clz (bits w 6 5) (bits w 11 5))
  | 28 => .ok (.ctz (bits w 6 5) (bits w 11 5))
  | 29 => .ok (.popc (bits w 6 5) (bits w 11 5))
  | 30 => .ok (.sextb (bits w 6 5) (bits w 11 5))
  | 31 => .ok (.sexth (bits w 6 5) (bits w 11 5))
  | 32 => .ok (.zexth (bits w 6 5) (bits w 11 5))
  | 33 => .ok (.bswap (bits w 6 5) (bits w 11 5))
  | _ => .error .function

/-- The function values of major opcode 0x08 (02 R34-R36). -/
def parse08 (w : Nat) : Except Reject Instr :=
  match fld w 26 6 with
  | 0 => .ok (.slli (bits w 6 5) (bits w 11 5) (bits w 16 5))
  | 1 => .ok (.srli (bits w 6 5) (bits w 11 5) (bits w 16 5))
  | 2 => .ok (.srai (bits w 6 5) (bits w 11 5) (bits w 16 5))
  | _ => .error .shiftSelector

/-- The function values of major opcode 0x0D (02 R34-R36). -/
def parse0D (w : Nat) : Except Reject Instr :=
  match fld w 16 3 with
  | 0 => .ok (.beq (bits w 6 5) (bits w 11 5) (bits w 19 13))
  | 1 => .ok (.bne (bits w 6 5) (bits w 11 5) (bits w 19 13))
  | 2 => .ok (.blt (bits w 6 5) (bits w 11 5) (bits w 19 13))
  | 3 => .ok (.bge (bits w 6 5) (bits w 11 5) (bits w 19 13))
  | 4 => .ok (.bltu (bits w 6 5) (bits w 11 5) (bits w 19 13))
  | 5 => .ok (.bgeu (bits w 6 5) (bits w 11 5) (bits w 19 13))
  | _ => .error .condition

/-- The function values of major opcode 0x0E (02 R34-R36). -/
def parse0E (w : Nat) : Except Reject Instr :=
  match fld w 19 3 with
  | 0 => .ok (.ldb (bits w 6 5) (bits w 11 5) (bits w 16 3) (bits w 22 10))
  | 4 => .ok (.ldbu (bits w 6 5) (bits w 11 5) (bits w 16 3) (bits w 22 10))
  | 1 => .ok (.ldh (bits w 6 5) (bits w 11 5) (bits w 16 3) (bits w 22 10))
  | 5 => .ok (.ldhu (bits w 6 5) (bits w 11 5) (bits w 16 3) (bits w 22 10))
  | 2 => .ok (.ldw (bits w 6 5) (bits w 11 5) (bits w 16 3) (bits w 22 10))
  | _ => .error .size

/-- The function values of major opcode 0x0F (02 R34-R36). -/
def parse0F (w : Nat) : Except Reject Instr :=
  match fld w 19 3 with
  | 0 => .ok (.stb (bits w 6 5) (bits w 11 5) (bits w 16 3) (bits w 22 10))
  | 1 => .ok (.sth (bits w 6 5) (bits w 11 5) (bits w 16 3) (bits w 22 10))
  | 2 => .ok (.stw (bits w 6 5) (bits w 11 5) (bits w 16 3) (bits w 22 10))
  | _ => .error .size

/-- The function values of major opcode 0x10 (02 R34-R36). -/
def parse10 (w : Nat) : Except Reject Instr :=
  match fld w 19 3 with
  | 0 => .ok (.ldfe (bits w 6 5) (bits w 11 5) (bits w 16 3) (bits w 22 10))
  | 1 => .ok (.ldff (bits w 6 5) (bits w 11 5) (bits w 16 3) (bits w 22 10))
  | 2 => .ok (.stfe (bits w 6 5) (bits w 11 5) (bits w 16 3) (bits w 22 10))
  | 3 => .ok (.stff (bits w 6 5) (bits w 11 5) (bits w 16 3) (bits w 22 10))
  | _ => .error .unsignedFlag

/-- The function values of major opcode 0x11 (02 R34-R36). -/
def parse11 (w : Nat) : Except Reject Instr :=
  match fld w 24 4 with
  | 0 => .ok (.amoadd (bits w 28 3) (bits w 6 5) (bits w 11 5) (bits w 21 3) (bits w 16 5))
  | 1 => .ok (.amoswap (bits w 28 3) (bits w 6 5) (bits w 11 5) (bits w 21 3) (bits w 16 5))
  | 2 => .ok (.amocas (bits w 28 3) (bits w 6 5) (bits w 11 5) (bits w 21 3) (bits w 16 5))
  | 3 => .ok (.amoand (bits w 28 3) (bits w 6 5) (bits w 11 5) (bits w 21 3) (bits w 16 5))
  | 4 => .ok (.amoor (bits w 28 3) (bits w 6 5) (bits w 11 5) (bits w 21 3) (bits w 16 5))
  | 5 => .ok (.amoxor (bits w 28 3) (bits w 6 5) (bits w 11 5) (bits w 21 3) (bits w 16 5))
  | 6 => .ok (.amomin (bits w 28 3) (bits w 6 5) (bits w 11 5) (bits w 21 3) (bits w 16 5))
  | 7 => .ok (.amomax (bits w 28 3) (bits w 6 5) (bits w 11 5) (bits w 21 3) (bits w 16 5))
  | 8 => .ok (.amominu (bits w 28 3) (bits w 6 5) (bits w 11 5) (bits w 21 3) (bits w 16 5))
  | 9 => .ok (.amomaxu (bits w 28 3) (bits w 6 5) (bits w 11 5) (bits w 21 3) (bits w 16 5))
  | _ => .error .operator

/-- The function values of major opcode 0x12 (02 R34-R36). -/
def parse12 (w : Nat) : Except Reject Instr :=
  match fld w 24 8 with
  | 0 => .ok (.fence (bits w 6 5) (bits w 21 3))
  | 1 => .ok (.drain)
  | 2 => .ok (.feclr (bits w 21 3) (bits w 11 5) (bits w 16 5))
  | 3 => .ok (.trig (bits w 6 5) (bits w 21 3) (bits w 11 5) (bits w 16 5))
  | 4 => .ok (.waitc (bits w 6 5) (bits w 21 3) (bits w 11 5) (bits w 16 5))
  | 5 => .ok (.ncmp (bits w 6 5) (bits w 21 3) (bits w 11 5) (bits w 16 5))
  | 6 => .ok (.nred (bits w 6 5) (bits w 21 3) (bits w 11 5) (bits w 16 5))
  | _ => .error .function

/-- The function values of major opcode 0x13 (02 R34-R36). -/
def parse13 (w : Nat) : Except Reject Instr :=
  match fld w 24 8 with
  | 0 => .ok (.cpy (bits w 21 3) (bits w 6 5) (bits w 11 5) (bits w 16 5))
  | 1 => .ok (.cpyg (bits w 21 3) (bits w 6 5) (bits w 11 5) (bits w 16 5))
  | 2 => .ok (.cpys (bits w 21 3) (bits w 6 5) (bits w 11 5) (bits w 16 5))
  | 3 => .ok (.cpyf (bits w 21 3) (bits w 6 5) (bits w 11 5) (bits w 16 5))
  | _ => .error .function

/-- The function values of major opcode 0x14 (02 R34-R36). -/
def parse14 (w : Nat) : Except Reject Instr :=
  match fld w 24 8 with
  | 0 => .ok (.wtany (bits w 6 5) (bits w 11 5))
  | 1 => .ok (.wtall (bits w 11 5))
  | 2 => .ok (.tfirst (bits w 6 5) (bits w 11 5))
  | 3 => .ok (.tclr (bits w 11 5))
  | 4 => .ok (.tstat (bits w 6 5) (bits w 11 5))
  | _ => .error .function

/-- The function values of major opcode 0x15 (02 R34-R36). -/
def parse15 (w : Nat) : Except Reject Instr :=
  match fld w 26 2 with
  | 0 => .ok (.vld (bits w 6 4) (bits w 15 3) (bits w 10 5) (bits w 28 4) (bits w 18 3))
  | 1 => .ok (.vlds (bits w 6 4) (bits w 15 3) (bits w 10 5) (bits w 28 4) (bits w 21 5) (bits w 18 3))
  | 2 => .ok (.vldx (bits w 6 4) (bits w 15 3) (bits w 10 5) (bits w 28 4) (bits w 21 4) (bits w 18 3))
  | _ => .error .mode

/-- The function values of major opcode 0x16 (02 R34-R36). -/
def parse16 (w : Nat) : Except Reject Instr :=
  match fld w 26 2 with
  | 0 => .ok (.vst (bits w 6 4) (bits w 15 3) (bits w 10 5) (bits w 28 4) (bits w 18 3))
  | 1 => .ok (.vsts (bits w 6 4) (bits w 15 3) (bits w 10 5) (bits w 28 4) (bits w 21 5) (bits w 18 3))
  | 2 => .ok (.vstx (bits w 6 4) (bits w 15 3) (bits w 10 5) (bits w 28 4) (bits w 21 4) (bits w 18 3))
  | _ => .error .mode

/-- The function values of major opcode 0x17 (02 R34-R36). -/
def parse17 (w : Nat) : Except Reject Instr :=
  match fld w 26 6 with
  | 0 => .ok (.viadd (bits w 21 3) (bits w 6 4) (bits w 10 4) (bits w 14 4) (bits w 18 3))
  | 1 => .ok (.visub (bits w 21 3) (bits w 6 4) (bits w 10 4) (bits w 14 4) (bits w 18 3))
  | 2 => .ok (.vimul (bits w 21 3) (bits w 6 4) (bits w 10 4) (bits w 14 4) (bits w 18 3))
  | 3 => .ok (.vimin (bits w 21 3) (bits w 6 4) (bits w 10 4) (bits w 14 4) (bits w 18 3))
  | 4 => .ok (.vimax (bits w 21 3) (bits w 6 4) (bits w 10 4) (bits w 14 4) (bits w 18 3))
  | 5 => .ok (.viand (bits w 21 3) (bits w 6 4) (bits w 10 4) (bits w 14 4) (bits w 18 3))
  | 6 => .ok (.vior (bits w 21 3) (bits w 6 4) (bits w 10 4) (bits w 14 4) (bits w 18 3))
  | 7 => .ok (.vixor (bits w 21 3) (bits w 6 4) (bits w 10 4) (bits w 14 4) (bits w 18 3))
  | 8 => .ok (.visll (bits w 21 3) (bits w 6 4) (bits w 10 4) (bits w 14 4) (bits w 18 3))
  | 9 => .ok (.visrl (bits w 21 3) (bits w 6 4) (bits w 10 4) (bits w 14 4) (bits w 18 3))
  | 10 => .ok (.visra (bits w 21 3) (bits w 6 4) (bits w 10 4) (bits w 14 4) (bits w 18 3))
  | 11 => .ok (.viabs (bits w 21 3) (bits w 6 4) (bits w 10 4) (bits w 18 3))
  | _ => .error .function

/-- The function values of major opcode 0x18 (02 R34-R36). -/
def parse18 (w : Nat) : Except Reject Instr :=
  match fld w 26 6 with
  | 0 => .ok (.vadd (bits w 21 3) (bits w 6 4) (bits w 10 4) (bits w 14 4) (bits w 18 3))
  | 1 => .ok (.vsub (bits w 21 3) (bits w 6 4) (bits w 10 4) (bits w 14 4) (bits w 18 3))
  | 2 => .ok (.vmul (bits w 21 3) (bits w 6 4) (bits w 10 4) (bits w 14 4) (bits w 18 3))
  | 3 => .ok (.vfma (bits w 21 3) (bits w 6 4) (bits w 10 4) (bits w 14 4) (bits w 18 3))
  | 4 => .ok (.vfms (bits w 21 3) (bits w 6 4) (bits w 10 4) (bits w 14 4) (bits w 18 3))
  | 5 => .ok (.vmin (bits w 21 3) (bits w 6 4) (bits w 10 4) (bits w 14 4) (bits w 18 3))
  | 6 => .ok (.vmax (bits w 21 3) (bits w 6 4) (bits w 10 4) (bits w 14 4) (bits w 18 3))
  | 7 => .ok (.vabs (bits w 21 3) (bits w 6 4) (bits w 10 4) (bits w 18 3))
  | 8 => .ok (.vneg (bits w 21 3) (bits w 6 4) (bits w 10 4) (bits w 18 3))
  | 9 => .ok (.vsqrt (bits w 21 3) (bits w 6 4) (bits w 10 4) (bits w 18 3))
  | 10 => .ok (.vrcp (bits w 21 3) (bits w 6 4) (bits w 10 4) (bits w 18 3))
  | 11 => .ok (.vrsq (bits w 21 3) (bits w 6 4) (bits w 10 4) (bits w 18 3))
  | 12 => .ok (.vexp2 (bits w 21 3) (bits w 6 4) (bits w 10 4) (bits w 18 3))
  | 13 => .ok (.vscl (bits w 21 3) (bits w 6 4) (bits w 10 4) (bits w 14 4) (bits w 18 3))
  | _ => .error .function

/-- The function values of major opcode 0x19 (02 R34-R36). -/
def parse19 (w : Nat) : Except Reject Instr :=
  match fld w 26 6 with
  | 0 => .ok (.vcmp (bits w 24 2) (bits w 21 3) (bits w 6 3) (bits w 10 4) (bits w 14 4) (bits w 18 3))
  | 1 => .ok (.vsel (bits w 21 3) (bits w 6 4) (bits w 10 4) (bits w 14 4) (bits w 18 3))
  | 2 => .ok (.vshuf (bits w 21 3) (bits w 6 4) (bits w 10 4) (bits w 14 4) (bits w 18 3))
  | 3 => .ok (.vslide (bits w 21 3) (bits w 6 4) (bits w 10 4) (bits w 14 4) (bits w 18 3))
  | 4 => .ok (.vredsum (bits w 21 3) (bits w 6 4) (bits w 10 4) (bits w 18 3))
  | 5 => .ok (.vredmax (bits w 21 3) (bits w 6 4) (bits w 10 4) (bits w 18 3))
  | 6 => .ok (.vredmin (bits w 21 3) (bits w 6 4) (bits w 10 4) (bits w 18 3))
  | 7 => .ok (.vcvt (bits w 24 2) (bits w 21 3) (bits w 14 4) (bits w 6 4) (bits w 10 4) (bits w 18 3))
  | 8 => .ok (.kand (bits w 6 3) (bits w 10 3) (bits w 14 3))
  | 9 => .ok (.kor (bits w 6 3) (bits w 10 3) (bits w 14 3))
  | 10 => .ok (.knot (bits w 6 3) (bits w 10 3))
  | 11 => .ok (.kmov (bits w 6 3) (bits w 10 3))
  | _ => .error .function

/-- The function values of major opcode 0x1A (02 R34-R36). -/
def parse1A (w : Nat) : Except Reject Instr :=
  match fld w 24 8 with
  | 0 => .ok (.vbcast (bits w 6 4) (bits w 11 5) (bits w 21 3))
  | 1 => .ok (.vget (bits w 6 5) (bits w 11 4) (bits w 16 5) (bits w 21 3))
  | 2 => .ok (.vput (bits w 6 4) (bits w 11 5) (bits w 16 5) (bits w 21 3))
  | 3 => .ok (.kget (bits w 6 5) (bits w 11 3) (bits w 21 3))
  | 4 => .ok (.kset (bits w 6 3) (bits w 11 5) (bits w 21 3))
  | _ => .error .function

/-- The function values of major opcode 0x1B (02 R34-R36). -/
def parse1B (w : Nat) : Except Reject Instr :=
  match fld w 24 8 with
  | 0 => .ok (.mma (bits w 6 5) (bits w 11 5) (bits w 21 3))
  | 1 => .ok (.mmarb (bits w 6 5) (bits w 11 5) (bits w 21 3))
  | 2 => .ok (.mmacn (bits w 6 5) (bits w 11 5) (bits w 21 3))
  | 3 => .ok (.mbld (bits w 11 5) (bits w 21 3))
  | 4 => .ok (.mbpass (bits w 21 3))
  | 5 => .ok (.mzero (bits w 6 5))
  | 6 => .ok (.mfmt (bits w 11 5))
  | 7 => .ok (.mfmtq (bits w 11 5))
  | _ => .error .function

/-- The function values of major opcode 0x1C (02 R34-R36). -/
def parse1C (w : Nat) : Except Reject Instr :=
  match fld w 24 8 with
  | 0 => .ok (.put (bits w 6 4) (bits w 11 5) (bits w 16 5))
  | 1 => .ok (.putg (bits w 6 4) (bits w 11 5) (bits w 16 5))
  | 2 => .ok (.read (bits w 21 3) (bits w 6 4) (bits w 11 5) (bits w 16 5))
  | 3 => .ok (.take (bits w 21 3) (bits w 6 4) (bits w 11 5) (bits w 16 5))
  | 4 => .ok (.tcancel (bits w 6 5) (bits w 16 5))
  | _ => .error .function

/-- The function values of major opcode 0x1D (02 R34-R36). -/
def parse1D (w : Nat) : Except Reject Instr :=
  match fld w 24 8 with
  | 0 => .ok (.halldefDefine (bits w 6 5) (bits w 11 5) (bits w 16 5))
  | 1 => .ok (.hallq (bits w 6 5) (bits w 11 5) (bits w 16 5))
  | 2 => .ok (.split (bits w 6 5) (bits w 11 5))
  | 3 => .ok (.splst (bits w 6 5) (bits w 11 5))
  | _ => .error .function

/-- The function values of major opcode 0x1E (02 R34-R36). -/
def parse1E (w : Nat) : Except Reject Instr :=
  match fld w 24 8 with
  | 0 => .ok (.skset (bits w 21 3) (bits w 11 5))
  | 1 => .ok (.skupd (bits w 21 3) (bits w 6 5) (bits w 11 4) (bits w 16 4))
  | 2 => .ok (.skqry (bits w 21 3) (bits w 6 4) (bits w 11 4))
  | 3 => .ok (.skadd (bits w 21 3) (bits w 6 5) (bits w 11 5))
  | 4 => .ok (.skclr (bits w 21 3))
  | _ => .error .function

/-- The function values of major opcode 0x1F (02 R34-R36). -/
def parse1F (w : Nat) : Except Reject Instr :=
  match fld w 24 8 with
  | 0 => .ok (.freeze)
  | 1 => .ok (.nest (bits w 11 5) (bits w 16 5))
  | 2 => .ok (.njoin)
  | 3 => .ok (.tstw (bits w 6 5) (bits w 11 5))
  | 4 => .ok (.tstv (bits w 6 4) (bits w 11 5))
  | 5 => .ok (.finfo (bits w 6 5) (bits w 21 3))
  | _ => .error .function

/-- The function values of major opcode 0x20 (02 R34-R36). -/
def parse20 (w : Nat) : Except Reject Instr :=
  match fld w 24 8 with
  | 0 => .ok (.msg (bits w 6 5) (bits w 11 5) (bits w 16 5))
  | 1 => .ok (.rput (bits w 11 5) (bits w 16 5))
  | 2 => .ok (.rputv (bits w 6 4) (bits w 11 5))
  | 3 => .ok (.empty (bits w 6 5))
  | 4 => .ok (.emptyv (bits w 6 4))
  | 5 =>
    match fld w 21 3 with
    | 0 => .ok (.testp (bits w 6 5) (bits w 11 5))
    | 1 => .ok (.testpVector (bits w 6 5) (bits w 11 4))
    | _ => .error .value
  | 6 => .ok (.wfm (bits w 6 5))
  | _ => .error .function

/-- The function values of major opcode 0x21 (02 R34-R36). -/
def parse21 (w : Nat) : Except Reject Instr :=
  match fld w 24 8 with
  | 0 => .ok (.landa (bits w 11 5))
  | 1 => .ok (.landw (bits w 11 5))
  | 2 => .ok (.landaw (bits w 11 5))
  | 3 => .ok (.landq (bits w 6 5) (bits w 11 5))
  | _ => .error .function

/-- The function values of major opcode 0x22 (02 R34-R36). -/
def parse22 (w : Nat) : Except Reject Instr :=
  match fld w 24 8 with
  | 0 => .ok (.cgput (bits w 11 5) (bits w 16 5))
  | 1 => .ok (.cgputv (bits w 11 5) (bits w 16 4))
  | 2 => .ok (.cgget (bits w 6 5) (bits w 11 5))
  | 3 => .ok (.cggetv (bits w 6 4) (bits w 11 5))
  | 4 => .ok (.cgset (bits w 11 5) (bits w 16 5))
  | _ => .error .function

/-- The function values of major opcode 0x23 (02 R34-R36). -/
def parse23 (w : Nat) : Except Reject Instr :=
  match fld w 24 8 with
  | 0 => .ok (.spawn (bits w 11 5))
  | 1 => if fld w 21 3 = 0 then .ok (.dec (bits w 11 5) (bits w 16 5)) else .ok (.decEvent (bits w 21 3) (bits w 11 5) (bits w 16 5))
  | 2 => .ok (.exit)
  | 3 => .ok (.yield)
  | _ => .error .function

/-- The function values of major opcode 0x24 (02 R34-R36). -/
def parse24 (w : Nat) : Except Reject Instr :=
  match fld w 24 8 with
  | 0 => .ok (.hsift (bits w 11 5) (bits w 16 5))
  | 1 => .ok (.remapwAppend (bits w 11 5) (bits w 16 5))
  | 2 => .ok (.remapcPool (bits w 11 5) (bits w 16 5))
  | _ => .error .function

/-- The function values of major opcode 0x25 (02 R34-R36). -/
def parse25 (w : Nat) : Except Reject Instr :=
  match fld w 24 8 with
  | 0 => .ok (.sysrd (bits w 6 5) (bits w 11 12))
  | 1 => .ok (.syswr (bits w 6 5) (bits w 11 12))
  | 2 => .ok (.sysset (bits w 6 5) (bits w 11 12))
  | 3 => .ok (.sysclr (bits w 6 5) (bits w 11 12))
  | 4 => .ok (.ecall)
  | 5 => .ok (.brk)
  | 6 => .ok (.tret)
  | 7 => .ok (.halt)
  | 8 => .ok (.segld (bits w 6 3) (bits w 11 5))
  | 9 => .ok (.segrd (bits w 6 5) (bits w 11 3) (bits w 21 3))
  | _ => .error .function

/-- The instruction a word names when its fixed fields and value limits are left out of account. -/
def parse (w : Nat) : Except Reject Instr :=
  match fld w 0 6 with
  | 1 => parse01 w
  | 2 => .ok (.addi (bits w 6 5) (bits w 11 5) (bits w 16 16))
  | 3 => .ok (.andi (bits w 6 5) (bits w 11 5) (bits w 16 16))
  | 4 => .ok (.ori (bits w 6 5) (bits w 11 5) (bits w 16 16))
  | 5 => .ok (.xori (bits w 6 5) (bits w 11 5) (bits w 16 16))
  | 6 => .ok (.slti (bits w 6 5) (bits w 11 5) (bits w 16 16))
  | 7 => .ok (.sltiu (bits w 6 5) (bits w 11 5) (bits w 16 16))
  | 8 => parse08 w
  | 9 => .ok (.lui (bits w 6 5) (bits w 11 21))
  | 10 => .ok (.adpc (bits w 6 5) (bits w 11 21))
  | 11 => .ok (.jal (bits w 6 5) (bits w 11 21))
  | 12 => .ok (.jalr (bits w 6 5) (bits w 11 5) (bits w 16 16))
  | 13 => parse0D w
  | 14 => parse0E w
  | 15 => parse0F w
  | 16 => parse10 w
  | 17 => parse11 w
  | 18 => parse12 w
  | 19 => parse13 w
  | 20 => parse14 w
  | 21 => parse15 w
  | 22 => parse16 w
  | 23 => parse17 w
  | 24 => parse18 w
  | 25 => parse19 w
  | 26 => parse1A w
  | 27 => parse1B w
  | 28 => parse1C w
  | 29 => parse1D w
  | 30 => parse1E w
  | 31 => parse1F w
  | 32 => parse20 w
  | 33 => parse21 w
  | 34 => parse22 w
  | 35 => parse23 w
  | 36 => parse24 w
  | 37 => parse25 w
  | _ => .error .opcode

/-- R37: a word is an instruction when it is not zero, its function is listed, its values lie within the
limits, and every field that its form leaves out is zero (log 13, DEDUCED). -/
def decodeWord (w : Nat) : Except Reject Instr :=
  if w = 0 then .error .zeroWord
  else match parse w with
    | .error r => .error r
    | .ok i =>
      match i.illFormed with
      | some r => .error r
      | none => if encode i = some w then .ok i else .error .reservedField

/-- A little-endian number from bytes, the first at the lowest address (00 R2). -/
def leNat : List Byte → Nat
  | [] => 0
  | b :: r => b.toNat + 256 * leNat r

/-- The bytes of a number, `n` of them, little-endian. -/
def leBytes : Nat → Nat → List Byte
  | 0, _ => []
  | n + 1, w => BitVec.ofNat 8 w :: leBytes n (w / 256)

/-- Decoding at a place in memory: the first four bytes are the word (02 R32). -/
def decode (bs : List Byte) : Except Reject (Instr × List Byte) :=
  if bs.length < 4 then .error .shortFetch
  else match decodeWord (leNat (bs.take 4)) with
    | .error r => .error r
    | .ok i => .ok (i, bs.drop 4)

/-- What the decoder reads from a row of the opcode table whose bits are `w`. Every instruction is one
word of 32 bits, so bits above `nbits` up to 32 are zero. -/
def decodeTableWord (nbits w : Nat) : Option Instr :=
  match decode (leBytes 4 (w % 2 ^ nbits)) with
  | .ok (i, _) => some i
  | .error _ => none

end Sys2Proof
end

