-- ==== Sys2Proof/Machine/State.lean ====
section
/-!
DEFINITION. State: everything the spec gives the machine, as plain data. The machine is one package.
Rules are cited as R<n>; INVENTORY.md lists every field with its rule and reset value.
-/

namespace Sys2Proof.Machine

open Sys2Proof

/-- A sparse table: values by number, in ascending order, each number at most once. -/
abbrev Tab (α : Type) := List (Nat × α)

/-! ### Names of the part -/

/-- Scopes (R220). -/
inductive Scope where | core | flt | sty | pkg | sys
  deriving DecidableEq, Repr

/-- Page classes (R179). -/
inductive PClass where | stack | pool | host
  deriving DecidableEq, Repr

/-- Kinds of access that the fault buffer tells apart (R183). -/
inductive Access where | read | write | fetch | atomic
  deriving DecidableEq, Repr

/-- Network classes (R326). -/
inductive NetClass where | request | response | gallery | collective
  deriving DecidableEq, Repr

/-- TDI states (R64, R70). -/
inductive Tdi where | unlocked | locked | run | error
  deriving DecidableEq, Repr

/-- Power states (R423). -/
inductive Power where | off | standby | active
  deriving DecidableEq, Repr

/-- Life-cycle states (R420). -/
inductive Life where | manufacture | develop | production | return
  deriving DecidableEq, Repr

/-- Phases of a split (R287, R306). -/
inductive Phase where | copy | flip | drain | done
  deriving DecidableEq, Repr

/-- Modes of READ and TAKE (R296). -/
inductive GMode where | poll | wait | cont
  deriving DecidableEq, Repr

/-- Where the bytes of an access lie once it is translated: a local SRAM offset of a core, a physical
address of a class under a key slot, or a register of the system window (R164). -/
inductive Loc where
  | sram (core off : Nat)
  | phys (cls : PClass) (pa key : Nat)
  | reg (kind unit off : Nat)
  deriving DecidableEq, Repr

/-! ### Threads -/

/-- A segment register (R125, R166). -/
structure Seg where
  base : Addr := 0
  limit : Word := 0
  rights : BitVec 16 := 0
  scope : Scope := .core
  hint : BitVec 2 := 0
  deriving DecidableEq, Repr

/-- The registers of a thread (R125) with presence (R126) and ownership (R105) bits. A register that a
table does not list holds zero. -/
structure Regs where
  s : Tab Word := []
  v : Tab VWord := []
  k : Tab Mask := []
  sFull : BitVec 32 := BitVec.allOnes 32
  vFull : BitVec 16 := BitVec.allOnes 16
  sOwn : BitVec 32 := BitVec.allOnes 32
  vOwn : BitVec 16 := BitVec.allOnes 16
  kOwn : BitVec 8 := BitVec.allOnes 8
  deriving DecidableEq, Repr

/-- The thread system registers (R154). The tags' SET bits, UNACK and CYCLE stand elsewhere. -/
structure TSys where
  astat : Word := 0
  tstatus : Word := 0
  tvec : Word := 0
  tpc : Word := 0
  tcause : Word := 0
  tval : Word := 0
  tvalh : Word := 0
  tscratch : Word := 0
  sdtL : Word := 0
  sdtH : Word := 0
  cycLatch : Word := 0
  deriving DecidableEq, Repr

/-- A tag (R203). -/
structure TagSt where
  set : Bool := false
  inflight : Nat := 0
  err : Bool := false
  shape : Bool := false
  cause : Nat := 0
  recorded : Word := 0
  sys : Bool := false           -- a delivery of a system hall has completed on the tag (R292)
  deriving DecidableEq, Repr

/-- A sketch descriptor (R313) attached to a slot. -/
structure Sketch where
  base : Nat
  depth : Nat
  log2w : Nat
  scale : Int
  salt : Word
  stat : Nat
  deriving DecidableEq, Repr

/-- An arrival record (R334). -/
structure Arrival where
  arr : Bool := false
  gen : Word := 0
  deriving DecidableEq, Repr

/-- A collective record (R341). `ready` is false while PENDING. -/
structure CollRec where
  group : Nat
  vec : Bool
  sys : Bool
  ready : Bool
  result : VWord
  deriving DecidableEq, Repr

/-- What a thread is (R104, R111, R117, R120, R134). -/
inductive ThreadKind where
  /-- the communication thread of slot 0 -/
  | comm
  /-- a handler in a handler slot -/
  | handler
  /-- a thread that a work-class message started, at its priority -/
  | workMsg (prio : Nat)
  /-- the composing thread of a task -/
  | composing (task : Nat)
  /-- an impression: its task, the forme it reads, item, sub-index, depth, and the SLOTID of its parent
  together with the nested forme it came from -/
  | impression (task forme item sub depth : Nat)
  deriving DecidableEq, Repr

/-- The state of a template granule that is not SHARED (R107): its own shadow granule, or one that has
been lent to a nested forme. -/
inductive Gran where
  | owned (g : Nat)
  | lent (g forme : Nat)
  deriving DecidableEq, Repr

/-- What a parked thread waits for (R123). -/
inductive Wait where
  | reg (n : Nat)            -- a scalar register is empty
  | vreg (n : Nat)           -- a vector register is empty
  | room (n : Nat)           -- the send queue bound to s29 or s31 is full
  | unackZero                -- UNACK = 0
  | unackRoom (n : Nat)      -- UNACK with the stores still combined leaves room for n more below 1,024
  | tagRoom (t : Nat)        -- the tag's in-flight count has room
  | tagSet (mask : BitVec 64)   -- a selected tag is SET, or none is in flight
  | tagIdle (mask : BitVec 64)  -- no selected tag is in flight
  | reply (act : Nat)        -- performed; the reply has not been written
  | answer                   -- an answer of another unit
  | page (storey page : Nat) (acc : Access) (va : Nat)  -- the page is being walked or is not present
  | walkRoom (storey : Nat)  -- the miss-pending table is full
  | descPage (storey page : Nat)  -- the page of vector entry 0x3F's descriptor is not present
  | split (core off n : Nat) -- bytes whose role an LCSPLIT change is moving
  | mxRoom                   -- the matrix queue is full
  | latch (n : Nat)          -- MBLD meets a latch in use
  | copyRoom                 -- the copy queue is full
  | watchRoom (l : Loc)      -- the counter's home holds no free watch
  | triggers                 -- 16 triggers are armed
  | flip (landing : Nat)     -- the landing's generation
  | collReady (group : Nat)  -- a collective result
  | join                     -- nested formes
  | taskRoom                 -- 4,096 tasks are admitted
  | quiet                    -- FREEZE and EXIT: UNACK, tags, matrix entries and deliveries
  | deferred                 -- a state that another act ends
  | fillOf (e : BitVec 32)   -- WFM: a fill of an exposed register of the set
  | groupIdle (ne : Bool) (node group : Nat)  -- a partial round at a collective node
  | counter                -- WAITC: the counter's threshold
  | sketchZero             -- SKADD, SKCLR, HALLDEF, REMAPW: UNACK = 0, a state that defers pre-emption (R395)
  deriving DecidableEq, Repr

/-- One thread. -/
structure Thread where
  kind : ThreadKind := .handler
  pc : Word := 0
  regs : Regs := {}
  segs : Tab Seg := []
  sys : TSys := {}
  tags : Tab TagSt := []
  unack : Nat := 0
  park : Option Wait := none
  ans : Option (List Word) := none
  early : Nat := 0
  copying : Nat := 0            -- the cycle at which its template copy faults are over (R108, R395)
  halted : Bool := false
  exiting : Bool := false
  cancelled : Bool := false
  trapActive : Bool := false
  savedSeg : Seg := {}
  fencedTrap : Option Addr := none
  watchdogTrap : Bool := false
  fmt : Word := 0x11
  super : Word := 0x3F800000
  sketches : Tab Sketch := []
  arrivals : Tab Arrival := []
  colls : List CollRec := []
  own : Tab Gran := []
  nested : List Nat := []
  written : BitVec 128 := 0
  armed : Nat := 0
  level : Nat := 0
  stamped : Nat := 0
  withdrawn : Nat := 0
  fresh : Tab Bool := []                -- result registers that a delivery has filled and nothing has read; true: a system hall
  recs : List (Addr × List Byte) := []  -- bytes that the instruction at hand has read outside the storey
  filled : Tab Nat := []                -- registers (vector registers from 32 on) by the cycle of their last remote fill (R128)
  deriving DecidableEq, Repr

/-! ### Cores -/

/-- A forme as a core holds it (R99, R102, R111): the register image, the granules its record and
template copy occupy, its map from template granule to granule of the forme area, the granules lent to it by
the parent (R111), its reservation, and for a nested forme the SLOTID of the parent and the sub-impressions
that have not retired. -/
structure Forme where
  task : Nat
  parent : Option Nat := none
  regs : Regs := {}
  segs : Tab Seg := []
  fmt : Word := 0x11
  super : Word := 0x3F800000
  record : List Nat := []
  map : Tab Nat := []
  lent : Tab Nat := []
  reserved : List Nat := []
  complete : Bool := true
  left : Nat := 0
  deriving DecidableEq, Repr

/-- A latch or receive buffer that holds a tile with its format code (R249-R250). -/
structure Tile where
  fmt : Nat
  bytes : List Byte
  deriving DecidableEq, Repr

/-- The states of a B latch (R250). -/
inductive Latch where
  | empty
  | full (t : Tile)
  | outgoing (t : Tile)
  deriving DecidableEq, Repr

/-- Operations of the matrix queue (R259, R261). -/
inductive MxOp where | mma | mmarb | mmacn | mbpass
  deriving DecidableEq, Repr

/-- A matrix queue entry (R249, R252). `a` and `c` are places in the issuing core's memory as issued; it joins the queue
at cycle `join`; `running` is set from its start at cycle `start`; `aTile` and `bTile` are the tiles that it reads at its
start; `wrote` is the cycle of its end as far as hand-offs; `legs` counts hand-offs. -/
structure MxEntry where
  slot : Nat
  op : MxOp
  latch : Nat
  fmt : Word
  super : Word
  c : Nat
  a : Option Nat
  running : Bool := false
  written : Bool := false
  aTile : List Byte := []
  bTile : Option Tile := none
  wrote : Nat := 0
  legs : Nat := 0
  pc : Word := 0
  join : Nat := 0
  start : Nat := 0
  deriving DecidableEq, Repr

/-- The matrix engine (R249-R252). -/
structure Matrix where
  latch0 : Latch := .empty
  latch1 : Latch := .empty
  buf0 : Option Tile := none
  buf1 : Option Tile := none
  bufA : Option Tile := none
  queue : List MxEntry := []
  late : List MxEntry := []   -- entries that join the queue once their template copy faults are over (R246)
  loaded0 : Nat := 0      -- the cycles from which the latches that an MBLD loads may be used (R260)
  loaded1 : Nat := 0
  free : Nat := 0         -- the cycle from which the engine may start its next operation, unless throttled (R252)
  lastStart : Option Nat := none
  deriving DecidableEq, Repr

/-- A message as it waits at a core (R134-R135). -/
structure Message where
  type : Nat
  w0 : Word
  w1 : Word
  s18 : Word
  deriving DecidableEq, Repr

/-- The synchronising accesses (R192). -/
inductive SyncOp where | ldfe | ldff | stfe | stff
  deriving DecidableEq, Repr

/-- A synchronising request (R192-R193): the thread, the operation, the load's register, the value a store writes,
whether its thread has gone on and awaits an acknowledgement, its instruction and address, the scope of a load. -/
structure SyncReq where
  slot : Nat
  op : SyncOp
  d : Nat
  value : Word
  remote : Bool
  pc : Word
  addr : Addr
  scope : Scope
  deriving DecidableEq, Repr

/-- The two queues of a TCM word (R193). -/
structure SyncQ where
  full : List SyncReq := []
  empty : List SyncReq := []
  deriving DecidableEq, Repr

/-- One line of a core cache (R170): its virtual line number, the partition, the class and number of its physical
line, whether it came through a segment with W and with I, whether it stands there as a line of the flight's pool
(R171), and its bytes. -/
structure CacheLine where
  line : Nat
  part : Nat
  cls : PClass
  phys : Nat
  w : Bool
  i : Bool
  pooled : Bool := false
  bytes : List Byte
  deriving DecidableEq, Repr

/-- Bytes of a store at one place. In a local memory, `foot` and `size` are the footprint of the access that they
belong to (R427); `addr` is the address of that access, which a trap names (R131, R202, R405). -/
structure Put where
  loc : Loc
  bytes : List Byte
  foot : Nat := 0
  size : Nat := 0
  addr : Addr := 0
  deriving DecidableEq, Repr

/-- A piece of a load: `n` bytes at a place, the footprint of the access in a local memory (R427) and its address, the
bytes when they are known at issue, and the line that a miss of the core cache brings in. -/
structure Piece where
  loc : Loc
  n : Nat
  foot : Nat := 0
  size : Nat := 0
  addr : Addr := 0
  got : Option (List Byte) := none
  fill : Option CacheLine := none
  deriving DecidableEq, Repr

/-- An entry of the write-combining buffer (R170): the physical line, the thread whose stores it holds, and
the stores in order. -/
structure WcEntry where
  cls : PClass
  line : Nat
  slot : Nat
  addr : Addr
  hint : Nat
  pieces : List Put
  deriving DecidableEq, Repr

/-- A run-list entry (R85): a task, or a task made from a work-class message. -/
inductive RunItem where
  | task (n : Nat)
  | msg (m : Message)
  deriving DecidableEq, Repr

/-- Sub-items that wait to be stamped (R111). -/
structure SubWork where
  forme : Nat
  task : Nat
  parent : Nat
  item : Nat
  next : Nat
  count : Nat
  depth : Nat
  entry : Word
  deriving DecidableEq, Repr

/-- A write of a core or flight register that has not committed (R130, R157): 0 write, 1 set, 2 clear, with the core
that made it. -/
structure Commit where
  core : Nat
  reg : Nat
  op : Nat
  value : Word
  due : Nat
  deriving DecidableEq, Repr

/-- One core. -/
structure Core where
  c : Tab Word := []
  lcsplit : Nat := 0
  moving : List (Nat × Nat × Nat) := []   -- LCSPLIT changes: first byte, end, cycle by which each completes
  slotcls : Word := 0xAAAAAA94
  mvt : Nat := 0
  hold : Bool := false
  margin : Nat := 1
  shBase : Nat := 0
  shSize : Nat := 0
  commits : List Commit := []
  lastIssue : Tab Nat := []
  turned : Nat := 0
  msgs : List Message := []
  rxReq : List Word := []
  txReq : List Word := []
  rxColl : List Word := []
  txColl : List Word := []
  runList : Tab (List RunItem) := []
  lastServed : Tab Nat := []
  subs : List SubWork := []
  formes : Tab Forme := []
  taken : List Nat := []
  mx : Matrix := {}
  copies : Nat := 0
  cache : List CacheLine := []
  wcb : List WcEntry := []
  userSg0 : Option Seg := none  -- the sg0 that the runtime gives user code (R25), when it has set one
  stampSeq : Nat := 0
  victims : Tab Bool := []      -- the pre-emptions that wait (R394): SLOTID, and whether the notice of a full save area is sent
  commWait : Bool := false      -- the communication thread waits for the page of its descriptor (R133)
  resetting : Bool := false     -- a debug reset has cancelled the core's threads and its wipe follows (R419)
  deriving DecidableEq, Repr

/-! ### Flights, storeys, slices -/

/-- A translation as a TLB holds it (R181): first page, pages covered, and the fields of the entry. -/
structure TlbEntry where
  page : Nat
  pages : Nat
  part : Nat
  pa : Nat
  cls : PClass
  key : Nat
  r : Bool
  w : Bool
  c : Bool
  dt : Bool
  deriving DecidableEq, Repr

/-- One flight (R171, R181). -/
structure Flight where
  vpool : Bool := false
  commits : List Commit := []
  tlb : List TlbEntry := []
  deriving DecidableEq, Repr

/-- A miss-pending entry: the page and whether it is FAULTED; the first faulting access (R181-R183). -/
structure Pending where
  page : Nat
  faulted : Bool := false
  acc : Access
  flight : Nat
  deriving DecidableEq, Repr

/-- A collective entry (R338). -/
structure CollEntry where
  part : Nat
  en : Bool
  op : Nat
  parent : Nat
  child : Nat
  sys : Bool
  vec : Bool
  lcnt : Nat
  ncontrib : Nat
  words : List Word
  deriving DecidableEq, Repr

/-- What a contribution or partial carries (R343-R346): lanes as exact integers, FP32 bits or a sketch. -/
structure Contrib where
  slot : Option Nat := none  -- the contributing thread, for a local contribution
  lanes : List Int := []     -- OP 0-2, 4, 5: integers; OP 3: FP32 bits
  bad : List Bool := []      -- ALIGNSUM lanes that are invalid
  exps : List Int := []      -- the different ALIGNSUM exponents
  sketches : List (Nat × Nat × Sketch) := []   -- SKETCHADD: partition, core, descriptor
  shape : Option Sketch := none  -- SKETCHADD from another package: the shape, with the sums of the counters
  counts : List Int := []
  mixed : Bool := false      -- SKETCHADD from another package: its contributions do not share a shape
  deriving DecidableEq, Repr

/-- What the network engines of two packages send each other for a group (R346, R348): a partial, a result, the sums that a
SKETCHADD round writes, and the word that they are written, with whether a write failed. -/
inductive CollMsg where
  | partial_ (c : Contrib)
  | result (r : VWord)
  | sums (counts : List (Option Int))
  | written (bad : Bool)
  deriving DecidableEq, Repr

/-- A round whose end a network engine still owes (R346): to its parent package, with the key set, or at the root to the
contributors; the storeys and packages below it, and those of the packages that have not written their sums. `status` says
that the result is the SKETCHADD status. -/
structure CollAck where
  up : Option (Nat × Nat) := none
  who : List Nat := []
  kids : List Nat := []
  left : List Nat := []
  result : VWord := 0
  status : Bool := false
  bad : Bool := false
  deriving DecidableEq, Repr

/-- A collective node: the entry of a group with the traffic that waits there (R340). -/
structure CollNode where
  entry : Option CollEntry := none
  locals : List Contrib := []
  partials : List (Nat × Contrib) := []   -- port and partial; at an engine, 1,000 + fabric names a package
  waiting : List (List Nat × List Nat) := []  -- rounds sent up: contributing threads (at an engine storeys), child ports (packages)
  acks : List CollAck := []               -- network engine: rounds whose sums are being written
  sent : List (List (Nat × Nat × Sketch)) := []  -- network engine: sketches of rounds sent to another package
  deriving DecidableEq, Repr

/-- A thread's image in a save area (R396-R403): the SLOTID it was saved from, the thread as it was, its run of
blocks, whether its last byte is written, and the volatile registers left out; `dropped` names the landings whose arrival
records have been discarded since (R331). Its bytes lie in memory. -/
structure Image where
  slot : Nat
  thread : Thread
  block : Nat
  blocks : Nat
  saved : Bool
  volS : Nat × Nat := (0xFF, 0xFF)
  volV : Nat × Nat := (0xFF, 0xFF)
  dropped : List Nat := []
  deriving DecidableEq, Repr

/-- One storey (R180-R183, R338, R396). -/
structure Storey where
  ndrop : Nat := 0
  drop : Bool := false
  buffer : List Pending := []
  fsva : Word := 0
  fsdest : Nat := 0
  ptrootL : Word := 0
  ptrootH : Word := 0
  saveL : Word := 0
  saveH : Word := 0
  saveCnt : Nat := 0
  saveFlt : Bool := false
  sdtb : Addr := 0
  tlb : List TlbEntry := []
  pending : List Pending := []
  nodes : Tab CollNode := []
  wiping : Bool := false
  deriving DecidableEq, Repr

/-- Where the payload of a tuple lies (R283, R285): nowhere (length 0), in a heap part (granules of 256
bytes from the first), in a region handed over by PUTG, or on another package, in a heap part of one of its slices or in
a region (R286, R288). -/
inductive Payload where
  | none
  | heap (first count : Nat)
  | region (va : Nat)
  | away (fabric slice first va : Nat) (region : Bool)
  deriving DecidableEq, Repr

/-- An indexed tuple (R268, R276). A tuple that a split has copied keeps its slice and number at the source (R287). -/
structure Tuple where
  hall : Nat
  f : List Word
  len : Nat
  fmt : Nat
  seq : Nat
  payload : Payload
  src : Option (Nat × Nat) := none
  deriving DecidableEq, Repr

/-- Kinds of Gallery operations: a cancel is what TCANCEL and EXIT send to a home (R282). -/
inductive GOp where | put | putg | read | take | cancel
  deriving DecidableEq, Repr

/-- A Gallery operation on its way, or a waiter. `slot` is the thread that issued it, or none for a request of another
package; `fabric`, `owner` and `no` are the requester's package, the SLOTID there and its number for the operation; `keys`
is the group under whose key set it travels (R286). `addr` is the destination or the payload's source, `bytes` the payload
of a PUT once its agent has read it, with the status `read` of that read. A cancel names the operations that it withdraws;
`ends` says that EXIT sent it, or that a status is the end of a continuation. `fwd` marks an operation that the source of a
split forwarded, `again` one that its interface issues again after a RETRY, `moved` one that it issues to the new home after
a REDIRECT (R280, R287). -/
structure GReq where
  op : GOp
  slot : Option Nat
  fabric : Nat
  owner : Nat := 0
  no : Nat := 0
  keys : Nat := 0
  part : Nat
  hall : Nat
  tmpl : VWord
  vd : Nat := 0
  tag : Nat := 0
  mode : GMode := .poll
  addr : Nat := 0
  mbox : Nat := 0
  ctr : Word := 0
  bytes : Option (List Byte) := none
  read : Nat := 0
  nos : List Nat := []
  ends : Bool := false
  fwd : Bool := false
  again : Bool := false
  moved : Bool := false
  deriving DecidableEq, Repr

/-- What a home on another package answers (R286): a status, a delivery with its bytes, the acceptance of a waiter, RETRY,
REDIRECT, the number of waiters withdrawn. -/
inductive PeerAns where
  | status (st home : Nat)
  | tuple (t : Tuple) (st home : Nat) (bytes : List Byte)
  | accepted
  | retry
  | redirect (fabric : Nat)
  | withdrawn (n : Nat)
  deriving DecidableEq, Repr

/-- An operation of this package at a home on another one that has not ended: whether that home has accepted it, and
whether a continuation's issue has been answered, so that its mailbox hears what follows. -/
structure Sent where
  req : GReq
  home : Nat
  accepted : Bool := false
  waits : Bool := false
  deriving DecidableEq, Repr

/-- A sector that a line of the memory-side cache holds (R173): the key under which it was read in, and for the pool
class the bytes that the line holds. A stack sector's bytes are those of the coherent memory. -/
structure LlcSector where
  key : Nat
  bytes : List Byte := []
  deriving DecidableEq, Repr

/-- A line of the memory-side cache (R173-R174): its class and number (the address by 1,024), the partition tag, its
sectors by number, and the evict-first mark. -/
structure LlcLine where
  cls : PClass
  no : Nat
  part : Nat
  sectors : Tab LlcSector := []
  evict : Bool := false
  deriving DecidableEq, Repr

/-- A dirty sector of the memory-side cache: the partition tag and the bytes that the stack still holds
(R63, R173); `dirty` bytes themselves are read from the coherent memory. -/
structure Dirty where
  part : Nat
  key : Nat
  below : List Byte
  tag : Option Nat
  deriving DecidableEq, Repr

/-- One slice with its compositor. -/
structure Slice where
  k : Nat := 4
  hmask : Nat := 0x03FFFFFF
  stagedK : Nat := 4
  stagedMask : Nat := 0x03FFFFFF
  wb : Bool := false
  seq : Nat := 0
  tuples : List Tuple := []
  waiters : List GReq := []
  retry : List (Nat × Nat) := []        -- operations answered RETRY and not accepted since: package, SLOTID (R280)
  heap : Tab (List (Nat × Nat)) := []   -- hall -> granule runs in use
  lines : List LlcLine := []            -- the memory-side cache, most recently used first
  deriving DecidableEq, Repr

/-! ### Package -/

/-- A split in progress or done (R287, R306). `changes` counts the changes that the source has sent, or that the destination
has applied; `ended` says that a definition of the hall has ended the REDIRECT answers. -/
structure Split where
  m : Nat
  hi : Nat
  dest : Nat
  source : Nat
  isSrc : Bool
  isDst : Bool
  phase : Phase
  acks : List Nat := []
  held : List Nat := []
  changes : Nat := 0
  ended : Bool := false
  deriving DecidableEq, Repr

/-- A defined hall (R265, R272). `moving` is the range whose new owner this package's interfaces have received, and its
old owner; `past` the ranges that earlier splits moved away, each with its destination, which are answered REDIRECT (R287). -/
structure Hall where
  part : Nat
  sys : Bool
  homef : BitVec 4
  group : Nat
  heapBase : Nat
  heapSize : Nat
  dir : List (Nat × Nat) := []
  split : Option Split := none
  moving : Option (Nat × Nat × Nat) := none
  past : List (Nat × Nat × Nat) := []
  deriving DecidableEq, Repr

/-- The launch record's fields (R79). -/
structure Record where
  code : Nat
  args : BitVec 64
  itemBase : Nat
  itemCnt : Nat
  smask : BitVec 128
  fmask : BitVec 4
  prio : Nat
  pg : Bool
  flat : Bool
  finish : Bool
  succ : List Nat
  stages : List (Nat × Nat × Nat)
  depCnt : Nat
  wdog : Nat
  depAddr : Nat
  event : Nat
  pgt : Nat
  deriving DecidableEq, Repr

/-- The kernel header's fields and declarations (R23-R25). -/
structure Header where
  pro : Bool
  codeSz : Nat
  entry : Nat
  proEnt : Nat
  tplSz : Nat
  tplOff : Nat
  dataOff : Nat
  volS : Nat × Nat
  volV : Nat × Nat
  shNeed : Nat
  prio : Nat
  segs : Tab Seg
  halls : List Nat
  sketches : Tab Sketch
  deriving DecidableEq, Repr

/-- The stages of a task with respect to its forme (R85, R100-R103). -/
inductive Compose where | waiting | composing | ready
  deriving DecidableEq, Repr

/-- The first failure of a task (R90). -/
structure Failure where
  item : Word
  cause : Word
  val : Word
  pc : Word
  slot : Word
  deriving DecidableEq, Repr

/-- An admitted task. -/
structure Task where
  part : Nat
  hseq : Word
  host : Bool
  record : Record
  hdr : Header
  prio : Nat
  rank : Nat := 0
  nranks : Nat := 1
  group : Nat := 0
  fabrics : List Nat := []   -- the packages of the process group, by rank (R94)
  first : Nat := 0           -- the share of this package: first item and count
  count : Nat := 0
  next : Nat := 0            -- items stamped from the share
  perCore : Tab Nat := []    -- FLAT: items stamped on each core
  ready : Bool := false
  readyAt : Nat := 0
  compose : Compose := .waiting
  forme : Option Forme := none
  image : List Byte := []    -- the template image that copies are made from
  gone : List Nat := []      -- cores that have released or can never hold the forme
  ran : Nat := 0
  frozen : Bool := false
  status : Nat := 0
  fail : Option Failure := none
  decErr : Bool := false
  composed : Bool := false
  erred : Nat := 0           -- items whose impression ended with an error
  sysStart : Bool := false   -- a delivery of a system hall has counted down for the task, a continuation (R229, R292)
  origin : Option (Nat × Nat) := none  -- FLAT, on another rank: rank 0's package and its number of the task
  reports : List Nat := []
  deriving DecidableEq, Repr

/-- A remap window (R362-R366). A buffer is its number in the pool and the list of its rows; `base` is the row it starts
with. -/
structure Buffer where
  no : Nat
  base : Nat
  rows : List Nat
  isSealed : Bool := false
  deriving DecidableEq, Repr

structure Window where
  wbase : Nat
  src : Nat
  naddr : Nat
  rowb : Nat
  srcRows : Nat
  count : Nat := 0
  dry : Bool := false
  bufs : List Buffer := []
  deriving DecidableEq, Repr

/-- The remap pool and windows of a partition (R362). `queue` holds the acts of APPENDs that wait. -/
structure Remap where
  poolBase : Nat := 0
  nbuf : Nat := 0
  windows : Tab Window := []
  queue : List Nat := []
  deriving DecidableEq, Repr

/-- A landing (R331-R333). `seen` is the generation and count that the cores see. -/
structure Landing where
  v : Bool := false
  part : Nat := 0
  count : Nat := 0
  arrived : Nat := 0
  gen : Word := 0
  seenGen : Word := 0
  seenArr : Nat := 0
  deriving DecidableEq, Repr

/-- A partition with its virtual function (R64-R78). -/
structure Part where
  smask : BitVec 128 := 0
  wbase : Nat := 0
  sdtb : Addr := 0
  tdi : Tdi := .unlocked
  staging : Tab (List Byte) := []
  busy : BitVec 16 := 0
  apstat : Word := 0          -- the W1C bits [22:17]
  cwin : List Byte := []
  msixPending : BitVec 8 := 0
  msixMasked : BitVec 8 := 0
  measure : Option (List Nat) := none
  remap : Remap := {}
  deriving DecidableEq, Repr

/-- A key slot (R62, R71): assigned, owner, generation of its key material, and whether it is usable. -/
structure KeySlot where
  a : Bool := false
  part : Nat := 0
  gen : Nat := 0
  usable : Bool := false
  deriving DecidableEq, Repr

/-- Fenced functions (R404, R407). -/
structure Fence where
  kind : Nat
  unit : Nat
  deriving DecidableEq, Repr

/-- A page that migrates (R185): its owner, virtual page, physical page and new physical page, the lines of 1,024 bytes
that the engine has copied, those marked for re-copy, and the re-copies made. -/
structure Migration where
  part : Nat
  page : Nat
  src : Nat
  dest : Nat
  copied : Nat := 0
  marked : List Nat := []
  recopies : Nat := 0
  deriving DecidableEq, Repr

/-- The SPDM responder (R58-R60) as far as the spec names it (log 11, DESIGN CHOICE). -/
structure Spdm where
  version : Bool := false
  caps : Bool := false
  algs : Bool := false
  exchange : Bool := false
  session : Bool := false
  updates : Nat := 0
  transcript : List Nat := []
  chunkIn : List Byte := []
  large : List Nat := []
  size : Nat := 0            -- the negotiated transmit size (R59); 0 before GET_CAPABILITIES
  streams : List Nat := []
  firmware : Tab Nat := []
  deriving DecidableEq, Repr

/-- What another package answers when this package asks it about a hall (R303, R305): the groups it belongs to, the halls
it has defined with their home fields, those with a split in progress there, those that hold tuples or waiters there, and
its directories. -/
structure Peer where
  fabric : Nat
  groups : List Nat
  halls : List (Nat × BitVec 4)
  splitting : List Nat
  busy : List Nat := []
  table : List (Nat × List (Nat × Nat))
  deriving DecidableEq, Repr

/-- The package's own units and registers. -/
structure Pkg where
  parts : Tab Part := []
  keys : Tab KeySlot := []
  halls : Tab Hall := []
  hslot : Tab Nat := []
  redirects : Word := 0
  landings : Tab Landing := []
  flog : Tab Word := []
  flogCnt : Nat := 0
  flogNow : List (Nat × Nat × Nat) := []   -- the fences recorded in cycle `flogCycle`: kind, unit, reason (R407)
  flogCycle : Nat := 0
  fences : List Fence := []
  domErr : Bool := false
  domGo : Bool := false
  life : Life := .develop
  temp : Nat := 0
  power : Nat := 0
  thr : Nat := 0
  coolFrom : Nat := 0                      -- the cycle since which power and temperature are low, or of the last fall (R425)
  state : Power := .standby
  offAt : Option Nat := none               -- the cycle in which a thermal trip ends in OFF (R426)
  tasks : Tab Task := []
  nextTask : Nat := 0
  turn : Nat := 0
  engines : Tab (Tab CollNode) := []
  poolFailed : List Nat := []
  migrations : List Migration := []
  hot : Tab (List Nat) := []
  hotEpoch : Nat := 0
  away : Tab Sent := []
  pfMasked : BitVec 8 := 0
  pfPending : BitVec 8 := 0
  spdm : Spdm := {}
  deriving DecidableEq, Repr

/-! ### Pending hardware activities -/

/-- What a load writes when its reply arrives (R190, R202, R204). -/
inductive LoadDest where
  | scalar (d size : Nat) (signed : Bool)
  /-- a vector register under mask register `k`: the bytes enabled, and where each piece goes -/
  | vector (vd k : Nat) (mask : Mask) (places : List Nat)
  /-- a record that an instruction reads at issue: it issues again with the bytes (R209) -/
  | record
  deriving DecidableEq, Repr

/-- A copy operation (R206-R209): rows of a destination, a
source and a number of 64-byte units, in order; a fill writes its word. -/
structure CopyOp where
  slot : Nat
  tag : Nat
  hint : Nat
  fill : Option Word
  rows : List (Addr × Addr × Nat)
  deriving DecidableEq, Repr

/-- An operation near memory (R213). -/
structure NearOp where
  slot : Nat
  tag : Nat
  reduce : Bool
  op : Nat
  float : Bool
  region : Nat
  other : Nat
  pattern : Word
  len : Nat
  res : Addr
  deriving DecidableEq, Repr

/-- What a slice engine still has to do of a sketch operation (R320-R323): the counter updates of an SKUPD with its tag; the
counters that an SKQRY reads, with the values read; the next counter of an SKADD, with its source's value once it is read,
or of an SKCLR. -/
inductive SkOp where
  | upd (tag : Nat) (todo : List (Nat × Int))
  | qry (vd : Nat) (todo : List (Nat × Bool)) (got : List (Option Int))
  | add (d : Nat) (src : Sketch) (next : Nat) (got : Option Word)
  | clr (next : Nat)
  deriving DecidableEq, Repr

/-- What an armed trigger does when it fires (R212). -/
inductive Fire where
  | copy (c : CopyOp)
  | dec (sel n : Word)
  deriving DecidableEq, Repr

/-- A pending activity. The row of the opcode table that each kind belongs to is given with it. -/
inductive ActKind where
  /-- REMOTE_ACCESS_ARRIVAL: a load; `pc` is its instruction, `addr` the address for a FENCED trap. -/
  | load (slot : Nat) (pc : Word) (addr : Addr) (hint : Nat) (pieces : List Piece) (dest : LoadDest)
  /-- REMOTE_ACCESS_ARRIVAL: a store of bytes -/
  | store (slot : Nat) (addr : Addr) (hint : Nat) (pieces : List Put)
  /-- REMOTE_ACCESS_ARRIVAL: an atomic -/
  | amo (slot : Nat) (pc : Word) (addr : Addr) (loc : Loc) (op : Nat) (b exp : Word) (d : Nat) (order : Nat) (scope : Scope)
  /-- REMOTE_ACCESS_ARRIVAL: a decrement of an event word (R151) -/
  | decEvent (slot : Option Nat) (addr : Addr) (loc : Loc) (n : Nat)
  /-- REMOTE_ACCESS_ARRIVAL: a FECLR range at another core -/
  | feclr (slot core off count : Nat)
  /-- SYNC_REQUEST_ARRIVAL -/
  | sync (req : SyncReq) (core off : Nat)
  /-- ACCESS_REPLY: the bytes for a register; a FENCED answer when `fenced`; `counted` says that it is the
  acknowledgement of a request that UNACK counts (R172) -/
  | reply (slot : Nat) (pc : Word) (addr : Addr) (dest : LoadDest) (bytes : List Byte) (fenced counted : Bool) (acq : Option Scope)
  /-- ACKNOWLEDGEMENT -/
  | ack (slot : Nat)
  /-- an SC atomic that has reached its word's home and is performed at the end of the window (R198, R225) -/
  | scHold (slot : Nat) (pc : Word) (addr : Addr) (loc : Loc) (op : Nat) (b exp : Word) (d : Nat) (scope : Scope) (counted : Bool)
  /-- a performed SC atomic's reply that waits for its window (R198) -/
  | scWait (window slot : Nat) (pc : Word) (d : Nat) (value : Word) (scope : Scope) (counted : Bool)
  /-- REMOTE_FILL -/
  | fill (sender : Option Nat) (core slot : Nat) (vec : Bool) (reg : Nat) (value : VWord) (valid : Bool)
  /-- MESSAGE_ARRIVAL -/
  | msg (sender : Option Nat) (core : Nat) (m : Message)
  /-- DEC_MESSAGE; `sys` says that a delivery of a system hall to a continuation sends it -/
  | dec (sender : Option Nat) (core off n : Nat) (sys : Bool)
  /-- ERROR_TOKEN -/
  | token (core off : Nat)
  /-- WAKE_MESSAGE -/
  | wake (task : Task)
  /-- RANK_COMPLETION_REPORT -/
  | rankReport (task rank ran status erred : Nat) (fail : Option Failure)
  /-- COPY_COMPLETE -/
  | copy (c : CopyOp)
  /-- NEAR_MEMORY_COMPLETE -/
  | near (n : NearOp)
  /-- SKUPD_COMPLETE: a sketch operation, with a clamp and the cause of a failed access that it has met (0: none) -/
  | sketch (slot : Nat) (sk : Sketch) (op : SkOp) (sat : Bool) (cause : Nat)
  /-- COUNTER_WATCH_MET: a WAITC -/
  | watch (slot : Nat) (loc : Loc) (thr : Word) (scope : Scope) (met : Option Word)
  /-- TRIGGER_FIRE: an armed trigger -/
  | trigger (slot : Nat) (loc : Loc) (thr : Word) (fire : Fire) (met : Option Word)
  /-- HANDOFF_LAND -/
  | handoff (src dst slot buf due : Nat) (tile : Tile)
  /-- PUT_ANSWER -/
  | putAnswer (slot : Nat) (vd tag status : Nat) (home : Word)
  /-- PUT_ANSWER: the answer of a home on another package to an operation of this one -/
  | peerAnswer (no : Nat) (a : PeerAns)
  /-- GALLERY_PUT_ARRIVAL, GALLERY_MATCH_REQUEST, GALLERY_CANCEL_ARRIVAL: an operation, its home package and slice -/
  | gal (r : GReq) (home slice : Nat)
  /-- GALLERY_MATCH_REQUEST: a delivery that waits for its destination's page (R392) or its thread (R402), with the
  payload and a status when they are known, and the put that is answered once the delivery is made (R291) -/
  | delivery (r : GReq) (t : Tuple) (slice : Nat) (got : Option (List Byte × Nat)) (owes : Option GReq)
  /-- GALLERY_MATCH_REQUEST, GALLERY_CANCEL_ARRIVAL: an answer behind such a delivery -/
  | galAnswer (r : GReq) (slice st : Nat)
  /-- RETRY_REISSUE -/
  | retry (r : GReq) (home slice : Nat)
  /-- REDIRECT_REISSUE: a request answered REDIRECT, and the package of its new home -/
  | redirect (r : GReq) (fabric : Nat)
  /-- MIRRORED_CHANGE: an entry, a waiter, or a removal, copied from the source of a split -/
  | mirrorPut (hall : Nat) (t : Tuple)
  | mirrorWait (hall : Nat) (w : GReq)
  | mirrorDel (hall slice seq : Nat)
  | mirrorGone (hall fabric no : Nat)
  /-- MIRRORED_CHANGE (COPY), SPLIT_FLIP (FLIP), SPLIT_DRAIN (DRAIN) and SPLIT_DONE (DONE, the end marker): what the source
  of a split of [m, hi] tells its destination -/
  | splitMsg (hall : Nat) (phase : Phase) (m hi source : Nat)
  /-- SPLIT_FLIP: the destination of a split has applied so many changes -/
  | splitAck (hall changes : Nat)
  /-- RANGE_ENTRY_ACK: the broadcast entry of a split -/
  | rangeEntry (hall m hi dest source : Nat)
  /-- SOURCE_HOME_NOTICE -/
  | srcNotice (hall slice first : Nat)
  /-- LANDING_ARRIVAL -/
  | arrival (slot landing : Nat) (due : Nat)
  /-- LANDING_ACK -/
  | landAck (slot landing : Nat) (gen : Word) (due : Nat)
  /-- LANDING_FLIP_SEEN -/
  | flip (landing : Nat) (gen : Word) (arrived : Nat) (due : Nat)
  /-- COLLECTIVE_ARRIVAL: at a router (`ne` false) or network engine, from a port (0 for a local one) -/
  | collIn (ne : Bool) (node group port : Nat) (c : Contrib)
  /-- COLLECTIVE_ARRIVAL on the way down: a result for a node's contributors and children -/
  | collDown (node group : Nat) (result : VWord)
  /-- COLLECTIVE_ARRIVAL: what the engine of another package sends to an engine of this one -/
  | collPeer (node group fabric : Nat) (m : CollMsg)
  /-- COLLECTIVE_ARRIVAL at an Ethernet port: what an engine sends to another package, and the group whose key set carries it -/
  | collOut (node fabric group keys : Nat) (m : CollMsg)
  /-- COLLECTIVE_ARRIVAL: a node whose engines have stalled, or whose entry CGSET has written, looks at its rounds -/
  | collRun (ne : Bool) (node group : Nat)
  /-- COLLECTIVE_RESULT -/
  | collResult (slot group : Nat) (result : VWord)
  /-- PACKET_DELIVERY -/
  | packet (cls : NetClass) (src dst : Nat) (words : List Word)
  /-- TRANSPORT_GIVE_UP or delivery by the transport: a packet for another package -/
  | away (cls : NetClass) (src : Nat) (fabric group : Nat) (words : List Word) (port : Nat)
  /-- REMAPW at the remap unit: REMOTE_ACCESS_ARRIVAL -/
  | remap (slot part op window : Nat) (a b : Word)
  /-- REMAPC at the remap unit -/
  | remapCfg (slot part op window : Nat) (record : List Byte) (addr : Addr)
  /-- BOUNCED_REQUEST_REISSUE: a request sent back by a slice -/
  | bounced (act : ActKind)
  deriving DecidableEq, Repr

/-- What leaves the package. -/
inductive OutMsg where
  | msix (fn vector : Nat)
  | hostRead (part : Nat) (bytes : List Byte)
  | unsupported (part : Nat)
  | spdm (req : Nat) (answer : List Nat)
  /-- an answer above the negotiated transmit size, which CHUNK_GET carries (R59) -/
  | spdmLarge (req : Nat)
  | tdisp (part : Nat) (ok : Bool)
  /-- the answer to a TDISP query: 0 version, 1 capabilities, 2 report, 3 state (R58) -/
  | tdispInfo (part kind : Nat) (answer : List Nat)
  | firmware (ok : Bool)
  /-- a packet of a queue for a core of another package, in its receive form, under the key set of a group -/
  | packet (fabric : Nat) (cls : NetClass) (core group : Nat) (words : List Word)
  | collective (fabric group keys : Nat) (m : CollMsg)
  /-- to the source of a split: this package has received the new entry (R287) -/
  | rangeAck (fabric hall : Nat)
  /-- to another package of the fabric, which receives the act -/
  | peer (fabric : Nat) (k : ActKind)
  deriving DecidableEq, Repr

/-- A pending activity with the flows whose order it keeps (R327) (log 16, DESIGN CHOICE). -/
structure Act where
  flows : List (Nat × Nat × Nat)
  kind : ActKind
  deriving DecidableEq, Repr

/-- One turn: what acts next. -/
inductive Turn where
  /-- a core takes its issue position at the present cycle (R121) -/
  | issue (core : Nat)
  /-- an event row of the opcode table -/
  | event (i : Instr)
  /-- something enters from outside the package -/
  | incoming (flows : List (Nat × Nat × Nat)) (k : ActKind)
  /-- an agent outside the package writes bytes of pool or host memory (R186-R187) -/
  | outside (cls : PClass) (pa : Nat) (bytes : List Byte)
  /-- the slice engines copy the next line of a page that migrates (R185) -/
  | copyLine (part page : Nat)
  /-- PF0 defines a launch or completion hall while the partition's TDI is unlocked (R72) -/
  | defineHall (hall base size : Nat)
  /-- a request of the host to a virtual function that does not arrive on the TDI's IDE stream with the T bit (R64) -/
  | untrusted (i : Instr)
  /-- PF0 reads or writes one of its BARs (R69-R71) -/
  | pfRead (bar off size : Nat)
  | pfWrite (bar off : Nat) (bytes : List Byte)
  /-- a TDISP query: 0 version, 1 capabilities, 2 report, 3 state (R58) -/
  | tdispGet (part kind : Nat)
  /-- the clock advances by one core cycle -/
  | tick
  deriving DecidableEq, Repr

/-- Memory contents: cells in ascending address order, none that holds what an unlisted address reads. -/
abbrev Mem := List Host.Cell

/-- The memories of the package and beyond its links (R164, R186-R187): local SRAM by core × 2^19 + offset,
stacked DRAM as every agent sees it, pool and host memory; the TCM words whose bit is empty; the key tag of
each written sector; the dirty sectors of the memory-side cache. -/
structure Memory where
  sram : Mem := []
  stack : Mem := []
  pool : Mem := []
  host : Mem := []
  emptyWords : List Nat := []
  syncQ : Tab SyncQ := []
  keyTag : Tab Nat := []
  dirty : Tab Dirty := []
  deriving DecidableEq, Repr

/-- The machine. `settled` is the model's own: the issues of the present cycle are over, and what follows in it is seen
from the next cycle on (R124). -/
structure State where
  cycle : Nat := 0
  settled : Bool := false
  threads : Tab Thread := []
  cores : Tab Core := []
  flights : Tab Flight := []
  storeys : Tab Storey := []
  slices : Tab Slice := []
  images : Tab Image := []
  memory : Memory := {}
  pkg : Pkg := {}
  acts : Tab Act := []
  nextAct : Nat := 0
  cur : Nat := 0
  agenda : List Turn := []
  draws : Nat := 0
  out : List OutMsg := []
  peers : List Peer := []
  deriving DecidableEq, Repr

/-- Why the machine stops with a fault. -/
inductive Fault where
  /-- Raised by an instruction's meaning when no thread stands in the issuing slot: the model asked for an
  issue that the part never makes. Safe. -/
  | noThread
  deriving DecidableEq, Repr

/-- Why the model gives no meaning. -/
inductive Refusal where
  /-- Raised by an arm of exec whose instruction has no meaning yet. Safe. -/
  | notModelled (mnemonic : String)
  deriving DecidableEq, Repr

/-- The machine right after a power-on reset (R417, R421-R423): STANDBY, no thread, every unit wiped. Every
table lists nothing, and a unit that a table does not list is in its reset state (log 4, DESIGN CHOICE). -/
def State.reset : State := {}

end Sys2Proof.Machine
end

