-- ==== Sys2Proof/Machine/Tables.lean ====
section
/-!
DEFINITION. Tables: sparse tables, memory contents and bit fields. A table lists values by number in
ascending order; a memory lists no byte that is zero (R421: a wipe leaves zero).
-/

namespace Sys2Proof.Machine

open Sys2Proof

/-! ### Sparse tables -/

/-- The value listed under a number. -/
def Tab.look {α : Type} : Tab α → Nat → Option α
  | [], _ => none
  | (j, x) :: r, k => if j = k then some x else Tab.look r k

/-- The value under a number, or the default. -/
def Tab.lookD {α : Type} (t : Tab α) (k : Nat) (d : α) : α := (Tab.look t k).getD d

/-- Lists a value under a number, in place of any other. -/
def Tab.put {α : Type} : Tab α → Nat → α → Tab α
  | [], k, v => [(k, v)]
  | (j, x) :: r, k, v =>
    if j = k then (k, v) :: r
    else if k < j then (k, v) :: (j, x) :: r
    else (j, x) :: Tab.put r k v

/-- Removes what is listed under a number. -/
def Tab.del {α : Type} : Tab α → Nat → Tab α
  | [], _ => []
  | (j, x) :: r, k => if j = k then r else (j, x) :: Tab.del r k

/-- The numbers in ascending order. -/
def Tab.keys {α : Type} (t : Tab α) : List Nat := t.map Prod.fst

/-- Changes every value. -/
def Tab.mapVals {α : Type} (t : Tab α) (f : Nat → α → α) : Tab α := t.map fun (k, v) => (k, f k v)

/-- The least number from `n` on that the table does not list. -/
def Tab.fresh {α : Type} (t : Tab α) : Nat := t.foldl (fun n p => max n (p.1 + 1)) 0

/-! ### Memory contents -/

/-- The byte at an address (log 3, DESIGN CHOICE). -/
def Mem.get : Mem → Nat → Byte
  | [], _ => 0
  | (j, b) :: r, a => if j = a then b else Mem.get r a

/-- Removes the cell of an address. -/
def Mem.erase : Mem → Nat → Mem
  | [], _ => []
  | (j, b) :: r, a => if j = a then r else (j, b) :: Mem.erase r a

/-- Lists a byte at an address. -/
def Mem.insert : Mem → Nat → Byte → Mem
  | [], a, v => [(a, v)]
  | (j, b) :: r, a, v =>
    if j = a then (a, v) :: r
    else if a < j then (a, v) :: (j, b) :: r
    else (j, b) :: Mem.insert r a v

/-- Writes a byte, keeping the canonical form. -/
def Mem.set (m : Mem) (a : Nat) (v : Byte) : Mem := if v = 0 then m.erase a else m.insert a v

/-- Removes every cell from `lo` to `hi` - 1, which leaves zero there. -/
def Mem.clear (m : Mem) (lo hi : Nat) : Mem := m.filter fun c => c.1 < lo || hi ≤ c.1

/-- Writes bytes at consecutive addresses. -/
def Mem.setMany : Mem → Nat → List Byte → Mem
  | m, _, [] => m
  | m, a, b :: r => Mem.setMany (m.set a b) (a + 1) r

/-- `n` bytes from an address. -/
def Mem.getMany (m : Mem) (a n : Nat) : List Byte := (List.range n).map fun i => m.get (a + i)

/-- The canonical form: addresses strictly rising, no byte zero. -/
def Mem.wfFrom : Nat → Mem → Bool
  | _, [] => true
  | lo, (a, b) :: r => decide (lo ≤ a) && decide (b ≠ 0) && Mem.wfFrom (a + 1) r

def Mem.wf (m : Mem) : Bool := Mem.wfFrom 0 m

/-- All the package's memories are in canonical form. -/
def Memory.wf (m : Memory) : Bool := m.sram.wf && m.stack.wf && m.pool.wf && m.host.wf

/-! ### Bits and lists -/

/-- Bits [lo+len-1:lo] of a bit vector as a number. -/
def fieldOf {n : Nat} (w : BitVec n) (lo len : Nat) : Nat := fld w.toNat lo len

/-- The two's-complement value of the low `n` bits of a number. -/
def sval (n v : Nat) : Int :=
  let x := v % 2 ^ n
  if x < 2 ^ (n - 1) then (x : Int) else (x : Int) - (2 ^ n : Nat)

/-- An integer modulo 2^n. -/
def wrap (n : Nat) (i : Int) : Nat := (i % ((2 ^ n : Nat) : Int)).toNat

/-- Sets or clears one bit of a bit vector. -/
def setBit {n : Nat} (w : BitVec n) (i : Nat) (b : Bool) : BitVec n :=
  if b then w ||| BitVec.ofNat n (2 ^ i) else w &&& ~~~(BitVec.ofNat n (2 ^ i))

/-- Replaces bits [lo+len-1:lo]. -/
def setField {n : Nat} (w : BitVec n) (lo len v : Nat) : BitVec n :=
  BitVec.ofNat n (w.toNat - fld w.toNat lo len * 2 ^ lo + (v % 2 ^ len) * 2 ^ lo)

/-- The least number below `n` for which `p` holds. -/
def leastBelow (n : Nat) (p : Nat → Bool) : Option Nat := (List.range n).find? p

/-- Replaces the element at a place. -/
def setAt {α : Type} (l : List α) (i : Nat) (v : α) : List α := l.set i v

/-- Words of a byte list, little-endian. -/
def wordsOf : List Byte → List Word
  | a :: b :: c :: d :: r => BitVec.ofNat 32 (leNat [a, b, c, d]) :: wordsOf r
  | _ => []

/-- Bytes of a list of words. -/
def bytesOf (ws : List Word) : List Byte := (ws.map fun w => leBytes 4 w.toNat).flatten

/-- The word at byte offset `o` of a record of bytes. -/
def wordAt (bs : List Byte) (o : Nat) : Nat := leNat ((bs.drop o).take 4)

/-- The 64-bit value at byte offset `o`. -/
def dwordAt (bs : List Byte) (o : Nat) : Nat := leNat ((bs.drop o).take 8)

/-- A vector register as bytes and back. -/
def vbytes (v : VWord) : List Byte := leBytes 64 v.toNat
def vofBytes (bs : List Byte) : VWord := BitVec.ofNat 512 (leNat (bs.take 64))

/-- Lane `i` of `w` bits of a vector register. -/
def lane (v : VWord) (w i : Nat) : Nat := fld v.toNat (w * i) w

/-- A vector register from the lanes of `w` bits, in order. -/
def ofLanes (w : Nat) (ls : List Nat) : VWord :=
  BitVec.ofNat 512 (ls.foldr (fun x acc => x % 2 ^ w + 2 ^ w * acc) 0)

/-- The lanes of `w` bits of a vector register. -/
def lanes (v : VWord) (w : Nat) : List Nat := (List.range (512 / w)).map (lane v w)

/-- The smallest element by a key, the first of equals. -/
def minBy {α : Type} (key : α → Nat) : List α → Option α
  | [] => none
  | x :: r => match minBy key r with
    | none => some x
    | some y => if key y < key x then some y else some x

end Sys2Proof.Machine
end

