-- ==== Sys2Proof/Machine/Units.lean ====
section
/-!
DEFINITION. Units: where the units of the package stand in State, their numbers (R13), the roles of the bytes
of local memory (R97-R98, R168-R169), partitions and fences.
-/

namespace Sys2Proof.Machine

open Sys2Proof

/-! ### Numbers (R13, R17) -/

def coreOf (slotid : Nat) : Nat := slotid / 16
def slotOf (slotid : Nat) : Nat := slotid % 16
def flightOf (core : Nat) : Nat := core / 16
def storeyOf (core : Nat) : Nat := core / 64
def slotidOf (core slot : Nat) : Nat := core * 16 + slot

/-! ### Units -/

def State.core (s : State) (c : Nat) : Core := s.cores.lookD c {}
def State.modCore (s : State) (c : Nat) (f : Core → Core) : State :=
  { s with cores := s.cores.put c (f (s.core c)) }
def State.flight (s : State) (f : Nat) : Flight := s.flights.lookD f {}
def State.modFlight (s : State) (n : Nat) (f : Flight → Flight) : State :=
  { s with flights := s.flights.put n (f (s.flight n)) }
def State.storey (s : State) (n : Nat) : Storey := s.storeys.lookD n {}
def State.modStorey (s : State) (n : Nat) (f : Storey → Storey) : State :=
  { s with storeys := s.storeys.put n (f (s.storey n)) }
def State.slice (s : State) (n : Nat) : Slice := s.slices.lookD n {}
def State.modSlice (s : State) (n : Nat) (f : Slice → Slice) : State :=
  { s with slices := s.slices.put n (f (s.slice n)) }
def State.part (s : State) (p : Nat) : Part := s.pkg.parts.lookD p {}
def State.modPkg (s : State) (f : Pkg → Pkg) : State := { s with pkg := f s.pkg }
def State.modPart (s : State) (p : Nat) (f : Part → Part) : State :=
  s.modPkg fun g => { g with parts := g.parts.put p (f (s.part p)) }
def State.task? (s : State) (n : Nat) : Option Task := s.pkg.tasks.look n
def State.modTask (s : State) (n : Nat) (f : Task → Task) : State :=
  match s.task? n with
  | none => s
  | some t => s.modPkg fun g => { g with tasks := g.tasks.put n (f t) }
def State.modMemory (s : State) (f : Memory → Memory) : State := { s with memory := f s.memory }

/-- The thread in a slot. -/
def State.thr? (s : State) (id : Nat) : Option Thread := s.threads.look id
def State.thr (s : State) (id : Nat) : Thread := s.threads.lookD id {}
/-- The issuing thread. -/
def State.me (s : State) : Thread := s.thr s.cur
/-- Changes the thread of a slot; a slot without a thread stays so. -/
def State.modThr (s : State) (id : Nat) (f : Thread → Thread) : State :=
  match s.thr? id with
  | none => s
  | some t => { s with threads := s.threads.put id (f t) }
def State.modMe (s : State) (f : Thread → Thread) : State := s.modThr s.cur f
/-- The issuing core. -/
def State.myCore (s : State) : Nat := coreOf s.cur

/-- A drawn choice below `n` (log 9), and the state after the draw. -/
def State.draw (s : State) (n : Nat) : Nat × State :=
  (Config.pick s.draws % n, { s with draws := s.draws + 1 })

/-- A drawn free word. -/
def State.drawWord (s : State) : Word × State :=
  (Config.freeWord s.draws, { s with draws := s.draws + 1 })

/-- The Ethernet port that carries the flows to a package (R349). -/
def flowPort (fabric : Nat) : Nat := fabric % 8

/-- A collective node: a network engine's or a router's entry of a group. -/
def State.node (s : State) (ne : Bool) (node g : Nat) : CollNode :=
  if ne then (s.pkg.engines.lookD node []).lookD g {} else (s.storey node).nodes.lookD g {}

/-! ### Names of threads

Acts name a thread by its SLOTID, a pre-empted one by 131,072 plus the number of its image, and one that has ended by a
number from 2^40 on, which holds its task and its SLOTID, so that acts still pending for it find no thread. -/

def imageBase : Nat := 131072
def deadBase : Nat := 2 ^ 40

/-- The name of a thread that has ended. -/
def deadName (id : Nat) (task : Option Nat) : Nat := deadBase + (task.map fun n => (n + 1) * 131072).getD 0 + id

/-- The core that a thread runs on, was saved on or has ended on. -/
def State.coreOfAny (s : State) (id : Nat) : Nat :=
  if id < imageBase then coreOf id
  else if deadBase ≤ id then coreOf ((id - deadBase) % 131072)
  else ((s.images.look (id - imageBase)).map fun im => coreOf im.slot).getD 0

/-! ### Partitions (R61) -/

/-- The partition that a storey belongs to. -/
def State.partOfStorey (s : State) (n : Nat) : Option Nat :=
  (s.pkg.parts.find? fun p => p.2.smask.getLsbD n).map Prod.fst

def State.partOf (s : State) (core : Nat) : Option Nat :=
  if core < 8192 then s.partOfStorey (storeyOf core) else none

/-- The issuing thread's partition. -/
def State.myPart (s : State) : Nat := (s.partOf s.myCore).getD 16

/-- A core number lies in the issuing thread's partition. -/
def State.inMyPart (s : State) (core : Nat) : Bool := s.partOf core == some s.myPart && core < 8192

/-! ### Roles of local memory -/

/-- Bytes of the cache portion by CSIZE (R168). -/
def cacheBytes (csize : Nat) : Nat :=
  match csize with
  | 1 => 0x10000
  | 2 => 0x20000
  | 3 => 0x40000
  | _ => 0

/-- The TCM's size. -/
def Core.tcmSize (c : Core) : Nat := 0x80000 - cacheBytes c.lcsplit

/-- Bytes [off, off+n) overlap the forme area (R98) or the cache portion (R169): a guarded region (R427). -/
def Core.guarded (c : Core) (off n : Nat) : Bool :=
  decide (0 < n) &&
  ((decide (0 < c.shSize) && decide (off < (c.shBase + c.shSize) * 256) && decide (c.shBase * 256 < off + n))
    || decide (c.tcmSize < off + n))

/-- Bytes whose role an LCSPLIT change is moving (R168) (log 51, DEDUCED). -/
def Core.movingBytes (c : Core) (off n : Nat) : Bool :=
  c.moving.any fun m => decide (off < m.2.1) && decide (m.1 < off + n)

/-- The space-01 address of an offset of a core's local memory (R164). -/
def localAddr (core off : Nat) : Nat := 2 ^ 62 + core * 2 ^ 32 + off

/-- A TCM word that a live task uses as its counter (R83) (log 25, DEDUCED). -/
def State.liveCounter (s : State) (core off : Nat) : Option Nat :=
  if 0x1000 ≤ off then none
  else (s.pkg.tasks.find? fun t => t.2.record.depAddr == localAddr core (off / 4 * 4)).map Prod.fst

/-! ### Slices (R175) -/

/-- The parity of the bits of a number below 2^n. -/
def parity : Nat → Nat → Bool
  | 0, _ => false
  | n + 1, v => Bool.xor (v % 2 == 1) (parity n (v / 2))

/-- Bit n of sel. -/
def selBit (hmask pa n : Nat) : Bool :=
  Bool.xor ((pa / 2 ^ (10 + n)) % 2 == 1)
    ((List.range 26).foldl
      (fun acc j => if j % 4 == n && (hmask / 2 ^ j) % 2 == 1 then Bool.xor acc ((pa / 2 ^ (14 + j)) % 2 == 1) else acc)
      false)

def selOf (hmask pa : Nat) : Nat :=
  (List.range 4).foldl (fun acc n => if selBit hmask pa n then acc + 2 ^ n else acc) 0

/-- The slice that caches a stack-class address. -/
def State.sliceOf (s : State) (pa : Nat) : Nat :=
  let t := pa / 2 ^ 36 % 16
  let k := min (s.slice t).k 4
  t / 2 ^ k * 2 ^ k + selOf (s.slice t).hmask pa % 2 ^ k

/-- The slice that caches a line of a class. -/
def State.llcSlice (s : State) (cls : PClass) (pa : Nat) : Nat :=
  if cls = .pool then Config.poolSlice (pa / 1024) % 16 else s.sliceOf pa

/-! ### Fences (R404) -/

def State.isFenced (s : State) (kind unit : Nat) : Bool := s.pkg.fences.contains { kind := kind, unit := unit }

/-- A core that is fenced itself or by its flight. -/
def State.coreFenced (s : State) (core : Nat) : Bool := s.isFenced 0 core || s.isFenced 1 (flightOf core)

/-- A core whose storey is being wiped (R422). -/
def State.coreWiping (s : State) (core : Nat) : Bool := (s.storey (storeyOf core)).wiping

/-- The failure of pool modules leaves no good copy of a sector (R186). An address of no region's is lost with no module (log 73,
DESIGN CHOICE). -/
def poolLost (failed : List Nat) (pa : Nat) : Bool :=
  match (Config.poolRegions.take 256).find? fun r => decide (r.base ≤ pa) && decide (pa < r.base + r.size) with
  | none => false
  | some r => match r.mode with
    | .single m => failed.contains m
    | .mirrored a b => failed.contains a && failed.contains b
    | .parity ms => failed.contains (ms.getD (Config.poolModule (pa / 256) % ms.length) 0) && decide (2 ≤ ms.countP failed.contains)

/-- The function that serves a place is fenced; so is a pool address above the pool's 64 TiB (R186) (log 57, DESIGN CHOICE). -/
def State.locFenced (s : State) : Loc → Bool
  | .sram core _ => s.coreFenced core
  | .phys .stack pa _ => s.isFenced 2 (s.sliceOf pa)
  | .phys .pool pa _ => s.isFenced 3 (Config.poolLink pa % 4)
      || decide (2 ^ 46 ≤ pa) || poolLost s.pkg.poolFailed pa
  | .phys .host _ _ => s.isFenced 5 0
  | .reg 2 n _ => s.isFenced 2 n
  | .reg 3 n _ => s.isFenced 1 n
  | .reg _ _ _ => false

/-- The unit that a place belongs to, as an end of a flow (R327): cores by number, slices from 16,384 on, the
pool and host controllers, the package's registers, then storeys and flights. -/
def State.unitOf (s : State) : Loc → Nat
  | .sram core _ => core
  | .phys .stack pa _ => 16384 + s.sliceOf pa
  | .phys .pool _ _ => 16400
  | .phys .host _ _ => 16401
  | .reg 1 n _ => 17000 + n
  | .reg 2 n _ => 16384 + n
  | .reg 3 n _ => 18000 + n
  | .reg _ _ _ => 16402

end Sys2Proof.Machine
end

