-- ==== Sys2Proof/Machine/Phys.lean ====
section
/-!
DEFINITION. Phys: reading and writing bytes where they lie: local SRAM with the full/empty bits (R169), the
stacks behind the slices with keys and dirty sectors (R62-R63, R173, R188), pool and host memory (R186-R187).
Every write re-evaluates the counter watches of the words it changes (R210).
-/

namespace Sys2Proof.Machine

open Sys2Proof

/-! ### Keys (R62, R71, R188) -/

/-- The tag of what is written under a key now: the slot and the generation of its material. -/
def State.keyTagNow (s : State) (key : Nat) : Nat := key + 4096 * (s.pkg.keys.lookD key {}).gen

/-- Sorted insertion without repeats. -/
def insertNat (n : Nat) : List Nat → List Nat
  | [] => [n]
  | x :: r => if n = x then x :: r else if n < x then n :: x :: r else x :: insertNat n r

/-- The number of an encrypted sector in the table of key tags: stack sectors even, pool sectors odd. -/
def sectorNo (cls : PClass) (pa : Nat) : Nat := pa / 256 * 2 + (if cls = .pool then 1 else 0)

/-- The number of a byte of a partition's host memory, which its virtual function alone reaches (R187). -/
def hostAddr (part pa : Nat) : Nat := part * 2 ^ 48 + pa

/-- A byte of a class as it is kept, host memory by `hostAddr`. Stacked addresses that differ above bit 39 alone are distinct
bytes (log 8, DESIGN CHOICE). -/
def State.rawByte (s : State) (cls : PClass) (pa : Nat) : Byte :=
  match cls with
  | .stack => s.memory.stack.get pa
  | .pool => s.memory.pool.get pa
  | .host => s.memory.host.get pa

/-- One byte of a sector as it decrypts under a tag: a sector written under another key decrypts to a byte that
nothing fixes (log 8, DESIGN CHOICE). -/
def State.sectorByte (s : State) (cls : PClass) (pa tag : Nat) : Byte :=
  if cls = .host then s.rawByte cls pa
  else match s.memory.keyTag.look (sectorNo cls pa) with
  | none => s.rawByte cls pa
  | some t => if t = tag then s.rawByte cls pa else Config.garble (sectorNo cls pa) (pa % 256) t tag

/-! ### The memory-side cache (R63, R173-R174, R187) -/

/-- The line of an address, whichever partition it is tagged with. -/
def State.llcFind (s : State) (cls : PClass) (pa : Nat) : Option LlcLine :=
  (s.slice (s.llcSlice cls pa)).lines.find? fun l => l.cls == cls && l.no == pa / 1024

/-- The sector of an address as its slice holds it for a partition. -/
def State.llcSector (s : State) (part : Nat) (cls : PClass) (pa : Nat) : Option LlcSector :=
  match s.llcFind cls pa with
  | some l => if l.part = part then l.sectors.look (pa / 256 % 4) else none
  | none => none

def State.resident (s : State) (part : Nat) (cls : PClass) (pa : Nat) : Bool := (s.llcSector part cls pa).isSome

/-- One byte as a partition reads it under a key: from the sector that its slice holds for the partition as it stands
(R63), else from memory. -/
def State.physByte (s : State) (part : Nat) (cls : PClass) (pa key : Nat) : Byte :=
  if cls = .host then s.rawByte .host (hostAddr part pa)
  else match s.llcSector part cls pa with
  | some x => if cls = .pool then x.bytes.getD (pa % 256) 0 else s.sectorByte cls pa x.key
  | none => s.sectorByte cls pa (s.keyTagNow key)

def State.modRaw (s : State) (cls : PClass) (f : Mem → Mem) : State :=
  s.modMemory fun m => match cls with
    | .stack => { m with stack := f m.stack }
    | .pool => { m with pool := f m.pool }
    | .host => { m with host := f m.host }

/-- Changes the lines of the slice that caches an address. -/
def State.modLines (s : State) (cls : PClass) (pa : Nat) (f : List LlcLine → List LlcLine) : State :=
  s.modSlice (s.llcSlice cls pa) fun x => { x with lines := f x.lines }

/-- Changes the line of an address. -/
def State.modLine (s : State) (cls : PClass) (pa : Nat) (f : LlcLine → LlcLine) : State :=
  s.modLines cls pa fun ls => ls.map fun l => if l.cls = cls && l.no = pa / 1024 then f l else l

/-- Writes dirty sectors back: the stack holds what the slice held. -/
def State.writeBack (s : State) (p : Nat → Bool) : State :=
  s.modMemory fun m => { m with dirty := m.dirty.filter fun d => !p d.1 }

/-- Writes a line back and invalidates it. -/
def State.llcDrop (s : State) (cls : PClass) (no : Nat) : State :=
  let s1 := if cls = .stack then s.writeBack fun sec => sec / 4 == no else s
  s1.modLines cls (no * 1024) fun ls => ls.filter fun l => !(l.cls == cls && l.no == no)

/-- A line tagged with another partition than the requester's is written back and invalidated (R63). -/
def State.llcForeign (s : State) (part : Nat) (cls : PClass) (pa : Nat) : State :=
  match s.llcFind cls pa with
  | some l => if l.part = part then s else s.llcDrop cls (pa / 1024)
  | none => s

/-- Lines that a slice of 1 GiB holds. -/
def llcLines : Nat := 1048576

/-- A full slice gives up a line marked evict-first, else one that is not the most recently used (log 9, DESIGN CHOICE). -/
def State.llcEvict (s : State) (cls : PClass) (pa : Nat) : State :=
  let ls := (s.slice (s.llcSlice cls pa)).lines
  if ls.length < llcLines then s
  else match ls.find? LlcLine.evict with
    | some l => s.llcDrop l.cls l.no
    | none => match ls[1 + (s.draw (llcLines - 1)).1]? with
      | some l => ((s.draw (llcLines - 1)).2).llcDrop l.cls l.no
      | none => s

/-- The line of an address becomes the most recently used. -/
def State.llcFront (s : State) (cls : PClass) (pa : Nat) : State :=
  match s.llcFind cls pa with
  | some l => s.modLines cls pa fun ls => { l with evict := false } :: ls.filter fun x => !(x.cls == cls && x.no == pa / 1024)
  | none => s

/-- Fills a sector into a line that is allocated for it. -/
def State.llcFill (s : State) (part : Nat) (cls : PClass) (pa key : Nat) : State :=
  let tag := s.keyTagNow key
  let sec : LlcSector :=
    { key := tag, bytes := if cls = .pool then (List.range 256).map fun i => s.sectorByte cls (pa / 256 * 256 + i) tag else [] }
  match s.llcFind cls pa with
  | some _ => (s.llcFront cls pa).modLine cls pa fun l => { l with sectors := l.sectors.put (pa / 256 % 4) sec }
  | none =>
    (s.llcEvict cls pa).modLines cls pa fun ls =>
      { cls := cls, no := pa / 1024, part := part, sectors := [(pa / 256 % 4, sec)] } :: ls

def State.llcMark (s : State) (cls : PClass) (pa : Nat) : State := s.modLine cls pa fun l => { l with evict := true }

/-- What a load with a hint does to the slice (R174). -/
def State.llcLoad (s : State) (part hint : Nat) (cls : PClass) (pa key : Nat) : State :=
  if cls = .host then s
  else
    let s1 := s.llcForeign part cls pa
    match s1.resident part cls pa, hint with
    | true, 0 => s1.llcFront cls pa
    | true, 1 => s1
    | true, _ => s1.llcMark cls pa
    | false, 0 => s1.llcFill part cls pa key
    | false, _ => s1

/-- Marks a stack sector dirty before a store changes it, keeping what the stack still holds. -/
def State.markDirty (s : State) (part : Nat) (pa key : Nat) : State :=
  if (s.memory.dirty.look (pa / 256)).isSome then s
  else s.modMemory fun m =>
    let d : Dirty := ⟨part, key, m.stack.getMany (pa / 256 * 256) 256, m.keyTag.look (sectorNo .stack pa)⟩
    { m with dirty := m.dirty.put (pa / 256) d }

/-- What a store with a hint does to the slice, before its bytes are merged (R174). A pool sector is never dirty (R187). -/
def State.llcStore (s : State) (part hint : Nat) (cls : PClass) (pa key : Nat) : State :=
  let s1 := s.llcForeign part cls pa
  let dirty : Bool := cls = .stack && (s1.memory.dirty.look (pa / 256)).isSome
  let s2 := match s1.resident part cls pa, hint with
    | true, 0 => s1
    | true, 1 => if dirty then s1.llcMark cls pa else s1
    | true, _ => s1.llcMark cls pa
    | false, 0 => s1.llcFill part cls pa key
    | false, _ => s1
  if cls = .pool then s2
  else if hint = 0 then s2.markDirty part pa key
  else s2.writeBack fun sec => sec == pa / 256

/-- Prepares a sector for a write under a key: what another key left there is decrypted first. -/
def State.rekey (s : State) (part : Nat) (cls : PClass) (pa key : Nat) : State :=
  let no := sectorNo cls pa
  let base := pa / 256 * 256
  let now := s.keyTagNow key
  let byte : Nat → Byte := fun a => if cls = .pool then s.sectorByte cls a now else s.physByte part cls a key
  let s' := match s.memory.keyTag.look no with
    | none => s
    | some t =>
      if t = now then s else s.modRaw cls fun m => m.setMany base ((List.range 256).map fun i => byte (base + i))
  s'.modMemory fun m => { m with keyTag := m.keyTag.put no now }

/-- Bytes of a list replaced from a place on. -/
def patch (l : List Byte) (o : Nat) (bs : List Byte) : List Byte := l.take o ++ bs ++ l.drop (o + bs.length)

/-- The slice's sector after the bytes are merged: it holds them, under the key of the store. -/
def State.llcMerge (s : State) (cls : PClass) (pa key : Nat) (bs : List Byte) : State :=
  let now := s.keyTagNow key
  let merge : LlcSector → LlcSector := fun x =>
    { key := now, bytes := if cls = .pool then patch x.bytes (pa % 256) bs else x.bytes }
  s.modLine cls pa fun l => match l.sectors.look (pa / 256 % 4) with
    | some x => { l with sectors := l.sectors.put (pa / 256 % 4) (merge x) }
    | none => l

/-- A slice gives a pool sector up that has changed at the pool controller (log 58, DEDUCED). -/
def State.llcForget (s : State) (pa : Nat) : State :=
  s.modLine .pool pa fun l => { l with sectors := l.sectors.del (pa / 256 % 4) }

/-- A write that reaches a line which the engines have copied of a page that migrates marks it for re-copy (R185). -/
def State.markCopied (s : State) (pa : Nat) : State :=
  let mark : Migration → Migration := fun m =>
    if m.src = pa / 65536 && pa / 1024 % 64 < m.copied then { m with marked := insertNat (pa / 1024 % 64) m.marked } else m
  if s.pkg.migrations.isEmpty then s
  else s.modPkg fun g => { g with migrations := g.migrations.map mark }

/-- A write to a page is held at the source: 64 lines of it have been copied again (R185). -/
def State.migrationHolds (s : State) (l : Loc) : Bool :=
  match l with
  | .phys .stack pa _ => s.pkg.migrations.any fun m => m.src == pa / 65536 && decide (64 ≤ m.recopies)
  | _ => false

/-- Writes bytes of one sector of an encrypted or host class through the slices. -/
def State.physWrite (s : State) (part hint : Nat) (cls : PClass) (pa key : Nat) (bs : List Byte) : State :=
  if cls = .host then s.modRaw .host fun m => m.setMany (hostAddr part pa) bs
  else
    let s1 := ((s.llcStore part hint cls pa key).rekey part cls pa key).modRaw cls fun m => m.setMany pa bs
    let s2 := s1.llcMerge cls pa key bs
    if cls = .stack then s2.markCopied pa else s2

/-- Writes bytes of one sector at the pool controller (R187). -/
def State.poolWrite (s : State) (part : Nat) (pa key : Nat) (bs : List Byte) : State :=
  ((s.rekey part .pool pa key).modRaw .pool fun m => m.setMany pa bs).llcForget pa

/-- A slice miss to a stack-class page counts for the requesting storey's quadrant (R184). -/
def State.countMiss (s : State) (storey part pa : Nat) : State :=
  if s.resident part .stack pa then s
  else
    let q := storey / 64 % 2 * 2 + storey / 8 % 2
    let old := s.pkg.hot.lookD (pa / 65536) [0, 0, 0, 0]
    s.modPkg fun g => { g with hot := g.hot.put (pa / 65536) (old.set q (min (old.getD q 0 + 1) 65535)) }

/-- A request of a storey reaches its place: a miss is counted. -/
def State.countAt (s : State) (storey part : Nat) (l : Loc) : State :=
  match l with
  | .phys .stack pa _ => s.countMiss storey part pa
  | _ => s

/-- What a load does to the slice that it reaches. -/
def State.reach (s : State) (storey part hint : Nat) (l : Loc) : State :=
  match l with
  | .phys cls pa key => (s.countAt storey part l).llcLoad part hint cls pa key
  | _ => s

/-! ### Local memory -/

def sramAddr (core off : Nat) : Nat := core * 0x80000 + off

/-- Bytes of local SRAM. -/
def State.sramRead (s : State) (core off n : Nat) : List Byte := s.memory.sram.getMany (sramAddr core off) n

/-- Writes bytes of local SRAM; a word that a live task counts in is left as it is (R83). -/
def State.sramWrite (s : State) (core off : Nat) (bs : List Byte) : State :=
  if off < 0x1000 then
    let put : Mem → Byte × Nat → Mem := fun acc bi =>
      if (s.liveCounter core (off + bi.2)).isSome then acc else acc.set (sramAddr core (off + bi.2)) bi.1
    s.modMemory fun m => { m with sram := bs.zipIdx.foldl put m.sram }
  else s.modMemory fun m => { m with sram := m.sram.setMany (sramAddr core off) bs }

/-- The number of a TCM word. -/
def wordNo (core off : Nat) : Nat := sramAddr core off / 4

def State.wordFull (s : State) (core off : Nat) : Bool := !s.memory.emptyWords.contains (wordNo core off)

/-- Sets a word's full/empty bit. -/
def State.setWordFull (s : State) (core off : Nat) (full : Bool) : State :=
  let f : List Nat → List Nat := fun e =>
    if full then e.filter (fun w => w != wordNo core off) else insertNat (wordNo core off) e
  s.modMemory fun m => { m with emptyWords := f m.emptyWords }

/-- Zeroes bytes of a local memory and sets their words full (R168, R421). -/
def State.sramClear (s : State) (core lo hi : Nat) : State :=
  s.modMemory fun m => { m with
    sram := m.sram.clear (sramAddr core lo) (sramAddr core hi)
    emptyWords := m.emptyWords.filter fun w => w < wordNo core lo || wordNo core hi ≤ w }

/-! ### Places -/

/-- The bytes at a place, as a partition reads them. -/
def State.readLoc (s : State) (part : Nat) (l : Loc) (n : Nat) : List Byte :=
  match l with
  | .sram core off => s.sramRead core off n
  | .phys cls pa key => (List.range n).map fun i => s.physByte part cls (pa + i) key
  | .reg _ _ _ => List.replicate n 0

/-- Whether `n` bytes at one place include the word at another. -/
def locCovers (l : Loc) (n : Nat) (w : Loc) : Bool :=
  match l, w with
  | .sram c o, .sram c' o' => c == c' && decide (o < o' + 4) && decide (o' < o + n)
  | .phys cl pa _, .phys cl' pa' _ => cl == cl' && decide (pa < pa' + 4) && decide (pa' < pa + n)
  | _, _ => false

def State.wordAtLoc (s : State) (part : Nat) (l : Loc) : Word := BitVec.ofNat 32 (leNat (s.readLoc part l 4))

/-- The counter of a watch as its thread reads it: a guarded region of another core reads zero (R98, R169). -/
def State.counterAt (s : State) (part id : Nat) (l : Loc) : Word :=
  match l with
  | .sram c o => if c ≠ s.coreOfAny id && (s.core c).guarded o 4 then 0 else s.wordAtLoc part l
  | _ => s.wordAtLoc part l

/-- Re-evaluates the watches on the words that a write of `n` bytes changed (R210): a watch whose counter has
reached its threshold keeps the value of that moment. -/
def State.noteWrite (s : State) (part : Nat) (l : Loc) (n : Nat) : State :=
  { s with acts := s.acts.mapVals fun _ a =>
      match a.kind with
      | .watch slot loc thr sc none =>
        if locCovers l n loc && thr.toNat ≤ (s.counterAt part slot loc).toNat then
          { a with kind := .watch slot loc thr sc (some (s.counterAt part slot loc)) }
        else a
      | .trigger slot loc thr fire none =>
        if locCovers l n loc && thr.toNat ≤ (s.counterAt part slot loc).toNat then
          { a with kind := .trigger slot loc thr fire (some (s.counterAt part slot loc)) }
        else a
      | _ => a }

/-- Writes bytes at a place. -/
def State.writeLoc (s : State) (part hint : Nat) (l : Loc) (bs : List Byte) : State :=
  match l with
  | .sram core off => (s.sramWrite core off bs).noteWrite part l bs.length
  | .phys cls pa key => (s.physWrite part hint cls pa key bs).noteWrite part l bs.length
  | .reg _ _ _ => s

/-- Bytes at a place as an engine reads them: pool memory at the pool controller (R187). -/
def State.readEng (s : State) (part : Nat) (l : Loc) (n : Nat) : List Byte :=
  match l with
  | .phys .pool pa key => (List.range n).map fun i => s.sectorByte .pool (pa + i) (s.keyTagNow key)
  | _ => s.readLoc part l n

/-- Bytes that an engine or an atomic writes: pool memory at the pool controller. -/
def State.writeEng (s : State) (part hint : Nat) (l : Loc) (bs : List Byte) : State :=
  match l with
  | .phys .pool pa key => s.poolWrite part pa key bs
  | _ => s.writeLoc part hint l bs

/-- What an engine's read does to the slice that it reaches. -/
def State.reachEng (s : State) (storey part hint : Nat) (l : Loc) : State :=
  match l with
  | .phys .pool _ _ => s
  | _ => s.reach storey part hint l

/-- The LLC gives up the pool lines of a partition (R187). -/
def State.dropPoolLines (s : State) (part : Nat) : State :=
  { s with slices := s.slices.mapVals fun _ x => { x with lines := x.lines.filter fun l => !(l.cls == .pool && l.part == part) } }

end Sys2Proof.Machine
end

