-- ==== Sys2Proof/Machine/Acts.lean ====
section
/-!
DEFINITION. Acts: pending activities of the part, the flows whose order they keep (R327), and the messages the
part itself sends.
-/

namespace Sys2Proof.Machine

open Sys2Proof

/-- Classes of traffic as the first number of a flow (R326). -/
def NetClass.no : NetClass → Nat
  | .request => 0
  | .response => 1
  | .gallery => 2
  | .collective => 3

/-- Adds a pending act at the end of its flows. -/
def State.post (s : State) (flows : List (Nat × Nat × Nat)) (k : ActKind) : State :=
  { s with acts := s.acts.put s.nextAct { flows := flows, kind := k }, nextAct := s.nextAct + 1 }

/-- Adds an act that no order binds. -/
def State.postFree (s : State) (k : ActKind) : State := s.post [] k

/-- Adds an act in a class from one unit to another. -/
def State.send (s : State) (c : NetClass) (src dst : Nat) (k : ActKind) : State := s.post [(c.no, src, dst)] k

/-- The act under a number when no older one shares a flow with it (R327). -/
def State.ready? (s : State) (id : Nat) : Option ActKind :=
  match s.acts.look id with
  | none => none
  | some a => if s.acts.any (fun b => decide (b.1 < id) && b.2.flows.any fun f => a.flows.contains f) then none else some a.kind

def State.dropAct (s : State) (id : Nat) : State := { s with acts := s.acts.del id }

/-- Replaces what a pending act holds. -/
def State.setAct (s : State) (id : Nat) (k : ActKind) : State :=
  match s.acts.look id with
  | none => s
  | some a => { s with acts := s.acts.put id { a with kind := k } }

/-- The acknowledgement counter of a thread (R159, R172). -/
def State.addUnack (s : State) (id : Nat) : State := s.modThr id fun t => { t with unack := t.unack + 1 }
def State.subUnack (s : State) (id : Nat) : State := s.modThr id fun t => { t with unack := t.unack - 1 }

/-- An acknowledgement on its way from a unit to a thread. -/
def State.sendAck (s : State) (src id : Nat) : State := s.send .response src (coreOf id) (.ack id)

/-- A message that the part itself originates (R135): ORIG set and bits [24:8] all ones. -/
def State.partMsg (s : State) (src core type : Nat) (w0 w1 : Word) : State :=
  s.send .request src core
    (.msg none core { type := type, w0 := w0, w1 := w1, s18 := BitVec.ofNat 32 (0x3FFFF00 + type % 256) })

end Sys2Proof.Machine
end

