-- ==== Sys2Proof/Machine/Walk.lean ====
section
/-!
DEFINITION. Walk: translation of global virtual addresses (R178-R182): page table entries, the walk, the two
levels of TLB, the miss-pending table and the fault buffer.
-/

namespace Sys2Proof.Machine

open Sys2Proof

/-! ### Entries and the walk (R178-R180) -/

/-- What a walk finds. -/
inductive WalkRes where
  | absent
  | malformed
  | leaf (pte : Nat) (entry : Nat) (block : Bool)
  deriving DecidableEq, Repr

def State.rkey (s : State) (storey : Nat) : Nat := fieldOf (s.storey storey).ptrootH 20 12
def State.rootPa (s : State) (storey : Nat) : Nat :=
  fieldOf (s.storey storey).ptrootH 0 20 * 2 ^ 32 + fieldOf (s.storey storey).ptrootL 16 16 * 2 ^ 16

/-- An entry of a table: stack-class memory read through the slices under RKEY. -/
def State.readPte (s : State) (storey part pa : Nat) : Nat :=
  leNat (s.readLoc part (.phys .stack pa (s.rkey storey)) 8)

/-- The next table's address in an entry. -/
def pteTable (e : Nat) : Nat := fld e 16 36 * 65536

def pteClass (e : Nat) : PClass := match fld e 8 2 with
  | 0 => .stack
  | 1 => .pool
  | _ => .host

/-- The walk of one address. -/
def State.walk (s : State) (storey part va : Nat) : WalkRes :=
  let top := s.readPte storey part (s.rootPa storey + 8 * fld va 42 6)
  if fld top 0 1 = 0 then .absent
  else if fld top 10 6 ≠ 0 || fld top 7 1 ≠ 0 then .malformed
  else
    let midA := pteTable top + 8 * fld va 29 13
    let mid := s.readPte storey part midA
    if fld mid 0 1 = 0 then .absent
    else if fld mid 10 6 ≠ 0 then .malformed
    else if fld mid 7 1 = 1 then
      if fld mid 8 2 = 3 || fld mid 16 13 ≠ 0 then .malformed else .leaf midA mid true
    else
      let leafA := pteTable mid + 8 * fld va 16 13
      let leaf := s.readPte storey part leafA
      if fld leaf 0 1 = 0 then .absent
      else if fld leaf 10 6 ≠ 0 || fld leaf 8 2 = 3 || fld leaf 7 1 ≠ 0 then .malformed
      else .leaf leafA leaf false

/-- The entries that a walk reads. -/
def State.walkReads (s : State) (storey part va : Nat) : List Nat :=
  let topA := s.rootPa storey + 8 * fld va 42 6
  let top := s.readPte storey part topA
  if fld top 0 1 = 0 || fld top 10 6 ≠ 0 || fld top 7 1 ≠ 0 then [topA]
  else
    let midA := pteTable top + 8 * fld va 29 13
    let mid := s.readPte storey part midA
    if fld mid 0 1 = 0 || fld mid 10 6 ≠ 0 || fld mid 7 1 = 1 then [topA, midA]
    else [topA, midA, pteTable mid + 8 * fld va 16 13]

/-- What the reads of a walk do to the slices (R180). -/
def State.walkTouch (s : State) (storey part va : Nat) : State :=
  (s.walkReads storey part va).foldl (fun s pa => s.reach storey part 0 (.phys .stack pa (s.rkey storey))) s

/-- A key slot that the partition owns and that holds usable material (R62, R71). -/
def State.keyOk (s : State) (part key : Nat) : Bool :=
  match s.pkg.keys.look key with
  | some k => k.a && k.part == part && k.usable
  | none => false

/-- The rights and the key of an entry allow an access. -/
def State.pteAllows (s : State) (part e : Nat) (acc : Access) : Bool :=
  s.keyOk part (fld e 52 12) &&
  match acc with
  | .read | .fetch => fld e 1 1 == 1
  | .write => fld e 2 1 == 1
  | .atomic => fld e 1 1 == 1 && fld e 2 1 == 1

def Access.writes : Access → Bool
  | .write | .atomic => true
  | .read | .fetch => false

/-- The entry with AC set, and DT for a write. -/
def pteTouched (e : Nat) (w : Bool) : Nat :=
  let e1 := if fld e 4 1 = 1 then e else e + 16
  if w && fld e 5 1 = 0 then e1 + 32 else e1

/-- The walker sets AC, and DT for a write (R179, R181). -/
def State.touchPte (s : State) (storey part pte e : Nat) (w : Bool) : State :=
  if pteTouched e w = e then s
  else s.writeLoc part 0 (.phys .stack pte (s.rkey storey)) (leBytes 8 (pteTouched e w))

/-- A translation for the TLBs from an entry. -/
def tlbOf (part page e : Nat) (block : Bool) : TlbEntry :=
  { page := if block then page / 8192 * 8192 else page
    pages := if block then 8192 else 1
    part := part
    pa := pteTable e
    cls := pteClass e
    key := fld e 52 12
    r := fld e 1 1 == 1
    w := fld e 2 1 == 1
    c := fld e 3 1 == 1
    dt := fld e 5 1 == 1 }

/-! ### The TLBs (R181) -/

def TlbEntry.covers (e : TlbEntry) (page : Nat) : Bool := decide (e.page ≤ page) && decide (page < e.page + e.pages)

def tlbFind (tlb : List TlbEntry) (part page : Nat) : Option TlbEntry :=
  tlb.find? fun e => e.part == part && e.covers page

def TlbEntry.allows (e : TlbEntry) : Access → Bool
  | .read | .fetch => e.r
  | .write => e.w && e.dt
  | .atomic => e.r && e.w && e.dt

/-- The physical address of a virtual one under a translation. -/
def TlbEntry.phys (e : TlbEntry) (va : Nat) : Nat := e.pa + (va - e.page * 65536)

/-- Adds a translation; a full TLB gives up an entry that the spec does not name (log 9, DESIGN CHOICE). -/
def tlbAdd (cap drawn : Nat) (tlb : List TlbEntry) (e : TlbEntry) : List TlbEntry :=
  let t := tlb.filter fun x => !(x.part == e.part && x.page == e.page)
  e :: (if t.length < cap then t else t.eraseIdx (drawn % cap))

def State.fillL1 (s : State) (f : Nat) (e : TlbEntry) : State :=
  if (s.flight f).tlb.length < 256 then s.modFlight f fun x => { x with tlb := tlbAdd 256 0 x.tlb e }
  else ((s.draw 256).2).modFlight f fun x => { x with tlb := tlbAdd 256 (s.draw 256).1 x.tlb e }

def State.fillL2 (s : State) (st : Nat) (e : TlbEntry) : State :=
  if (s.storey st).tlb.length < 4096 then s.modStorey st fun x => { x with tlb := tlbAdd 4096 0 x.tlb e }
  else ((s.draw 4096).2).modStorey st fun x => { x with tlb := tlbAdd 4096 (s.draw 4096).1 x.tlb e }

/-- What a translation request of a thread gives: the state with the L1 filled, the place and the entry, or
what the thread waits for. -/
inductive TransRes where
  | ok (s : State) (e : TlbEntry)
  | wait (w : Wait)
  deriving DecidableEq, Repr

/-- A translation request from a core. -/
def State.translate (s : State) (core part va : Nat) (acc : Access) : TransRes :=
  let page := va / 65536
  let miss := TransRes.wait (.page (storeyOf core) page acc va)
  let second := match tlbFind (s.storey (storeyOf core)).tlb part page with
    | some e => if e.allows acc then TransRes.ok (s.fillL1 (flightOf core) e) e else miss
    | none => miss
  match tlbFind (s.flight (flightOf core)).tlb part page with
  | some e => if e.allows acc then .ok s e else second
  | none => second

/-! ### The miss-pending table and the fault buffer (R181-R182) -/

def State.pendingPage (s : State) (st page : Nat) : Option Pending :=
  (s.storey st).pending.find? fun p => p.page == page

/-- A request that misses joins the page's entry or takes a free one. -/
def State.joinPending (s : State) (st page : Nat) (acc : Access) (flight : Nat) : State :=
  if (s.pendingPage st page).isSome || 32 ≤ (s.storey st).pending.length then s
  else
    let p : Pending := { page := page, acc := acc, flight := flight % 4 }
    s.modStorey st fun x => { x with pending := x.pending ++ [p] }

def State.freePending (s : State) (st page : Nat) : State :=
  s.modStorey st fun x => { x with pending := x.pending.filter fun p => p.page != page }

/-- FBSTAT as it reads (R183). -/
def Storey.fbstat (x : Storey) : Word :=
  BitVec.ofNat 32 (x.ndrop * 65536 + (if x.drop then 256 else 0) + x.buffer.length)

/-- The fault notice of type 0x02 (R182). -/
def State.faultNotice (s : State) (st : Nat) : State :=
  s.partMsg (17000 + st) (s.storey st).fsdest 2 (BitVec.ofNat 32 st) (s.storey st).fbstat

/-- A fault-buffer push (R182). -/
def State.faultPush (s : State) (st : Nat) (p : Pending) : State :=
  let x := s.storey st
  if x.buffer.any (fun q => q.page == p.page) then s
  else if x.buffer.length < 8 then
    let s1 := s.modStorey st fun x => { x with buffer := x.buffer ++ [p] }
    if x.buffer.length = 0 then s1.faultNotice st else s1
  else
    let s1 := s.modStorey st fun x => { x with drop := true, ndrop := min (x.ndrop + 1) 65535 }
    if x.drop then s1 else s1.faultNotice st

/-- The walk for a unit of the part found the page not present: its entry is FAULTED and pushed. A page that has an entry
waits for it, and so does a request that finds the table full (R181). -/
def State.pageFaulted (s : State) (st page : Nat) (acc : Access) (flight : Nat) : State :=
  if (s.pendingPage st page).isSome || 32 ≤ (s.storey st).pending.length then s
  else
    let p : Pending := { page := page, acc := acc, flight := flight % 4, faulted := true }
    let s1 := s.walkTouch st ((s.partOfStorey st).getD 16) (page * 65536)
    (s1.modStorey st fun x => { x with pending := x.pending ++ [p] }).faultPush st p

/-! ### Requests of the part's own units -/

/-- The lowest storey of a partition, whose tables its engines walk. -/
def State.partStorey (s : State) (p : Nat) : Nat := (leastBelow 128 fun n => (s.part p).smask.getLsbD n).getD 0

/-- What a unit's access to a global address finds: an engine, a save area, a table of descriptors. A walk that ends without
a translation has still read the tables (R63, R180). -/
inductive UnitRes where
  | ok (s : State) (l : Loc)
  | absent (s : State)
  | refused (s : State)
  deriving DecidableEq, Repr

/-- A translation by a fresh walk in a storey for one of the part's units. -/
def State.unitWalk (s : State) (st part va : Nat) (acc : Access) : UnitRes :=
  match s.walk st part va with
  | .absent => .absent (s.walkTouch st part va)
  | .malformed => .refused (s.walkTouch st part va)
  | .leaf pte e block =>
    if s.pteAllows part e acc then
      .ok ((s.walkTouch st part va).touchPte st part pte e acc.writes)
        (.phys (pteClass e) ((tlbOf part (va / 65536) e block).phys va) (fld e 52 12))
    else .refused (s.walkTouch st part va)

/-- A translation request of an engine at a core's flight port (R181, R207): the TLBs, then the miss-pending table, then
a walk, which fills both TLBs. The reads of a walk that finds the page not present are made as its fault is (`pageFaulted`). -/
def State.portWalk (s : State) (core part va : Nat) (acc : Access) : UnitRes :=
  let st := storeyOf core
  match s.translate core part va acc with
  | .ok s1 e => .ok s1 (.phys e.cls (e.phys va) e.key)
  | .wait _ =>
    if (s.pendingPage st (va / 65536)).isSome || 32 ≤ (s.storey st).pending.length then .absent s
    else match s.walk st part va with
    | .absent => .absent s
    | .malformed => .refused (s.walkTouch st part va)
    | .leaf pte e block =>
      if s.pteAllows part e acc then
        let te := tlbOf part (va / 65536) (pteTouched e acc.writes) block
        .ok ((((s.walkTouch st part va).touchPte st part pte e acc.writes).fillL2 st te).fillL1 (flightOf core) te)
          (.phys te.cls (te.phys va) te.key)
      else .refused (s.walkTouch st part va)

/-- Bytes of global memory as a storey's unit reads them: one read that stays in a page. -/
def State.readGlobal (s : State) (st part va n : Nat) : UnitRes × List Byte :=
  match s.unitWalk st part va .read with
  | .ok s' l => (.ok (s'.reach st part 0 l) l, s'.readLoc part l n)
  | r => (r, [])

/-- The same at a core's flight port. -/
def State.readPort (s : State) (core part va n : Nat) : UnitRes × List Byte :=
  match s.portWalk core part va .read with
  | .ok s' l => (.ok (s'.reach (storeyOf core) part 0 l) l, s'.readLoc part l n)
  | r => (r, [])

end Sys2Proof.Machine
end

