-- ==== Sys2Proof/Machine/Image.lean ====
section
/-!
DEFINITION. Image: the saved image of a pre-empted thread as it lies in its storey's save area (R396-R401): the
header, the live section, the coded section and its coder, and the descriptor of a sketch (R313).
-/

namespace Sys2Proof.Machine

open Sys2Proof

/-! ### Bytes of a partition's global memory -/

/-- How a write of a storey's save area ends: done; refused by a page; or waiting for a page whose writes a migration holds
(R185). -/
inductive VaWrite where
  | ok (s : State)
  | refused
  | held

/-- Writes bytes at a global address in units of 64. -/
def State.writeVa (st part : Nat) : Nat → State → Nat → List Byte → VaWrite
  | 0, s, _, _ => .ok s
  | n + 1, s, va, bs =>
    if bs.isEmpty then .ok s
    else match s.unitWalk st part va .write with
    | .ok s1 l =>
      if s1.migrationHolds l then .held
      else State.writeVa st part n ((s1.countAt st part l).writeLoc part 0 l (bs.take 64)) (va + 64) (bs.drop 64)
    | _ => .refused

/-- Reads units of 64 bytes of global memory. -/
def State.readVa (st part : Nat) : Nat → State → Nat → State × Option (List Byte)
  | 0, s, _ => (s, some [])
  | n + 1, s, va =>
    match s.readGlobal st part va 64 with
    | (.ok s1 _, bs) => ((State.readVa st part n s1 (va + 64)).1, (State.readVa st part n s1 (va + 64)).2.map fun r => bs ++ r)
    | (.absent s1, _) => (s1, none)
    | (.refused s1, _) => (s1, none)

/-- The bits of ASTAT (R52). -/
def astatMask : Word := 0x3F

/-! ### Sketch descriptors (R313) -/

/-- The 32 bytes of a descriptor. -/
def Sketch.bytes (k : Sketch) : List Byte :=
  leBytes 8 k.base ++ leBytes 1 k.depth ++ leBytes 1 k.log2w ++ leBytes 1 (wrap 8 k.scale) ++ leBytes 1 0
    ++ leBytes 4 k.salt.toNat ++ leBytes 8 k.stat ++ leBytes 8 0

/-- What a descriptor says: nothing when it is not valid, no sketch when DEPTH = 0. -/
def sketchDesc (bs : List Byte) : Option (Option Sketch) :=
  let base := dwordAt bs 0
  let d := wordAt bs 8 % 256
  let b := wordAt bs 8 / 256 % 256
  let e := sval 8 (wordAt bs 8 / 65536)
  let stat := dwordAt bs 16
  if d = 0 then some none
  else if (d == 1 || d == 3 || d == 5 || d == 7) && decide (4 ≤ b) && decide (b ≤ 24) && decide (e ≤ 96)
      && wordAt bs 8 / 2 ^ 24 == 0 && dwordAt bs 24 == 0 && base % 1024 == 0 && stat % 4 == 0
      && decide (stat < 2 ^ 48) && decide (base + 4 * d * 2 ^ b ≤ 2 ^ 48)
  then some (some { base := base, depth := d, log2w := b, scale := e, salt := BitVec.ofNat 32 (wordAt bs 12), stat := stat })
  else none

/-! ### Header and live section (R397-R398) -/

/-- SOWN and the word at 0x08. -/
def Regs.sownWord (r : Regs) : Word := setBit r.sOwn 0 false
def Regs.vkownWord (r : Regs) : Word :=
  BitVec.ofNat 32 (r.vOwn.toNat + 65536 * (r.kOwn.toNat / 2 * 2))

def Regs.sOwned (r : Regs) (n : Nat) : Word := if r.sOwn.getLsbD n then r.s.lookD n 0 else 0
def Regs.vOwned (r : Regs) (n : Nat) : VWord := if r.vOwn.getLsbD n then r.v.lookD n 0 else 0

def ThreadKind.item : ThreadKind → Nat
  | .impression _ _ item _ _ => item
  | _ => 0

def ThreadKind.depth : ThreadKind → Nat
  | .impression _ _ _ _ depth => depth
  | _ => 0

/-- The SET bits of tags 0-31 or 32-63. -/
def Thread.setBits (t : Thread) (hi : Bool) : Word :=
  (List.range 32).foldl (fun w i => setBit w i (t.tags.lookD (if hi then 32 + i else i) {}).set) 0

def headerBytes (t : Thread) (slotid len : Nat) : List Byte :=
  leBytes 4 len ++ leBytes 4 t.regs.sownWord.toNat ++ leBytes 4 t.regs.vkownWord.toNat
    ++ leBytes 4 (t.regs.sFull &&& t.regs.sownWord).toNat ++ leBytes 4 (t.regs.vFull &&& t.regs.vOwn).toNat
    ++ leBytes 4 t.unack ++ leBytes 4 (t.setBits false).toNat ++ leBytes 4 (t.setBits true).toNat
    ++ leBytes 16 t.written.toNat ++ leBytes 4 t.kind.item ++ leBytes 4 slotid ++ leBytes 8 0

/-- The two words of a tag. -/
def TagSt.imageBytes (g : TagSt) : List Byte :=
  leBytes 4 (g.inflight % 256 + (if g.err then 256 else 0) + (if g.shape then 512 else 0) + g.cause % 32 * 65536)
    ++ leBytes 4 g.recorded.toNat

/-- The 80 bytes of a collective record. -/
def collBytes (r : Option CollRec) : List Byte :=
  match r with
  | none => List.replicate 80 0
  | some r => leBytes 4 (r.group % 64 + 256 + (if r.ready then 512 else 0) + (if r.vec then 1024 else 0))
      ++ List.replicate 12 0 ++ vbytes r.result

def liveBytes (t : Thread) : List Byte :=
  ((List.range 16).map fun i => leBytes 4 (t.regs.sOwned (16 + i)).toNat).flatten
    ++ ((List.range 8).map fun i => vbytes (t.regs.vOwned (8 + i))).flatten
    ++ ((List.range 64).map fun i => (t.tags.lookD i {}).imageBytes).flatten
    ++ ((List.range 4).map fun i => collBytes t.colls[i]?).flatten

/-! ### The coded section (R399-R400) -/

/-- A segment register as SEGRD reads it. -/
def Seg.words (g : Seg) : List Word :=
  let sc := match g.scope with
    | .core => 0
    | .flt => 1
    | .sty => 2
    | .pkg => 3
    | .sys => 4
  [g.base.truncate 32, BitVec.ofNat 32 (g.base.toNat / 2 ^ 32), g.limit, BitVec.ofNat 32 (g.rights.toNat + 65536 * sc)]

/-- The 256 state words. -/
def stateWords (t : Thread) : List Word :=
  let y := t.sys
  let fenced := t.fencedTrap.getD 0
  [t.pc, y.tstatus, y.tvec, y.tpc, y.tcause, y.tval, y.tvalh, y.tscratch, y.sdtL, y.sdtH, y.astat, y.cycLatch,
    BitVec.ofNat 32 ((if t.trapActive then 1 else 0) + (if t.fencedTrap.isSome then 2 else 0)),
    fenced.truncate 32, BitVec.ofNat 32 (fenced.toNat / 2 ^ 32), BitVec.ofNat 32 t.kind.depth]
  ++ ((List.range 8).map fun i => (t.segs.lookD i {}).words).flatten
  ++ t.savedSeg.words
  ++ [t.fmt, t.super]
  ++ ((List.range 8).map fun i => match t.sketches.look i with
      | some k => wordsOf k.bytes
      | none => List.replicate 8 (0 : Word)).flatten
  ++ ((List.range 32).map fun i =>
      let a := t.arrivals.lookD i {}
      [Word.ofBool a.arr, a.gen]).flatten
  ++ List.replicate 74 0

/-- The granules that GMAP marks. -/
def markedGranules (w : BitVec 128) : List Nat := (List.range 128).filter fun g => w.getLsbD g

/-- The stream of a thread, with the words of its written granules, before the padding. -/
def imageStream (t : Thread) (gran : Nat → List Byte) : List Word :=
  stateWords t
    ++ ((List.range 16).filter fun n => n != 0 && t.regs.sOwn.getLsbD n).map (fun n => t.regs.s.lookD n 0)
    ++ (((List.range 8).filter fun n => t.regs.vOwn.getLsbD n).map fun n => wordsOf (vbytes (t.regs.v.lookD n 0))).flatten
    ++ (((List.range 8).filter fun n => n != 0 && t.regs.kOwn.getLsbD n).map
        fun n => wordsOf (leBytes 8 (t.regs.k.lookD n 0).toNat)).flatten
    ++ ((markedGranules t.written).map fun g => wordsOf (gran g)).flatten

/-- A stream padded with zero words to a multiple of 8. -/
def padWords (ws : List Word) : List Word := ws ++ List.replicate ((8 - ws.length % 8) % 8) 0

/-- The codes of words after a previous one. -/
def codesOf : Word → List Word → List Nat
  | _, [] => []
  | p, w :: r => (if w = 0 then 0 else if w = p then 1 else 2) :: codesOf w r

/-- One group: its control bytes and its literals. -/
def codeGroup (prev : Word) (ws : List Word) : List Byte :=
  let cs := codesOf prev ws
  let ctl : List Nat → Byte := fun l => BitVec.ofNat 8 (l.foldr (fun c acc => c + 4 * acc) 0)
  [ctl (cs.take 4), ctl (cs.drop 4)] ++ (((ws.zip cs).filter fun p => p.2 == 2).map fun p => leBytes 4 p.1.toNat).flatten

/-- The coder: groups of 8 words. -/
def codeStream : Nat → Word → List Word → List Byte
  | 0, _, _ => []
  | n + 1, prev, ws =>
    if ws.isEmpty then []
    else codeGroup prev (ws.take 8) ++ codeStream n ((ws.take 8).getLastD prev) (ws.drop 8)

/-- One word by its code: the word and the bytes left. -/
def decodeWord (prev : Word) (code : Nat) (bs : List Byte) : Option (Word × List Byte) :=
  match code with
  | 0 => some (0, bs)
  | 1 => some (prev, bs)
  | 2 => if bs.length < 4 then none else some (BitVec.ofNat 32 (leNat (bs.take 4)), bs.drop 4)
  | _ => none

/-- Words of a group, by their codes. -/
def decodeCodes : List Nat → Word → List Byte → Option (List Word × List Byte)
  | [], _, bs => some ([], bs)
  | c :: r, prev, bs =>
    match decodeWord prev c bs with
    | none => none
    | some (w, bs') => (decodeCodes r w bs').map fun p => (w :: p.1, p.2)

/-- Groups of a coded section. -/
def decodeStream : Nat → Word → List Byte → Option (List Word × List Byte)
  | 0, _, bs => some ([], bs)
  | n + 1, prev, bs =>
    match bs with
    | b0 :: b1 :: r =>
      let cs := (List.range 4).map (fun i => fld b0.toNat (2 * i) 2) ++ (List.range 4).map fun i => fld b1.toNat (2 * i) 2
      match decodeCodes cs prev r with
      | none => none
      | some (ws, r') => (decodeStream n (ws.getLastD prev) r').map fun p => (ws ++ p.1, p.2)
    | _ => none

/-! ### Whole images -/

/-- The bytes of an image. -/
def imageBytes (t : Thread) (slotid : Nat) (gran : Nat → List Byte) : List Byte :=
  let ws := padWords (imageStream t gran)
  let coded := codeStream (ws.length / 8) 0 ws
  headerBytes t slotid (0x5C0 + coded.length) ++ liveBytes t ++ coded

/-- The save area's address (R396) and the blocks of it that images hold. -/
def State.saveBase (s : State) (st : Nat) : Nat :=
  fieldOf (s.storey st).saveH 0 16 * 2 ^ 32 + fieldOf (s.storey st).saveL 12 20 * 4096
def State.imagesOf (s : State) (st : Nat) : List Image := (s.images.filter fun p => storeyOf (coreOf p.2.slot) == st).map Prod.snd
def State.freeBlocks (s : State) (st : Nat) : Nat :=
  (s.storey st).saveCnt - (s.imagesOf st).foldl (fun n im => n + im.blocks) 0

/-- The lowest run of `n` free blocks. -/
def State.blockRun (s : State) (st n : Nat) : Option Nat :=
  let used := s.imagesOf st
  let starts := (0 :: used.map fun im => im.block + im.blocks).filter fun b =>
    decide (b + n ≤ (s.storey st).saveCnt) && used.all fun im => decide (b + n ≤ im.block) || decide (im.block + im.blocks ≤ b)
  minBy id starts

def State.imageVa (s : State) (im : Image) : Nat := s.saveBase (storeyOf (coreOf im.slot)) + 4096 * im.block

/-- Writes the header and the live section of an image again, after an event changed them (R402). While a migration holds the
page's writes, they wait for its flip (R185). -/
def State.syncImage (s : State) (k : Nat) : State :=
  match s.images.look k with
  | none => s
  | some im =>
    let st := storeyOf (coreOf im.slot)
    let part := (s.partOf (coreOf im.slot)).getD 16
    match s.readGlobal st part (s.imageVa im) 4 with
    | (.ok s1 _, bs) =>
      match State.writeVa st part 23 s1 (s.imageVa im) (headerBytes im.thread im.slot (leNat bs) ++ liveBytes im.thread) with
      | .ok s2 => s2
      | _ => s
    | _ => s

/-- What a resume reads: the thread, and the granules to write back. The hint of a segment register, and the scopes of a
collective record and of a tag's deliveries, which an image has no field for, stay as they were (log 37, DESIGN CHOICE). -/
def imageRead (im : Image) (bs : List Byte) : Option (Thread × List (Nat × List Byte)) :=
  let t := im.thread
  let sown : Word := BitVec.ofNat 32 (wordAt bs 4)
  let vk := wordAt bs 8
  let gmap : BitVec 128 := BitVec.ofNat 128 (leNat ((bs.drop 0x20).take 16))
  let sl := (List.range 16).filter fun n => n != 0 && sown.getLsbD n
  let vl := (List.range 8).filter fun n => vk / 2 ^ n % 2 == 1
  let kl := (List.range 8).filter fun n => n != 0 && vk / 2 ^ (16 + n) % 2 == 1
  let gl := markedGranules gmap
  let total := 256 + sl.length + 16 * vl.length + 2 * kl.length + 1024 * gl.length
  match decodeStream ((total + 7) / 8) 0 ((bs.take (wordAt bs 0)).drop 0x5C0) with
  | none => none
  | some (ws, rest) =>
    if !rest.isEmpty || bs.length < wordAt bs 0 then none
    else
      let w : Nat → Word := fun i => ws.getD i 0
      let seg : Nat → Seg → Seg := fun i old =>
        { base := w (i + 1) ++ w i, limit := w (i + 2), rights := (w (i + 3)).truncate 16
          scope := match fieldOf (w (i + 3)) 16 3 with
            | 0 => .core
            | 1 => .flt
            | 2 => .sty
            | 3 => .pkg
            | _ => .sys
          hint := old.hint }
      let o1 := 256 + sl.length
      let o2 := o1 + 16 * vl.length
      let o3 := o2 + 2 * kl.length
      let bit : Nat → Nat → Bool := fun off i => wordAt bs off / 2 ^ i % 2 == 1
      let regs : Regs :=
        { s := sl.zipIdx.map (fun p => (p.1, w (256 + p.2)))
            ++ ((List.range 16).filter fun i => sown.getLsbD (16 + i)).map fun i => (16 + i, BitVec.ofNat 32 (wordAt bs (0x40 + 4 * i)))
          v := vl.zipIdx.map (fun p => (p.1, vofBytes (bytesOf ((ws.drop (o1 + 16 * p.2)).take 16))))
            ++ ((List.range 8).filter fun i => vk / 2 ^ (8 + i) % 2 == 1).map fun i => (8 + i, vofBytes ((bs.drop (0x80 + 64 * i)).take 64))
          k := kl.zipIdx.map fun p => (p.1, w (o2 + 2 * p.2 + 1) ++ w (o2 + 2 * p.2))
          sFull := BitVec.ofNat 32 (wordAt bs 12) ||| ~~~sown
          vFull := BitVec.ofNat 16 (wordAt bs 16) ||| ~~~(BitVec.ofNat 16 vk)
          sOwn := setBit sown 0 (t.regs.sOwn.getLsbD 0)
          vOwn := BitVec.ofNat 16 vk
          kOwn := setBit (BitVec.ofNat 8 (vk / 65536)) 0 (t.regs.kOwn.getLsbD 0) }
      let tag : Nat → TagSt := fun i =>
        let x := wordAt bs (0x280 + 8 * i)
        { set := if i < 32 then bit 0x18 i else bit 0x1C (i - 32), inflight := x % 256, err := x / 256 % 2 == 1
          shape := x / 512 % 2 == 1, cause := x / 65536 % 32, recorded := BitVec.ofNat 32 (wordAt bs (0x284 + 8 * i)), sys := (t.tags.lookD i {}).sys }
      let colls := (List.range 4).filterMap fun i =>
        let x := wordAt bs (0x480 + 80 * i)
        if x / 256 % 2 = 0 then none
        else some { group := x % 64, vec := x / 1024 % 2 == 1, sys := ((t.colls[i]?).map CollRec.sys).getD false
                    ready := x / 512 % 2 == 1, result := vofBytes ((bs.drop (0x490 + 80 * i)).take 64) : CollRec }
      let kind := match t.kind with
        | .impression a b c d _ => .impression a b c d (w 15).toNat
        | k => k
      let t' : Thread := { t with
        kind := kind
        pc := w 0
        regs := regs
        segs := (List.range 8).map fun i => (i, seg (16 + 4 * i) (t.segs.lookD i {}))
        sys := { astat := w 10 &&& astatMask, tstatus := w 1, tvec := w 2, tpc := w 3, tcause := w 4, tval := w 5, tvalh := w 6
                 tscratch := w 7, sdtL := w 8, sdtH := w 9, cycLatch := w 11 }
        tags := ((List.range 64).map fun i => (i, tag i)).filter fun p => p.2 != {}
        unack := wordAt bs 0x14 % 1024
        trapActive := (w 12).getLsbD 0
        fencedTrap := if (w 12).getLsbD 1 then some (w 14 ++ w 13) else none
        savedSeg := seg 48 t.savedSeg
        fmt := w 52
        super := w 53
        sketches := (List.range 8).filterMap fun i => match sketchDesc (bytesOf ((ws.drop (54 + 8 * i)).take 8)) with
          | some (some k) => some (i, k)
          | _ => none
        arrivals := ((List.range 32).map fun i =>
          (i, ({ arr := (w (118 + 2 * i)).getLsbD 0, gen := w (119 + 2 * i) } : Arrival))).filter fun p => p.2 != {} && !im.dropped.contains p.1
        colls := colls
        written := gmap }
      some (t', gl.zipIdx.map fun p => (p.1, bytesOf ((ws.drop (o3 + 1024 * p.2)).take 1024)))

end Sys2Proof.Machine
end

