-- ==== Sys2Proof/Machine/Ops.lean ====
section
/-!
DEFINITION. Ops: the operations that every instruction shares: registers with presence and ownership, the
queues of slot 0, parking, acknowledgement counting, tags, segment descriptors, taking a trap and returning.
-/

namespace Sys2Proof.Machine

open Sys2Proof

/-! ### Threads in slots and in images -/

def State.anyThr? (s : State) (id : Nat) : Option Thread :=
  if id < imageBase then s.thr? id else (s.images.look (id - imageBase)).map Image.thread

def State.modAny (s : State) (id : Nat) (f : Thread → Thread) : State :=
  if id < imageBase then s.modThr id f
  else match s.images.look (id - imageBase) with
    | none => s
    | some im => ({ s with images := s.images.put (id - imageBase) { im with thread := f im.thread } }).syncImage (id - imageBase)

/-! ### The communication thread's queues (R328-R329) -/

/-- Words that a send header calls for, with itself. -/
def packetWords (h : Word) : Nat := 1 + (if h.getLsbD 18 then 2 else 0) + fieldOf h 8 4

/-- A receive header. -/
def recvHeader (core bounce remote len utag : Nat) : Word :=
  BitVec.ofNat 32 (core * 2 ^ 19 + bounce * 2 ^ 18 + remote * 2 ^ 17 + len * 256 + utag)

/-- Sends one whole packet, or returns it to its sender. -/
def State.sendPacket (s : State) (core : Nat) (cls : NetClass) (ws : List Word) : State :=
  match ws with
  | [] => s
  | h :: rest =>
    let x := h.getLsbD 18
    let payload := if x then rest.drop 2 else rest
    let dest := fieldOf h 19 13
    let ext := (rest.headD 0).toNat
    let group := ((rest.drop 1).headD 0).toNat
    let part := (s.partOf core).getD 16
    let bad : Bool := fieldOf h 12 6 ≠ 0 || (!x && s.partOf dest ≠ some part) || (x && !Config.groupKeys part group)
    let utag := fieldOf h 0 8
    if bad then
      s.send cls core core (.packet cls core core (recvHeader dest 1 0 payload.length utag :: payload))
    else if x then
      s.send cls core (20000 + ext) (.away cls core ext group (recvHeader dest 0 1 payload.length utag :: payload) (flowPort ext))
    else
      s.send cls core dest (.packet cls core dest (recvHeader core 0 0 payload.length utag :: payload))

/-- A word written to s29 or s31: it joins the send queue, and the packet leaves with its last word. -/
def State.enqueue (s : State) (core : Nat) (cls : NetClass) (v : Word) : State :=
  let q := (if cls = .request then (s.core core).txReq else (s.core core).txColl) ++ [v]
  let put : State → List Word → State := fun s l =>
    s.modCore core fun c => if cls = .request then { c with txReq := l } else { c with txColl := l }
  if packetWords (q.headD 0) ≤ q.length then (put s []).sendPacket core cls q else put s q

/-! ### Registers (R125-R126, R105, R120) -/

/-- The forme that an impression reads. -/
def State.formeOf (s : State) (id : Nat) : Option Forme :=
  match (s.thr id).kind with
  | .impression _ f _ _ _ => (s.core (coreOf id)).formes.look f
  | _ => none

/-- The registers that a thread sees where it does not own one. -/
def State.under (s : State) (id : Nat) : Regs := ((s.formeOf id).map Forme.regs).getD {}

def State.sOf (s : State) (id n : Nat) : Word :=
  if n = 0 then 0
  else if (s.thr id).regs.sOwn.getLsbD n then (s.thr id).regs.s.lookD n 0 else (s.under id).s.lookD n 0

def State.vOf (s : State) (id n : Nat) : VWord :=
  if (s.thr id).regs.vOwn.getLsbD n then (s.thr id).regs.v.lookD n 0 else (s.under id).v.lookD n 0

def State.kOf (s : State) (id n : Nat) : Mask :=
  if n = 0 then BitVec.allOnes 64
  else if (s.thr id).regs.kOwn.getLsbD n then (s.thr id).regs.k.lookD n 0 else (s.under id).k.lookD n 0

/-- Presence of a scalar register; in slot 0 the queue registers show their queues (R120). -/
def State.sFullOf (s : State) (id n : Nat) : Bool :=
  if n = 0 then true
  else if slotOf id = 0 && 28 ≤ n then
    let c := s.core (coreOf id)
    if n = 28 then !c.rxReq.isEmpty
    else if n = 29 then decide (64 ≤ c.txReq.length)
    else if n = 30 then !c.rxColl.isEmpty
    else decide (64 ≤ c.txColl.length)
  else if (s.thr id).regs.sOwn.getLsbD n then (s.thr id).regs.sFull.getLsbD n
  else (s.under id).sFull.getLsbD n

def State.vFullOf (s : State) (id n : Nat) : Bool :=
  if (s.thr id).regs.vOwn.getLsbD n then (s.thr id).regs.vFull.getLsbD n else (s.under id).vFull.getLsbD n

/-- The issuing thread's registers. -/
def State.rS (s : State) (n : Nat) : Word := s.sOf s.cur n
def State.rV (s : State) (n : Nat) : VWord := s.vOf s.cur n
def State.rK (s : State) (n : Nat) : Mask := s.kOf s.cur n

/-- Registers with a scalar register owned, full and holding a value. -/
def Regs.putS (r : Regs) (n : Nat) (v : Word) : Regs :=
  { r with s := r.s.put n v, sFull := setBit r.sFull n true, sOwn := setBit r.sOwn n true }
def Regs.putV (r : Regs) (n : Nat) (v : VWord) : Regs :=
  { r with v := r.v.put n v, vFull := setBit r.vFull n true, vOwn := setBit r.vOwn n true }
def Regs.putK (r : Regs) (n : Nat) (v : Mask) : Regs :=
  { r with k := r.k.put n v, kOwn := setBit r.kOwn n true }

def State.modRegs (s : State) (id : Nat) (f : Regs → Regs) : State :=
  s.modThr id fun t => { t with regs := f t.regs }

/-- A full write of a scalar register by the issuing thread. s0 discards it; in slot 0, s29 and s31 send it,
and s28 and s30, whose queues only the network fills, discard it (log 7, DESIGN CHOICE). -/
def State.wS (s : State) (n : Nat) (v : Word) : State :=
  if n = 0 then s
  else if slotOf s.cur = 0 && 28 ≤ n then
    if n = 29 then s.enqueue s.myCore .request v
    else if n = 31 then s.enqueue s.myCore .collective v
    else s
  else s.modRegs s.cur fun r => r.putS n v

/-- A result register that a delivery has filled is not that any more (R229). -/
def Thread.stale (t : Thread) (n : Nat) : Thread := { t with fresh := t.fresh.del n }

/-- A full write of a vector register. -/
def State.wV (s : State) (n : Nat) (v : VWord) : State :=
  s.modThr s.cur fun t => { t with regs := t.regs.putV n v, fresh := t.fresh.del n }

/-- A late result for the issuing thread's register `n` (vector registers from 32 on): one that a remote fill has written in
the same cycle keeps the fill (R128). -/
def State.keepFill (s : State) (n : Nat) (written : State) : State :=
  if s.me.filled.look n = some s.cycle then s else written

/-- A full write of a mask register; k0 discards it. -/
def State.wK (s : State) (n : Nat) (v : Mask) : State :=
  if n = 0 then s else s.modRegs s.cur fun r => r.putK n v

/-- Delays the issuing thread's earliest next issue. -/
def State.delay (s : State) (n : Nat) : State := s.modMe fun t => { t with early := t.early + n }

/-- A template copy fault delays the issuing thread by 24 cycles (R108). -/
def State.copyFault (s : State) : State :=
  s.modMe fun t => { t with early := t.early + 24, copying := max t.copying s.cycle + 24 }

/-- A write of some bytes of a vector register: what a delivery has filled and nothing has read stays so (R229). -/
def State.wVkeep (s : State) (n : Nat) (v : VWord) : State := s.modRegs s.cur fun r => r.putV n v

/-- A partial write (R105): a register that is not owned takes a register copy fault of 4 cycles (R106). -/
def State.wVpart (s : State) (n : Nat) (v : VWord) : State :=
  if s.me.regs.vOwn.getLsbD n then s.wVkeep n v else (s.wVkeep n v).delay 4
def State.wKpart (s : State) (n : Nat) (v : Mask) : State :=
  if n = 0 then s
  else if s.me.regs.kOwn.getLsbD n then s.wK n v else (s.wK n v).delay 4

/-- A write of a vector register under a mask register: partial unless the mask is k0. -/
def State.wVm (s : State) (k n : Nat) (v : VWord) : State := if k = 0 then s.wV n v else s.wVpart n v

/-- Empties the result register of a READ or TAKE, which keeps its value (R126, R105). -/
def State.emptyV (s : State) (n : Nat) : State :=
  let v := s.rV n
  s.modThr s.cur fun t => { t with
    regs := { t.regs with v := t.regs.v.put n v, vFull := setBit t.regs.vFull n false, vOwn := setBit t.regs.vOwn n true }
    fresh := t.fresh.del n }

/-! ### Parking (R123) -/

def Thread.tagOf (t : Thread) (n : Nat) : TagSt := t.tags.lookD n {}

/-- A tag of a mask that satisfies a condition: the lowest. -/
def Thread.tagWhere (t : Thread) (mask : BitVec 64) (p : TagSt → Bool) : Option Nat :=
  leastBelow 64 fun n => mask.getLsbD n && p (t.tagOf n)

/-- An operation that waits at a thread's end: EXIT and FREEZE (R102, R152). -/
def State.quiet (s : State) (id : Nat) (t : Thread) : Bool :=
  t.unack == 0 && (t.tagWhere (BitVec.allOnes 64) fun g => g.inflight != 0).isNone
    && !((s.core (coreOf id)).mx.queue.any fun e => e.slot == id)
    && !((s.core (coreOf id)).wcb.any fun e => e.slot == id)

/-- Stores of a thread that its core still combines: each will count once in UNACK (R170). -/
def State.combined (s : State) (id : Nat) : Nat := (s.core (coreOf id)).wcb.countP fun e => e.slot == id

/-- UNACK leaves room for `n` more requests below 1,024 (R159). -/
def State.unackRoom (s : State) (id : Nat) (t : Thread) (n : Nat) : Bool := decide (t.unack + s.combined id + n ≤ 1023)

/-- Watches that a home holds: 256 a core, 16,384 a slice (R210). -/
def State.watchFull (s : State) (l : Loc) : Bool :=
  let home := s.unitOf l
  let n := s.acts.countP fun a => match a.2.kind with
    | .watch _ l' _ _ _ => s.unitOf l' == home
    | .trigger _ l' _ _ _ => s.unitOf l' == home
    | _ => false
  match l with
  | .sram _ _ => decide (256 ≤ n)
  | _ => decide (16384 ≤ n)

/-- A collective node holds a partial round of its group (R339). -/
def CollNode.busy (x : CollNode) : Bool :=
  (x.entry.any CollEntry.en) && !(x.locals.isEmpty && x.partials.isEmpty)

/-- The condition of a wait holds no longer, so that the instruction can issue again. -/
def State.cleared (s : State) (id : Nat) (t : Thread) : Wait → Bool
  | .reg n => s.sFullOf id n
  | .vreg n => s.vFullOf id n
  | .room n => !s.sFullOf id n
  | .unackZero => t.unack == 0 && !((s.core (coreOf id)).wcb.any fun e => e.slot == id)
  | .unackRoom n => s.unackRoom id t n
  | .tagRoom n => decide ((t.tagOf n).inflight < 255)
  | .tagSet m => (t.tagWhere m fun g => g.set).isSome || (t.tagWhere m fun g => g.inflight != 0).isNone
  | .tagIdle m => (t.tagWhere m fun g => g.inflight != 0).isNone
  | .reply _ => false
  | .answer => t.ans.isSome
  | .counter => t.ans.isSome
  | .sketchZero => t.unack == 0 && !((s.core (coreOf id)).wcb.any fun e => e.slot == id)
  | .fillOf _ => t.ans.isSome
  | .page st pg _ _ => (s.pendingPage st pg).isNone
  | .walkRoom st => decide ((s.storey st).pending.length < 32)
  | .split c off n => !(s.core c).movingBytes off n && !s.coreWiping c
  | .descPage st pg => (s.pendingPage st pg).isNone
  | .mxRoom => decide ((s.core (coreOf id)).mx.queue.length < 2)
  | .latch n =>
    let m := (s.core (coreOf id)).mx
    match if n = 0 then m.latch0 else m.latch1 with
      | .outgoing _ => false
      | .full _ => !(m.queue.any fun e => e.latch == n)
      | .empty => true
  | .copyRoom => decide ((s.core (coreOf id)).copies < 32)
  | .watchRoom l => !s.watchFull l
  | .triggers => decide (t.armed < 16)
  | .flip l => !(t.arrivals.lookD l {}).arr || (s.pkg.landings.lookD l {}).seenGen != (t.arrivals.lookD l {}).gen
  | .collReady g => t.colls.any fun r => r.group == g && r.ready
  | .join => t.nested.isEmpty
  | .taskRoom => decide (s.pkg.tasks.length < 4096) && s.pkg.thr != 3
  | .quiet => s.quiet id t
  | .deferred => false
  | .groupIdle ne n g => !(s.node ne n g).busy

/-- Sends the write-combining buffer's entries of a core: each counts once in UNACK (R170). -/
def State.flushWcb (s : State) (core : Nat) (p : WcEntry → Bool) : State :=
  let out := (s.core core).wcb.filter p
  if out.isEmpty then s
  else
  let s1 := s.modCore core fun c => { c with wcb := c.wcb.filter fun e => !p e }
  out.foldl (fun s e =>
    (s.addUnack e.slot).post ((e.pieces.map fun q => (0, core, s.unitOf q.loc)).dedup) (.store e.slot e.addr e.hint e.pieces)) s1

/-- Parks the issuing thread. A page that misses takes an entry of the miss-pending table, or the thread waits
for one; a wait for acknowledgements sends what the write-combining buffer holds (log 5, DEDUCED). -/
def State.park (s : State) (w : Wait) : State :=
  let set : State → Wait → State := fun s w => s.modMe fun t => { t with park := some w }
  match w with
  | .page st pg acc _ =>
    let s1 := s.joinPending st pg acc (flightOf s.myCore)
    if (s1.pendingPage st pg).isSome then set s1 w else set s (.walkRoom st)
  | .unackZero => set (s.flushWcb s.myCore fun _ => true) w
  | .sketchZero => set (s.flushWcb s.myCore fun _ => true) w
  | .quiet => set (s.flushWcb s.myCore fun _ => true) w
  | _ => set s w

/-- The wait before a release (R172, R199): UNACK = 0 once the write-combining buffer is sent, so no entry of the thread
may be left in it. Entries of other threads are sent when the thread goes on (`sendAll`). -/
def State.relWait (s : State) : Option Wait :=
  if s.me.unack = 0 && !((s.core s.myCore).wcb.any fun e => e.slot == s.cur) then none else some .unackZero

/-- A release that goes on leaves the write-combining buffer empty (R170, R199-R200). -/
def State.sendAll (s : State) : State := s.flushWcb s.myCore fun _ => true

/-- The wait at a full acknowledgement counter (R159), for `n` requests. -/
def State.unackWaitN (s : State) (n : Nat) : Option Wait := if s.unackRoom s.cur s.me n then none else some (.unackRoom n)
def State.unackWait (s : State) : Option Wait := s.unackWaitN 1

def Scope.no : Scope → Nat
  | .core => 0
  | .flt => 1
  | .sty => 2
  | .pkg => 3
  | .sys => 4

def Scope.ofCode : Nat → Scope
  | 0 => .core
  | 1 => .flt
  | 2 => .sty
  | 3 => .pkg
  | _ => .sys

/-- An acquire (R199): at flight scope or wider it drops the core's cache lines that came through W; at system scope also
the pool lines that the slices hold for the partition (R187). -/
def State.acquire (s : State) (core : Nat) (sc : Scope) : State :=
  if sc = .core then s
  else
    let s1 := s.modCore core fun c => { c with cache := c.cache.filter fun l => !l.w }
    if sc = .sys then s1.dropPoolLines ((s.partOf core).getD 16) else s1

/-! ### Tags (R203) -/

def TagSt.issue (g : TagSt) : TagSt := if g.inflight = 0 then { inflight := 1 } else { g with inflight := g.inflight + 1 }

/-- The completion of an operation on a tag, with the failure it reports; the first failure's cause stays (R205). -/
def TagSt.done (g : TagSt) (err : Bool) (cause : Nat) : TagSt :=
  let g1 := if err && !g.err then { g with err := true, cause := cause } else g
  { g1 with inflight := g.inflight - 1, set := g.inflight - 1 == 0 }

def State.modTag (s : State) (id n : Nat) (f : TagSt → TagSt) : State :=
  s.modAny id fun t => { t with tags := t.tags.put n (f (t.tagOf n)) }

def State.tagIssue (s : State) (id n : Nat) : State := s.modTag id n TagSt.issue
def State.tagDone (s : State) (id n : Nat) (err : Bool) (cause : Nat) : State := s.modTag id n fun g => g.done err cause

/-! ### Segment descriptors (R166-R167) -/

/-- Bits of a base that R164 fixes at zero are zero. -/
def spaceZeros (a : Nat) : Bool :=
  match fld a 62 2 with
  | 0 => fld a 48 14 == 0
  | 1 => fld a 45 17 == 0 && fld a 19 13 == 0
  | 2 => fld a 45 17 == 0 && fld a 12 20 == 0 && fld a 0 2 == 0
  | _ => fld a 48 14 == 0

/-- The first address past the space of an address, before its zero fields. -/
def spaceEnd (a : Nat) : Nat :=
  match fld a 62 2 with
  | 0 => 2 ^ 48
  | 1 => a / 2 ^ 32 * 2 ^ 32 + 2 ^ 19
  | 2 => 2 ^ 63
  | _ => 3 * 2 ^ 62 + 2 ^ 48

/-- A descriptor's segment. -/
def descSeg (d : Nat) : Seg :=
  { base := BitVec.ofNat 64 (fld d 0 64), limit := BitVec.ofNat 32 (fld d 64 32)
    rights := BitVec.ofNat 16 (fld d 96 16), scope := Scope.ofCode (fld d 112 3), hint := BitVec.ofNat 2 (fld d 115 2) }

def descSup (d : Nat) : Bool := fld d 118 1 == 1

/-- A descriptor is valid (R167). -/
def descValid (d : Nat) : Bool :=
  let base := fld d 0 64
  fld d 119 1 == 1 && fld d 120 8 == 0 && fld d 117 1 == 0 && fld d 103 9 == 0 && decide (fld d 112 3 ≤ 4)
    && fld d 115 2 != 3 && fld base 62 2 != 2 && spaceZeros base && (fld base 62 2 != 3 || descSup d)
    && decide (base + fld d 64 32 ≤ spaceEnd base) && !(fld d 97 1 == 1 && fld d 102 1 == 1)

/-- What reading a descriptor of a storey's own units finds. -/
inductive DescRes where
  | ok (s : State) (d : Nat)
  | absent
  | refused (s : State)

/-- Descriptor `i` of a table, read through a core's flight port. A fenced function gives none. -/
def State.readDesc (s : State) (core part base i : Nat) : DescRes :=
  match s.readPort core part (base + 16 * i) 16 with
  | (.ok s' l, bs) => if s'.locFenced l then .refused s' else .ok s' (leNat bs)
  | (.absent _, _) => .absent
  | (.refused s', _) => .refused s'

/-- What consulting an entry of the message vector table finds (R133): with the descriptor's page not present, the class and
the priority that the entry itself gives. -/
inductive VecRes where
  | usable (s : State) (cls prio : Nat) (entry : Word) (seg : Seg)
  | unusable (s : State)
  | absent (page cls prio : Nat)

/-- The storey's table base and LAST for its partition (R70, R156). -/
def State.sdtBase (s : State) (st : Nat) : Nat := fieldOf (s.storey st).sdtb 12 36 * 4096
def State.sdtLast (s : State) (st : Nat) : Nat := fieldOf (s.storey st).sdtb 0 12

/-- Entry `type` of a core's message vector table with the descriptor that it names. -/
def State.vecEntry (s : State) (core type : Nat) : VecRes :=
  let e := leNat (s.sramRead core ((s.core core).mvt + 8 * type) 8)
  let st := storeyOf core
  let cls := fld e 56 2
  let prio := fld e 58 5
  let entry := fld e 0 32
  if fld e 63 1 = 0 || !(cls == 1 || cls == 2) || 23 < prio || fld e 44 12 ≠ 0 || entry % 4 ≠ 0 then .unusable s
  else if s.sdtLast st < fld e 32 12 then .unusable s
  else match s.readDesc core ((s.partOf core).getD 16) (s.sdtBase st) (fld e 32 12) with
    | .absent => .absent ((s.sdtBase st + 16 * fld e 32 12) / 65536) cls prio
    | .refused u => .unusable u
    | .ok s' d =>
      if descValid d && fld d 98 1 == 1 && decide (entry < fld d 64 32)
      then .usable s' cls prio (BitVec.ofNat 32 entry) (descSeg d) else .unusable s'

/-! ### Taking a trap and returning (R385-R388) -/

/-- The registers that a trap saves into. -/
def TSys.trapped (y : TSys) (cause : Nat) (val : Addr) (pc : Word) : TSys :=
  { y with tpc := pc, tcause := BitVec.ofNat 32 cause, tval := val.truncate 32, tvalh := BitVec.ofNat 32 (val.toNat / 2 ^ 32) }

/-- Trap entry of the thread in a slot: TPC, TCAUSE, TVAL and TVALH; the mode to PMODE and MODE set; the code
segment saved and replaced by the trap segment; the pc from TVEC (R387). A thread that is trap-active, or that
finds vector entry 0x3F not usable, ends as EXIT with an error (R388). While the descriptor's page is not
present, the thread waits for it and its instruction, at `again`, issues again (log 28, DEDUCED). -/
def State.takeTrapAt (s : State) (id cause : Nat) (val : Addr) (pc again : Word) : State :=
  let dies : State → State := fun s => s.modThr id fun t =>
    { t with sys := { t.sys.trapped cause val pc with tstatus := t.sys.tstatus ||| 4 }, exiting := true, park := none }
  if (s.thr id).trapActive then dies s
  else match s.vecEntry (coreOf id) 0x3F with
    | .unusable u => dies u
    | .absent page _ _ =>
      let st := storeyOf (coreOf id)
      let s1 := s.pageFaulted st page .read (flightOf (coreOf id))
      s1.modThr id fun t =>
        { t with pc := again, park := some (if (s1.pendingPage st page).isSome then .descPage st page else .walkRoom st) }
    | .usable s' _ _ _ seg => s'.modThr id fun t =>
        { t with
          sys := { t.sys.trapped cause val pc with tstatus := setBit (setBit t.sys.tstatus 1 (t.sys.tstatus.getLsbD 0)) 0 true }
          savedSeg := t.segs.lookD 1 {}
          trapActive := true
          segs := t.segs.put 1 seg
          park := none
          ans := none
          recs := []
          pc := t.sys.tvec }

/-- Trap entry at the pc that the thread has. -/
def State.takeTrap (s : State) (id cause : Nat) (val : Addr) (pc : Word) : State :=
  s.takeTrapAt id cause val pc (s.thr id).pc

/-- TRET (R160, R388): the pc from TPC, the mode from PMODE, and for a trap-active thread the code segment. -/
def State.trapReturn (s : State) (id : Nat) : State :=
  s.modThr id fun t =>
    let y := { t.sys with tstatus := setBit t.sys.tstatus 0 (t.sys.tstatus.getLsbD 1) }
    if t.trapActive then
      { t with pc := t.sys.tpc, sys := y, segs := t.segs.put 1 t.savedSeg, trapActive := false }
    else { t with pc := t.sys.tpc, sys := y }

def Thread.userMode (t : Thread) : Bool := !t.sys.tstatus.getLsbD 0

/-- A register of a thread that waits for it is written by what it is for the issuing thread; the thread goes on. -/
def State.giveTo (s : State) (id : Nat) (f : State → State) : State :=
  match s.thr? id with
  | none => s
  | some _ => { (f { s with cur := id }).modThr id (fun t => { t with park := none }) with cur := s.cur }

/-! ### The end of an instruction -/

/-- How an instruction ends: completed; completed with the pc given; not performed, to issue again; performed,
with the thread parked until an answer is written; sent, to issue again when the answer is there; trapped with no effect; trapped after it completed (R160);
or ended together with its thread. -/
inductive Res where
  | ok (s : State)
  | jump (s : State) (pc : Word)
  | park (w : Wait)
  | hold (s : State) (w : Wait)
  | stay (s : State) (w : Wait)
  | trap (cause : Nat) (val : Addr)
  | trapNext (cause : Nat) (val : Addr)
  | gone (s : State)

/-- Sets the issuing thread's pc: its instruction is over, with the records that it has read. -/
def State.setPc (s : State) (pc : Word) : State := s.modMe fun t => { t with pc := pc, recs := [] }

/-- The state after an instruction that issued in `s`. -/
def State.finish (s : State) : Res → State
  | .ok t => t.setPc (s.me.pc + 4)
  | .jump t pc => t.setPc pc
  | .park w => s.park w
  | .hold t w => t.modMe fun x => { x with pc := s.me.pc + 4, recs := [], park := some w }
  | .stay t w =>
    let c := s.core s.myCore
    (t.modCore s.myCore fun x => { x with rxReq := c.rxReq, rxColl := c.rxColl }).modMe fun x => { x with park := some w }
  | .trap c v => s.takeTrap s.cur c v s.me.pc
  | .trapNext c v => s.takeTrap s.cur c v (s.me.pc + 4)
  | .gone t => t

end Sys2Proof.Machine
end

