-- ==== Sys2Proof/Machine/Operands.lean ====
section
/-!
DEFINITION. Operands: which registers an instruction reads and writes, presence (R123, R137-R138), privilege
(R38), and the addresses and checks of memory operands (R131-R132, R164).
-/

namespace Sys2Proof.Machine

open Sys2Proof

/-! ### Register operands -/

/-- An operand: a scalar or vector source, or a scalar destination. -/
inductive Opnd where
  | s (n : Nat)
  | v (n : Nat)
  | d (n : Nat)
  deriving DecidableEq, Repr

/-- The first operand that is not ready: an empty source, or a send queue without room (R120). -/
def State.blocked (s : State) : List Opnd → Option Wait
  | [] => none
  | .s n :: r => if s.sFullOf s.cur n then s.blocked r else some (.reg n)
  | .v n :: r => if s.vFullOf s.cur n then s.blocked r else some (.vreg n)
  | .d n :: r =>
    if slotOf s.cur = 0 && (n == 29 || n == 31) && s.sFullOf s.cur n then some (.room n) else s.blocked r

/-- The acquire of a READ or TAKE stands at the first instruction that reads the result register which its delivery has
filled (R229): at package scope, or system scope for a system hall. -/
def State.observe (s : State) (ops : List Opnd) : State :=
  let seen := s.me.fresh.filter fun f => ops.contains (.v f.1)
  if seen.isEmpty then s
  else (s.modMe fun t => { t with fresh := t.fresh.filter fun f => !ops.contains (.v f.1) }).acquire s.myCore
    (if seen.any Prod.snd then .sys else .pkg)

/-- In slot 0, takes one entry of each receive queue that a source names, for every field that names it (R138).
A source s29 or s31 reads a value that the spec leaves open (log 7, DESIGN CHOICE). -/
def State.consume (s : State) (ops : List Opnd) : State :=
  if slotOf s.cur ≠ 0 then s
  else
    let hold : State → Nat → Word → State := fun s n v => s.modRegs s.cur fun r => { r with s := r.s.put n v }
    let s1 := if ops.contains (.s 28) then
        (hold s 28 ((s.core s.myCore).rxReq.headD 0)).modCore s.myCore fun c => { c with rxReq := c.rxReq.drop 1 }
      else s
    let s2 := if ops.contains (.s 30) then
        (hold s1 30 ((s1.core s.myCore).rxColl.headD 0)).modCore s.myCore fun c => { c with rxColl := c.rxColl.drop 1 }
      else s1
    let s3 := if ops.contains (.s 29) then hold (s2.drawWord).2 29 (s2.drawWord).1 else s2
    if ops.contains (.s 31) then hold (s3.drawWord).2 31 (s3.drawWord).1 else s3

/-- What reading the operands does before the body. -/
def State.consumeAll (s : State) (ops : List Opnd) : State := (s.consume ops).observe ops

/-- Performs an instruction whose operands are listed: it parks on one that is not ready (R123), and else does
what its body says. -/
def State.perform (s : State) (ops : List Opnd) (body : State → Res) : Host.Outcome State Fault Refusal :=
  match s.thr? s.cur with
  | none => .fault .noThread
  | some _ =>
    match s.blocked ops with
    | some w => .next (s.finish (.park w))
    | none => .next (s.finish (body (s.consumeAll ops)))

/-- The word of an instruction, as a trap value. -/
def wordOf (i : Instr) : Addr := BitVec.ofNat 64 ((encode i).getD 0)

/-- Performs a supervisor-only instruction: PRIV in user mode (R38), before the operands (R386). -/
def State.performPriv (s : State) (i : Instr) (ops : List Opnd) (body : State → Res) : Host.Outcome State Fault Refusal :=
  match s.thr? s.cur with
  | none => .fault .noThread
  | some t => if t.userMode then .next (s.finish (.trap 2 (wordOf i))) else s.perform ops body

/-- An instruction of one scalar result. -/
def State.alu (s : State) (d : Nat) (srcs : List Nat) (f : State → Word) : Host.Outcome State Fault Refusal :=
  s.perform (srcs.map Opnd.s ++ [.d d]) fun t => .ok (t.wS d (f t))

/-! ### Memory operands (R131-R132) -/

def rgtR : Nat := 1
def rgtW : Nat := 2
def rgtX : Nat := 4
def rgtA : Nat := 8
def rgtS : Nat := 16
def rgtC : Nat := 32
def rgtI : Nat := 64

/-- Every right of a mask is present. -/
def Seg.has (g : Seg) (need : Nat) : Bool := g.rights &&& BitVec.ofNat 16 need == BitVec.ofNat 16 need

def State.seg (s : State) (n : Nat) : Seg := s.me.segs.lookD n {}

/-- Base plus offset. -/
def State.segAddr (s : State) (n : Nat) (off : Int) : Addr := (s.seg n).base + BitVec.ofInt 64 off

def spaceOf (a : Addr) : Nat := fieldOf a 62 2
def addrCore (a : Addr) : Nat := fieldOf a 32 13
def addrOff (a : Addr) : Nat := fieldOf a 0 19

/-- The bytes are local memory of the issuing core and touch a guarded region (R98, R169, R427). Bytes that an LCSPLIT
change is moving are judged when the access issues again after it (R168). -/
def State.guardedHere (s : State) (a : Addr) (n : Nat) : Bool :=
  spaceOf a == 1 && addrCore a == s.myCore && (s.core s.myCore).guarded (addrOff a) n
    && !(s.core s.myCore).movingBytes (addrOff a) n

/-- The checks of an access in the order of R131: limit and zero fields, rights with the space rules, alignment.
`spaces` lists the spaces that the access may reach. -/
def State.checkAccess (s : State) (seg : Nat) (off : Int) (size need align : Nat) (spaces : List Nat) : Option (Nat × Addr) :=
  let a := s.segAddr seg off
  if off < 0 || ((s.seg seg).limit.toNat : Int) < off + size || !spaceZeros a.toNat then some (3, a)
  else if !(s.seg seg).has need || !spaces.contains (spaceOf a) || s.guardedHere a size
    || (spaceOf a == 3 && a.toNat % 4 ≠ 0) then some (4, a)
  else if a.toNat % align ≠ 0 then some (5, a)
  else none

/-- The same checks where a rule states the alignment of the offset. -/
def State.checkOffset (s : State) (seg : Nat) (off : Int) (size need align : Nat) (spaces : List Nat) : Option (Nat × Addr) :=
  match s.checkAccess seg off size need 1 spaces with
  | some x => some x
  | none => if off % align ≠ 0 then some (5, s.segAddr seg off) else none

/-- Where an address leads (R164). -/
inductive Target where
  | own (off : Nat)
  | core (core off : Nat)
  | global (va : Nat)
  | sys (kind unit off : Nat)
  deriving DecidableEq, Repr

def State.target (s : State) (a : Addr) : Target :=
  match spaceOf a with
  | 0 => .global (fieldOf a 0 48)
  | 1 => if addrCore a = s.myCore then .own (addrOff a) else .core (addrCore a) (addrOff a)
  | _ => .sys (fieldOf a 44 4) (fieldOf a 32 12) (fieldOf a 0 32)

/-- A core of the issuing thread's storey. -/
def State.inMyStorey (s : State) (core : Nat) : Bool := storeyOf core == storeyOf s.myCore

end Sys2Proof.Machine
end

