-- ==== Sys2Proof/Machine/Access.lean ====
section
/-!
DEFINITION. Access: loads, stores and atomics on the places that an address leads to: the own TCM with the
template window and its granules (R99-R101, R107-R109), the storey's local memories at issue, everything else
as requests in flight (R191, R172), the core cache and the victim pool (R170-R171).
-/

namespace Sys2Proof.Machine

open Sys2Proof

/-! ### The template window (R101, R107) -/

/-- The number of a launch's forme among a core's formes; nested formes bear odd numbers. -/
def formeKey (task : Nat) : Nat := 2 * task

/-- The forme and the template size of a composing thread or impression. -/
def State.window (s : State) (id : Nat) : Option (Nat × Nat × Nat) :=
  match (s.anyThr? id).map Thread.kind with
  | some (.composing t) => (s.task? t).map fun k => (formeKey t, formeKey t, k.hdr.tplSz)
  | some (.impression t f _ _ _) => (s.task? t).map fun k => (f, formeKey t, k.hdr.tplSz)
  | _ => none

/-- The template granule that an own-TCM offset falls in. -/
def State.granuleAt (s : State) (id off : Nat) : Option Nat :=
  match s.window id with
  | some (_, _, sz) => if 0x1000 ≤ off && off < 0x1000 + sz then some ((off - 0x1000) / 256) else none
  | none => none

/-- The granule of the forme area that a thread's template granule reads. -/
def State.granuleMap (s : State) (id g : Nat) : Nat :=
  let t := (s.anyThr? id).getD {}
  let f := match s.window id with
    | some (k, _, _) => (s.core (s.coreOfAny id)).formes.look k
    | none => none
  match t.own.look g with
  | some (.owned x) => x
  | some (.lent x _) => x
  | none => ((f.map Forme.map).getD []).lookD g 0

/-- The local offset that a read of an own-TCM offset reaches. -/
def State.tcmRead (s : State) (id off : Nat) : Nat :=
  match s.granuleAt id off with
  | some g => s.granuleMap id g * 256 + off % 256
  | none => off

/-- Granules of the forme area that nothing holds and no forme reserves (log 40, DESIGN CHOICE). -/
def Core.freeGranules (c : Core) : List Nat :=
  ((List.range c.shSize).map fun i => c.shBase + i).filter fun g => !c.taken.contains g

/-- Takes a granule for an impression of a forme: from the reservation first (R99). -/
def State.takeGranule (s : State) (core fkey : Nat) : Option (Nat × State) :=
  let c := s.core core
  match c.formes.look fkey with
  | some f =>
    match f.reserved with
    | g :: r => some (g, s.modCore core fun c => { c with formes := c.formes.put fkey { f with reserved := r } })
    | [] => c.freeGranules.head?.map fun g => (g, s.modCore core fun c => { c with taken := insertNat g c.taken })
  | none => c.freeGranules.head?.map fun g => (g, s.modCore core fun c => { c with taken := insertNat g c.taken })

/-- Copies a granule's bytes and full/empty bits. -/
def State.copyGranule (s : State) (core src dst : Nat) : State :=
  let s1 := s.modMemory fun m =>
    { m with sram := m.sram.setMany (sramAddr core (dst * 256)) (m.sram.getMany (sramAddr core (src * 256)) 256) }
  (List.range 64).foldl (fun s i => s.setWordFull core (dst * 256 + 4 * i) (s.wordFull core (src * 256 + 4 * i))) s1

/-- A place of a granule that has moved to another one of the core. -/
def granuleMoved (core src dst : Nat) : Loc → Loc
  | .sram c o => if c = core && o / 256 = src then .sram c (256 * dst + o % 256) else .sram c o
  | l => l

/-- The watches and triggers of a thread on words of a granule go with its copy (R107, R210). -/
def State.moveWatches (s : State) (id core src dst : Nat) : State :=
  { s with acts := s.acts.mapVals fun _ a => match a.kind with
      | .watch i l thr sc met => if i = id then { a with kind := .watch i (granuleMoved core src dst l) thr sc met } else a
      | .trigger i l thr fire met => if i = id then { a with kind := .trigger i (granuleMoved core src dst l) thr fire met } else a
      | _ => a }

/-- The local offset that a write of an own-TCM offset reaches, with the template copy fault that an
impression's granule takes first (R107-R108); none when no granule is free. The flag says that one was taken. -/
def State.tcmWrite (s : State) (id off : Nat) : Option (State × Nat × Bool) :=
  match s.granuleAt id off, s.window id with
  | some g, some (_, launch, _) =>
    match (s.anyThr? id).map Thread.kind, ((s.anyThr? id).getD {}).own.look g with
    | some (.composing _), _ => some (s, s.granuleMap id g * 256 + off % 256, false)
    | _, some (.owned x) => some (s, x * 256 + off % 256, false)
    | _, _ =>
      match s.takeGranule (s.coreOfAny id) launch with
      | none => none
      | some (x, s1) =>
        let s2 := (s1.copyGranule (s.coreOfAny id) (s.granuleMap id g) x).moveWatches id (s.coreOfAny id) (s.granuleMap id g) x
        some (s2.modAny id fun t => { t with own := t.own.put g (.owned x) }, x * 256 + off % 256, true)
  | _, _ => some (s, off, false)

/-- Marks a 4 KiB granule that the thread has written (GMAP, R397). -/
def State.markWritten (s : State) (id off : Nat) : State :=
  s.modAny id fun t => { t with written := setBit t.written (off / 4096) true }

/-- A write of own-TCM bytes that lie in one template granule; a fault delays the thread by 24 cycles (R108). -/
def State.writeOwn (s : State) (id off : Nat) (bs : List Byte) : Option State :=
  match s.tcmWrite id off with
  | none => none
  | some (s1, o, fault) =>
    let s2 := if fault then s1.modAny id fun t => { t with early := t.early + 24, copying := max t.copying s.cycle + 24 } else s1
    let s3 := if (s.granuleAt id off).isSome then s2 else s2.markWritten id off
    some (s3.writeLoc (s.myPart) 0 (.sram (s.coreOfAny id) o) bs)

/-! ### A thread's own stores (R218)

A load of a thread that is performed while its own earlier stores are still on their way reads what they carry. -/

/-- Where one place lies in the bytes that start at another. -/
def locOffset : Loc → Loc → Option Int
  | .sram c o, .sram c' o' => if c = c' then some ((o' : Int) - o) else none
  | .phys cl pa _, .phys cl' pa' _ => if cl = cl' then some ((pa' : Int) - pa) else none
  | _, _ => none

/-- Bytes of a place under a store. -/
def overlay (l : Loc) (bs : List Byte) (p : Loc × List Byte) : List Byte :=
  match locOffset l p.1 with
  | none => bs
  | some d => bs.zipIdx.map fun q =>
      let j := (q.2 : Int) - d
      if 0 ≤ j && j < p.2.length then p.2.getD j.toNat 0 else q.1

/-- A request, and the same bounced, as stores of bytes with the thread that made them. -/
def ActKind.stores : ActKind → Option (Nat × List (Loc × List Byte))
  | .store i _ _ ps => some (i, ps.map fun p => (p.loc, p.bytes))
  | .bounced (.store i _ _ ps) => some (i, ps.map fun p => (p.loc, p.bytes))
  | .sync r c o => if r.op = .stff then some (r.slot, [(Loc.sram c o, leBytes 4 r.value.toNat)]) else none
  | _ => none

/-- Stores that have not been performed, of the threads that satisfy a condition, in order: in flight, and in the
write-combining buffer of a core (log 27, DESIGN CHOICE). -/
def State.storesOf (s : State) (core : Nat) (p : Nat → Bool) : List (Loc × List Byte) :=
  (s.acts.map fun a => match a.2.kind.stores with
    | some (i, ps) => if p i then ps else []
    | none => []).flatten
  ++ (((s.core core).wcb.filter fun e => p e.slot).map fun e => e.pieces.map fun q => (q.loc, q.bytes)).flatten

/-- The stores of a thread that have not been performed. -/
def State.pendingStores (s : State) (id : Nat) : List (Loc × List Byte) := s.storesOf (s.coreOfAny id) fun i => i == id

/-- Bytes of a place as a thread reads them. -/
def State.readOwn (s : State) (id part : Nat) (l : Loc) (n : Nat) : List Byte :=
  (s.pendingStores id).foldl (overlay l) (s.readLoc part l n)

/-- Bytes of a place as a core's cache takes them in: with every store of the core's threads that is on its way. -/
def State.readCore (s : State) (core part : Nat) (l : Loc) (n : Nat) : List Byte :=
  (s.storesOf core fun i => s.coreOfAny i == core).foldl (overlay l) (s.readLoc part l n)

/-! ### Remap windows (R362-R364) -/

/-- The remap window of a partition that holds a global address. -/
def State.windowAt (s : State) (part va : Nat) : Option Window :=
  ((s.part part).remap.windows.find? fun w => decide (w.2.wbase ≤ va) && decide (va < w.2.wbase + 65536 * w.2.rowb)).map Prod.snd

/-- The pages that a region touches: none when it is empty. -/
def regionPages (va len : Nat) : Nat := if len = 0 then 0 else (va % 65536 + len + 65535) / 65536

/-- The lowest address of a region in its page n. -/
def pageStart (va n : Nat) : Nat := if n = 0 then va else (va / 65536 + n) * 65536

/-- The lowest address of a footprint that lies in a remap window (log 21, DEDUCED). -/
def State.windowHit (s : State) (part : Nat) (a : Addr) (len : Nat) : Option Nat :=
  if spaceOf a = 0 then
    ((List.range (regionPages (fieldOf a 0 48) len)).map (pageStart (fieldOf a 0 48))).find? fun p => (s.windowAt part p).isSome
  else none

/-- The token row recorded for a window row. -/
def Window.rowOf (w : Window) (r : Nat) : Option Nat :=
  (w.bufs.find? fun b => decide (b.base ≤ r) && decide (r < b.base + b.rows.length)).map fun b => b.rows.getD (r - b.base) 0

/-- Where a read of a global address goes: itself, the token row of a window row, or nowhere (zero bytes). -/
def State.remapRead (s : State) (part va : Nat) : Option Nat :=
  match s.windowAt part va with
  | none => some va
  | some w => (w.rowOf ((va - w.wbase) / w.rowb)).map fun row => w.src + row * w.rowb + (va - w.wbase) % w.rowb

/-! ### Pieces of an access

An access is taken in pieces that lie in one 256-byte granule, sector or line each. -/

/-- Part of an access: its address and length, the footprint that R427 judges as a whole, and the bytes of a store. -/
structure Req where
  a : Addr
  n : Nat
  start : Addr
  size : Nat
  bytes : List Byte := []
  deriving DecidableEq, Repr

def splitEvery (unit : Nat) : Nat → Req → List Req
  | 0, q => [q]
  | f + 1, q =>
    let m := unit - q.a.toNat % unit
    if q.n ≤ m then [q]
    else { q with n := m, bytes := q.bytes.take m }
      :: splitEvery unit f { q with a := q.a + BitVec.ofNat 64 m, n := q.n - m, bytes := q.bytes.drop m }

def splitReq : Nat → Req → List Req := splitEvery 256

/-- The pieces of a load of up to 512 bytes, and of a store. -/
def loadReqs (a : Addr) (n : Nat) : List Req := splitReq 3 { a := a, n := n, start := a, size := n }
def storeReqs (a : Addr) (bs : List Byte) : List Req := splitReq 3 { a := a, n := bs.length, start := a, size := bs.length, bytes := bs }

/-- The pieces of a load as the flight port takes them: a piece that touches a remap window goes by 64-byte units (R364). -/
def State.unitReqs (s : State) (q : Req) : List Req :=
  match s.target q.a with
  | .global va =>
    if (s.windowAt s.myPart va).isSome || (s.windowAt s.myPart (va + q.n - 1)).isSome then splitEvery 64 8 q else [q]
  | _ => [q]

/-! ### Loads -/

/-- What a register receives from the bytes of a load. -/
def scalarOf (size : Nat) (signed : Bool) (bs : List Byte) : Word :=
  let n := leNat (bs.take size)
  if signed then BitVec.ofInt 32 (sval (8 * size) n) else BitVec.ofNat 32 n

/-- Places pieces of bytes in a vector register: each piece's bytes from its place on. -/
def placeBytes (places : List Nat) (bs : List Byte) : List Byte :=
  match places with
  | [p] => if bs.length = 64 then bs else List.replicate p 0 ++ bs
  | _ => (List.range 64).map fun i =>
      match places.zipIdx.find? fun (p, _) => p ≤ i && i < p + 4 with
      | some (p, j) => bs.getD (4 * j + (i - p)) 0
      | none => 0

/-- Merges enabled bytes into a vector register. -/
def mergeBytes (mask : Mask) (old new : VWord) : VWord :=
  ofLanes 8 ((List.range 64).map fun i => if mask.getLsbD i then lane new 8 i else lane old 8 i)

/-- Writes what a load brings to its register (R190, R202): a full write for a scalar register or under k0. A register that
a remote fill has written in the same cycle keeps the fill (R128). -/
def State.deliver (s : State) (dest : LoadDest) (bs : List Byte) : State :=
  match dest with
  | .scalar d size signed => s.keepFill d (s.wS d (scalarOf size signed bs))
  | .vector vd k mask places =>
    s.keepFill (32 + vd) (s.wVm k vd (mergeBytes mask (s.rV vd) (vofBytes ((placeBytes places bs) ++ List.replicate 64 0))))
  | .record => s

/-! ### The core cache and the victim pool (R170-R171) -/

/-- A line that a core's cache holds for itself. -/
def State.cachedLine (s : State) (core part line : Nat) (cls : PClass) (phys : Nat) : Option CacheLine :=
  (s.core core).cache.find? fun l => !l.pooled && l.line == line && l.part == part && l.cls == cls && l.phys == phys

/-- The pool core of a line in a flight (R171). -/
def State.poolCore (s : State) (flight line : Nat) : Option Nat :=
  let cs := ((List.range 16).map fun i => flight * 16 + i).filter fun c => (s.core c).lcsplit != 0
  if cs.isEmpty then none else some (cs.getD (line % cs.length) 0)

/-- A line in the flight's pool, and the core that holds it. -/
def State.pooledLine (s : State) (core part line : Nat) (cls : PClass) (phys : Nat) : Option (Nat × CacheLine) :=
  match s.poolCore (flightOf core) line with
  | none => none
  | some h => ((s.core h).cache.find? fun l => l.pooled && l.line == line && l.part == part && l.cls == cls && l.phys == phys).map
      fun l => (h, l)

/-- Installs a line in a core's cache; a full set gives up a line that the spec does not name (log 9, DESIGN CHOICE). A C and I line of
the core's own that is given up goes to the pool core of the flight while EN is set, where it competes in its turn. -/
def State.insertLine : Nat → State → Nat → CacheLine → State
  | 0, s, _, _ => s
  | n + 1, s, core, l =>
    let sets := cacheBytes (s.core core).lcsplit / 1024
    if sets = 0 then s
    else
      let cache := (s.core core).cache.filter fun x => !(x.line == l.line && x.part == l.part && x.pooled == l.pooled)
      let same := cache.filter fun x => x.line % sets == l.line % sets
      if same.length < 4 then s.modCore core fun c => { c with cache := l :: cache }
      else
        let victim := same.getD (s.draw 4).1 l
        let s1 := ((s.draw 4).2).modCore core fun c => { c with cache := l :: cache.filter fun x => x != victim }
        match (s.flight (flightOf core)).vpool && victim.i && !victim.pooled, s.poolCore (flightOf core) victim.line with
        | true, some h => State.insertLine n s1 h { victim with pooled := true }
        | _, _ => s1

/-- A line comes into a core's cache; what it displaces may pass through the cores of the flight (log 9, DESIGN CHOICE). -/
def State.installLine (s : State) (core : Nat) (l : CacheLine) : State := State.insertLine 64 s core l

/-- Drops a core's copies of a physical line. -/
def State.dropPhys (s : State) (core : Nat) (cls : PClass) (phys : Nat) : State :=
  s.modCore core fun c => { c with cache := c.cache.filter fun l => !(l.cls == cls && l.phys == phys) }

/-- Updates a core's copies of the line that a store changes (R170). -/
def State.updateLine (s : State) (core : Nat) (p : Loc × List Byte) : State :=
  match p.1 with
  | .phys cls pa _ => s.modCore core fun c => { c with cache := c.cache.map fun l =>
      if l.cls = cls && l.phys = pa / 256 then { l with bytes := patch l.bytes (pa % 256) p.2 } else l }
  | _ => s

/-- Sends what the write-combining buffer holds of a physical line: a request of the core follows it (R172). -/
def State.flushLine (s : State) (l : Loc) : State :=
  match l with
  | .phys cls pa _ => s.flushWcb s.myCore fun w => w.cls == cls && w.line == pa / 256
  | _ => s

/-- What a load of one piece of global memory finds in the core. -/
inductive PieceRes where
  | hit (s : State) (bs : List Byte)
  | go (s : State) (l : Loc) (fill : Option CacheLine)
  | wait (w : Wait)

/-- The issuing thread has a SKUPD on its way: a load of what its counter accesses change does not hit a line that the
core's cache holds from before (R228). -/
def State.sketching (s : State) : Bool := s.acts.any fun a => match a.2.kind with
  | .sketch i _ _ _ _ => i == s.cur
  | _ => false

/-- One piece of a load from global memory: translation, the core cache, the pool. -/
def State.globalPiece (s : State) (g : Seg) (va0 n : Nat) (acc : Access) : PieceRes :=
  match s.remapRead s.myPart va0 with
  | none => .hit s (List.replicate n 0)
  | some va =>
  match s.translate s.myCore s.myPart va acc with
  | .wait w => .wait w
  | .ok s1 e =>
    let l := Loc.phys e.cls (e.phys va) e.key
    let go : Option CacheLine → PieceRes := fun f => .go (s1.flushLine l) l f
    if !(g.has rgtC && e.c) || s.sketching then go none
    else
      let line := va / 256
      let phys := e.phys va / 256
      match s1.cachedLine s.myCore s.myPart line e.cls phys with
      | some c => .hit s1 ((c.bytes.drop (va % 256)).take n)
      | none =>
        match (s1.flight (flightOf s.myCore)).vpool && g.has rgtI, s1.pooledLine s.myCore s.myPart line e.cls phys with
        | true, some (h, y) =>
          let s2 := s1.modCore h fun c => { c with cache := c.cache.filter fun z => z != y }
          .hit (s2.installLine s.myCore { y with pooled := false }) ((y.bytes.drop (va % 256)).take n)
        | _, _ => go (some { line := line, part := s.myPart, cls := e.cls, phys := phys, w := g.has rgtW, i := g.has rgtI, bytes := [] })

/-- How the pieces of a load stand: bytes known at issue, or places still to be read. -/
inductive LoadRes where
  | known (s : State) (bs : List Byte)
  | away (s : State) (pieces : List Piece)
  | wait (w : Wait)
  | fenced (a : Addr)

/-- The bytes of pieces that are all known. -/
def gotBytes (ps : List Piece) : List Byte := (ps.map fun p => p.got.getD []).flatten

/-- The pieces of a load, in order. `fix` holds while every piece so far lay in a local memory of the storey. -/
def State.gather (s : State) (g : Seg) (acc : Access) : List Req → List Piece → Bool → LoadRes
  | [], got, fix => if fix then .known s (gotBytes got) else .away s got
  | q :: r, got, fix =>
    match s.target q.a with
    | .own off =>
      if (s.core s.myCore).movingBytes off q.n then .wait (.split s.myCore off q.n)
      else
        let l := Loc.sram s.myCore (s.tcmRead s.cur off)
        s.gather g acc r (got ++ [{ loc := l, n := q.n, addr := q.start, got := some (s.readLoc s.myPart l q.n) }]) fix
    | .core c off =>
      let p : Piece := { loc := .sram c off, n := q.n, foot := addrOff q.start, size := q.size, addr := q.start }
      if !s.inMyStorey c then s.gather g acc r (got ++ [p]) false
      else if s.coreFenced c then .fenced q.start
      else if (s.core c).movingBytes off q.n then .wait (.split c off q.n)
      else
        let bs := if (s.core c).guarded p.foot p.size then List.replicate q.n 0 else s.readOwn s.cur s.myPart p.loc q.n
        s.gather g acc r (got ++ [{ p with got := some bs }]) fix
    | .global va =>
      match s.globalPiece g va q.n acc with
      | .wait w => .wait w
      | .hit s1 bs => s1.gather g acc r (got ++ [{ loc := .phys .stack va 0, n := q.n, addr := q.start, got := some bs }]) false
      | .go s1 l f => s1.gather g acc r (got ++ [{ loc := l, n := q.n, addr := q.start, fill := f }]) false
    | .sys k u o => s.gather g acc r (got ++ [{ loc := .reg k u o, n := q.n, addr := q.start }]) false

/-- Sends a load for the pieces that are not known, in the flows to the units that hold them. -/
def State.sendLoad (s : State) (g : Seg) (pieces : List Piece) (pc : Word) (addr : Addr) (dest : LoadDest) : State :=
  let flows := ((pieces.filter fun p => p.got.isNone).map fun p => (0, s.myCore, s.unitOf p.loc)).dedup
  s.post flows (.load s.cur pc addr g.hint.toNat pieces dest)

/-- A load of pieces into a register: at issue from the storey's local memories, else by a request whose reply
writes the register while the thread is parked (R191). -/
def State.loadInto (s : State) (seg : Nat) (pieces : List Req) (addr : Addr) (dest : LoadDest) : Res :=
  match s.gather (s.seg seg) .read (pieces.flatMap s.unitReqs) [] true with
  | .wait w => .park w
  | .fenced a => .trap 7 a
  | .known s1 bs => .ok (s1.deliver dest bs)
  | .away s1 got =>
    if got.all fun p => p.got.isSome then
      .hold (s1.postFree (.reply s.cur s.me.pc addr dest (gotBytes got) false false none)) (.reply s1.nextAct)
    else .hold (s1.sendLoad (s.seg seg) got s.me.pc addr dest) (.reply s1.nextAct)

/-! ### Stores -/

/-- How the pieces of a store stand: done in the own TCM, or on their way. -/
inductive StoreRes where
  | ok (s : State)
  | wait (w : Wait)
  | full (a : Addr)
  | refused (a : Addr)

/-- A piece of a store that leaves the core: its bytes, and whether the write-combining buffer takes it. -/
structure OutPiece where
  put : Put
  addr : Addr
  cached : Bool

/-- Adds the bytes of one access to a line to the write-combining buffer: they join the thread's entry of the line, with
its hint; another entry of the line is sent first; a full buffer sends its oldest entry, and an entry that covers its
line is sent (R170) (log 29, DESIGN CHOICE). -/
def State.combine (s : State) (cls : PClass) (line hint : Nat) (addr : Addr) (pieces : List Put) : State :=
  let mine : WcEntry → Bool := fun e => e.cls == cls && e.line == line && e.slot == s.cur && e.hint == hint
  let s0 := s.flushWcb s.myCore fun e => e.cls == cls && e.line == line && !mine e
  let c := s0.core s.myCore
  let s1 :=
    if c.wcb.any mine then
      s0.modCore s.myCore fun c => { c with wcb := c.wcb.map fun e => if mine e then { e with pieces := e.pieces ++ pieces } else e }
    else
      let s2 := if 4 ≤ c.wcb.length then s0.flushWcb s.myCore fun e => some e == c.wcb.head? else s0
      s2.modCore s.myCore fun c => { c with wcb := c.wcb ++ [⟨cls, line, s.cur, addr, hint, pieces⟩] }
  let covers : WcEntry → Bool := fun e => (List.range 256).all fun i => e.pieces.any fun p =>
    match p.loc with
    | .phys _ pa _ => decide (pa % 256 ≤ i) && decide (i < pa % 256 + p.bytes.length)
    | _ => false
  s1.flushWcb s.myCore fun e => mine e && covers e

/-- The physical line of a place. -/
def Loc.line : Loc → Option (PClass × Nat)
  | .phys cls pa _ => some (cls, pa / 256)
  | _ => none

/-- The pieces of a store that leave the core go out: cached lines through the write-combining buffer, each line with all
of its bytes at once; the rest in one request, behind what the buffer holds of their lines. -/
def State.sendPieces (s : State) (hint : Nat) (first : Addr) (out : List OutPiece) : State :=
  let held := out.filter OutPiece.cached
  let plain := (out.filter fun p => !p.cached).map OutPiece.put
  let lines := (held.filterMap fun p => p.put.loc.line).dedup
  let s1 := out.foldl (fun u p => u.updateLine s.myCore (p.put.loc, p.put.bytes)) s
  let s2 := lines.foldl (fun u l =>
    let ps := held.filter fun p => p.put.loc.line == some l
    u.combine l.1 l.2 hint ((ps.map OutPiece.addr).headD first) (ps.map OutPiece.put)) s1
  if plain.isEmpty then s2
  else
    let s3 := plain.foldl (fun u p => u.flushLine p.loc) s2
    (s3.addUnack s.cur).post ((plain.map fun p => (0, s.myCore, s3.unitOf p.loc)).dedup) (.store s.cur first hint plain)

/-- What a thread's stores count or will count in UNACK: those sent and not acknowledged, and those still combined. -/
def State.owed (s : State) (id : Nat) : Nat := (s.thr id).unack + s.combined id

/-- A store parks while UNACK has no room for it (R159); stores that are still combined keep their room (log 68, DESIGN
CHOICE). -/
def State.sendStore (s : State) (hint : Nat) (first : Addr) (out : List OutPiece) : StoreRes :=
  let u := s.sendPieces hint first out
  if u.owed s.cur ≤ max 1023 (s.owed s.cur) then .ok u else .wait (.unackRoom (u.owed s.cur - s.owed s.cur))

/-- The pieces of a store, in order: those in the own TCM are written, the others collect. -/
def State.scatter (s : State) (g : Seg) : List Req → List OutPiece → Addr → StoreRes
  | [], out, first => if out.isEmpty then .ok s else s.sendStore g.hint.toNat first out
  | q :: r, out, first =>
    let put : Loc → OutPiece := fun l =>
      { put := { loc := l, bytes := q.bytes, foot := addrOff q.start, size := q.size, addr := q.start }, addr := q.start, cached := false }
    match s.target q.a with
    | .own off =>
      if (s.core s.myCore).movingBytes off q.n then .wait (.split s.myCore off q.n)
      else if q.bytes.isEmpty then s.scatter g r out first
      else match s.writeOwn s.cur off q.bytes with
        | none => .full q.start
        | some s1 => s1.scatter g r out first
    | .core c off => s.scatter g r (out ++ [put (.sram c off)]) first
    | .global va =>
      if (s.windowAt s.myPart va).isSome then .refused q.a
      else match s.translate s.myCore s.myPart va .write with
      | .wait w => .wait w
      | .ok s1 e =>
        s1.scatter g r (out ++ [{ put (.phys e.cls (e.phys va) e.key) with cached := g.has rgtC && e.c && !q.bytes.isEmpty }]) first
    | .sys k u o =>
      match (if k = 1 && o = 8 then s.relWait else none) with
      | some w => .wait w
      | none => (if k = 1 && o = 8 then s.sendAll else s).scatter g r (out ++ [put (.reg k u o)]) first

/-- A store of pieces through a segment (R172, R191). -/
def State.storeFrom (s : State) (seg : Nat) (pieces : List Req) : Res :=
  match s.scatter (s.seg seg) pieces [] ((pieces.map Req.a).headD 0) with
  | .ok s1 => .ok s1
  | .wait w => .park w
  | .full a => .trap 10 a
  | .refused a => .trap 6 a

/-! ### Records read at issue (R207) -/

/-- A small record that an instruction names: the bytes, or how the instruction ends. -/
inductive RecRes where
  | ok (bs : List Byte)
  | stop (r : Res)

/-- The bytes of a record through a segment at an address that has been checked: known at issue in the storey's local
memories; else read as a load is, and the instruction issues again with them (log 23, DEDUCED). -/
def State.recordFrom (s : State) (g : Seg) (a : Addr) (n : Nat) : RecRes :=
  match s.me.recs.find? fun r => r.1 == a && r.2.length == n with
  | some r => .ok r.2
  | none =>
    match s.gather g .read ((loadReqs a n).flatMap s.unitReqs) [] true with
    | .known _ bs => .ok bs
    | .wait w => .stop (.park w)
    | .fenced x => .stop (.trap 7 x)
    | .away s1 got =>
      if got.all fun p => p.got.isSome then .ok (gotBytes got)
      else .stop (.stay (s1.sendLoad g got s.me.pc a .record) (.reply s1.nextAct))

/-- The bytes of sg0 at an offset that has been checked. -/
def State.recordAt (s : State) (off n : Nat) : RecRes := s.recordFrom (s.seg 0) (s.segAddr 0 off) n

/-- A record of the own sg0 whose offset is a multiple of its size. -/
def State.readRecord (s : State) (off : Nat) (n : Nat) : RecRes :=
  match s.checkOffset 0 off n rgtR n [0, 1] with
  | some (c, a) => .stop (.trap c a)
  | none => s.recordAt off n

end Sys2Proof.Machine
end

