-- ==== Sys2Proof/Machine/CoreRegs.lean ====
section
/-!
DEFINITION. CoreRegs: the thread, core and flight system registers (R154-R158), their reads, the writes of the
four access instructions and when they commit (R130, R157), and the threads that a write or a message starts.
-/

namespace Sys2Proof.Machine

open Sys2Proof

/-! ### Threads started by the runtime (R120, R135, R154) -/

/-- The thread system registers at a thread's start (R154): the mode, TVEC from entry 0x3F, SDTBASE. -/
def State.startSys (s : State) (core : Nat) (super : Bool) : TSys :=
  let e := leNat (s.sramRead core ((s.core core).mvt + 8 * 0x3F) 4)
  let b := (s.storey (storeyOf core)).sdtb
  { tstatus := Word.ofBool super
    tvec := BitVec.ofNat 32 (e / 4 * 4)
    sdtL := BitVec.ofNat 32 (fieldOf b 0 32)
    sdtH := BitVec.ofNat 32 (fieldOf b 32 16) }

/-- sg0 of a handler: the core's whole TCM (R135). -/
def State.tcmSeg (s : State) (core : Nat) : Seg :=
  { base := BitVec.ofNat 64 (localAddr core 0), limit := BitVec.ofNat 32 (s.core core).tcmSize
    rights := BitVec.ofNat 16 (rgtR + rgtW + rgtA + rgtS), scope := .pkg }

/-- A thread that the runtime starts through a vector entry, with the words of a message (R135). -/
def State.handlerThread (s : State) (core : Nat) (kind : ThreadKind) (entry : Word) (seg : Seg) (m : Option Message) : Thread :=
  let regs : Regs := match m with
    | none => {}
    | some m => { s := [(16, m.w0), (17, m.w1), (18, m.s18)] }
  { kind := kind, pc := entry, regs := regs, segs := [(0, s.tcmSeg core), (1, seg)], sys := s.startSys core true }

def State.putThread (s : State) (id : Nat) (t : Thread) : State := { s with threads := s.threads.put id t }

/-- A write of MVTBASE starts the communication thread when slot 0 holds none and entry 0x3E is usable (R120); while the
page of its descriptor is not present, the start waits for it (R133), and so does one in STANDBY (R423). -/
def State.startComm (s : State) (core : Nat) : State :=
  if (s.thr? (slotidOf core 0)).isSome || (s.partOf core).isNone || s.coreWiping core || (s.core core).resetting then s
  else if s.pkg.state ≠ .active then s.modCore core fun c => { c with commWait := true }
  else match s.vecEntry core 0x3E with
    | .usable s' _ _ entry seg =>
      (s'.modCore core fun c => { c with commWait := false }).putThread (slotidOf core 0) (s.handlerThread core .comm entry seg none)
    | .unusable u => u.modCore core fun c => { c with commWait := false }
    | .absent page _ _ =>
      (s.pageFaulted (storeyOf core) page .read (flightOf core)).modCore core fun c => { c with commWait := true }

/-! ### Core and flight registers -/

/-- A core register as an instruction reads it. -/
def State.readCoreReg (s : State) (core n : Nat) : Word :=
  let c := s.core core
  if n = 0x200 then BitVec.ofNat 32 c.lcsplit
  else if n = 0x201 then c.slotcls
  else if n = 0x202 then BitVec.ofNat 32 c.mvt
  else if n = 0x203 then BitVec.ofNat 32 ((if c.hold then 32 else 0) + c.margin)
  else if n = 0x204 then BitVec.ofNat 32 (c.shSize * 65536 + c.shBase)
  else if 0x210 ≤ n && n ≤ 0x217 then c.c.lookD (n - 0x210) 0
  else 0

/-- SLOTCLS after a write (R119): code 0 leaves CLS1-CLS15 unchanged, and CLS0 reads 0. -/
def slotclsAfter (old v : Word) : Word :=
  (List.range 15).foldl (fun w i => if fieldOf v (2 * (i + 1)) 2 = 0 then w else setField w (2 * (i + 1)) 2 (fieldOf v (2 * (i + 1)) 2)) old

/-- A write of SHPOOL (R97). -/
def Core.setShpool (c : Core) (v : Word) : Core :=
  let size := fieldOf v 16 11
  let base := fieldOf v 0 11
  let fits : Bool := size = 0 || (decide (0x1000 ≤ base * 256) && decide ((base + size) * 256 ≤ c.tcmSize))
  let keeps : Bool := c.formes.isEmpty || (base == c.shBase && decide (c.shSize ≤ size))
  if fits && keeps then { c with shBase := base, shSize := size } else c

/-- Drops every line that a flight has pooled (R171). -/
def State.dropPooled (s : State) (f : Nat) : State :=
  (List.range 16).foldl (fun s i =>
    if (s.core (f * 16 + i)).cache.any CacheLine.pooled then
      s.modCore (f * 16 + i) fun c => { c with cache := c.cache.filter fun l => !l.pooled }
    else s) s

/-- A write of LCSPLIT (R168, R97): the bytes that change role are kept from access until the change is done. Lines
of the cache portion are dropped, and so is every line that the flight has pooled (R171). DESIGN CHOICE (log 74): R168
names only the lines of the bytes that go back to TCM, and does not say which lines those are, so a change drops all
of them. -/
def State.setLcsplit (s : State) (core : Nat) (v : Word) : State :=
  let c := s.core core
  let n := fieldOf v 0 2
  let old := 0x80000 - cacheBytes c.lcsplit
  let new := 0x80000 - cacheBytes n
  let hitsForme : Bool := !c.formes.isEmpty && decide (new < (c.shBase + c.shSize) * 256)
  if n = c.lcsplit || hitsForme then s
  else
    let s1 := s.modCore core fun c =>
      { c with lcsplit := n, cache := [], moving := c.moving ++ [(min old new, max old new, s.cycle + 1024)] }
    s1.dropPooled (flightOf core)

/-- The value that an access instruction leaves in RW bits: 0 write, 1 set, 2 clear (R157). -/
def applyOp (op : Nat) (old v : Word) : Word :=
  match op with
  | 0 => v
  | 1 => old ||| v
  | _ => old &&& ~~~v

/-- A write of a core register takes effect (R157): its own rules refuse fields, and RO bits stay. -/
def State.commitCore (s : State) (core n op : Nat) (v : Word) : State :=
  let w := applyOp op (s.readCoreReg core n) v
  if n = 0x200 then s.setLcsplit core w
  else if n = 0x201 then s.modCore core fun c => { c with slotcls := slotclsAfter c.slotcls w }
  else if n = 0x202 then (s.modCore core fun c => { c with mvt := fieldOf w 11 8 * 2048 }).startComm core
  else if n = 0x203 then s.modCore core fun c => { c with hold := w.getLsbD 5, margin := fieldOf w 0 5 }
  else if n = 0x204 then s.modCore core fun c => c.setShpool w
  else if 0x210 ≤ n && n ≤ 0x217 then s.modCore core fun c => { c with c := c.c.put (n - 0x210) w }
  else s

/-- VPOOL after a write; clearing EN drops every pooled line (R171). -/
def State.commitFlight (s : State) (f op : Nat) (v : Word) : State :=
  let w := applyOp op (Word.ofBool (s.flight f).vpool) v
  (if w.getLsbD 0 then s else s.dropPooled f).modFlight f fun x => { x with vpool := w.getLsbD 0 }

/-- A write that is waiting to commit, in issue order (R130, R157). -/
def State.queueCore (s : State) (core n op : Nat) (v : Word) : State :=
  s.modCore core fun c => { c with commits := c.commits ++ [⟨core, n, op, v, s.cycle + 5⟩] }

/-- Of the writes of one cycle to a flight register, those of the lower core commit first (R157). -/
def State.queueFlight (s : State) (core op : Nat) (v : Word) : State :=
  let due := s.cycle + 9
  let later : Commit → Bool := fun c => c.due == due && decide (core < c.core)
  s.modFlight (flightOf core) fun x =>
    { x with commits := x.commits.filter (fun c => !later c) ++ [⟨core, 0x300, op, v, due⟩] ++ x.commits.filter later }

/-- Applies the writes of a core that are due. -/
def State.applyCore (s : State) (core : Nat) : State :=
  let due := (s.core core).commits.filter fun c => c.due ≤ s.cycle
  let s1 := s.modCore core fun c => { c with commits := c.commits.filter fun c => s.cycle < c.due }
  due.foldl (fun s c => s.commitCore core c.reg c.op c.value) s1
def State.applyFlight (s : State) (f : Nat) : State :=
  let due := (s.flight f).commits.filter fun c => c.due ≤ s.cycle
  let s1 := s.modFlight f fun c => { c with commits := c.commits.filter fun c => s.cycle < c.due }
  due.foldl (fun s c => s.commitFlight f c.op c.value) s1

/-! ### Thread registers -/

/-- The task of a composing thread or impression (log 26, DEDUCED). -/
def State.taskOf (s : State) (id : Nat) : Option Task :=
  match (s.thr id).kind with
  | .composing t => s.task? t
  | .impression t _ _ _ _ => s.task? t
  | _ => none

/-- The stage of a storey in a launch record (R16, R79). -/
def Record.stageOf (r : Record) (storey : Nat) : Nat :=
  match r.stages.find? fun e => e.1 ≤ storey && storey ≤ e.2.1 with
  | some e => e.2.2
  | none => 0

/-- COORD (R17). -/
def State.coord (s : State) (id : Nat) : Word :=
  let st := storeyOf (coreOf id)
  let stage := match s.taskOf id with
    | some t => t.record.stageOf st
    | none => 0
  BitVec.ofNat 32 (stage * 65536 + coreOf id)

/-- TAGLO and TAGHI. -/
def Thread.tagBits (t : Thread) (hi : Bool) : Word :=
  (List.range 32).foldl (fun w i => setBit w i (t.tagOf (if hi then 32 + i else i)).set) 0

/-- A system register as the thread in a slot reads it (R154); unknown numbers read zero. -/
def State.readSys (s : State) (id n : Nat) : Word :=
  let t := s.thr id
  if n = 0x000 then BitVec.ofNat 32 id
  else if n = 0x002 then s.coord id
  else if n = 0x003 then match s.taskOf id with
    | some k => BitVec.ofNat 32 k.rank
    | none => 0
  else if n = 0x004 then match s.taskOf id with
    | some k => BitVec.ofNat 32 k.nranks
    | none => 1
  else if n = 0x008 then t.sys.astat
  else if n = 0x010 then t.tagBits false
  else if n = 0x011 then t.tagBits true
  else if n = 0x012 then BitVec.ofNat 32 t.unack
  else if n = 0x018 then BitVec.ofNat 32 s.cycle
  else if n = 0x019 then t.sys.cycLatch
  else if n = 0x100 then t.sys.tstatus
  else if n = 0x101 then t.sys.tvec
  else if n = 0x102 then t.sys.tpc
  else if n = 0x103 then t.sys.tcause
  else if n = 0x104 then t.sys.tval
  else if n = 0x105 then t.sys.tscratch
  else if n = 0x106 then t.sys.tvalh
  else if n = 0x108 then t.sys.sdtL
  else if n = 0x109 then t.sys.sdtH
  else if n = 0x300 then Word.ofBool (s.flight (flightOf (coreOf id))).vpool
  else s.readCoreReg (coreOf id) n

/-- Registers that user mode may not name (R154, R129). -/
def sysPriv (n : Nat) : Bool :=
  [0x100, 0x101, 0x102, 0x103, 0x104, 0x105, 0x106, 0x108, 0x109, 0x200, 0x201, 0x202, 0x203, 0x204, 0x300].contains n

/-- Clears SET and the status of the tags of a mask (R203). -/
def Thread.clearTags (t : Thread) (mask : BitVec 64) : Thread :=
  { t with tags := t.tags.map fun (n, g) =>
      (n, if mask.getLsbD n then { g with set := false, err := false, shape := false, cause := 0 } else g) }

/-- The RW bits of a thread register under a write; the rest stay (R154-R156). -/
def rwWrite (mask old w : Word) : Word := (old &&& ~~~mask) ||| (w &&& mask)

/-- A write to a system register by the issuing thread (R157): 0 write, 1 set, 2 clear. -/
def State.writeSys (s : State) (n op : Nat) (v : Word) : State :=
  let id := s.cur
  let core := coreOf id
  let w1c : Word := if op = 2 then 0 else v
  let y : (TSys → TSys) → State := fun f => s.modMe fun t => { t with sys := f t.sys }
  if n = 0x008 then y fun r => { r with astat := r.astat &&& ~~~w1c }
  else if n = 0x010 then s.modMe fun t => t.clearTags (w1c.setWidth 64)
  else if n = 0x011 then s.modMe fun t => t.clearTags ((w1c.setWidth 64) <<< 32)
  else if n = 0x100 then y fun r => { r with tstatus := rwWrite 6 r.tstatus (applyOp op r.tstatus v) }
  else if n = 0x101 then y fun r => { r with tvec := rwWrite 0xFFFFFFFC r.tvec (applyOp op r.tvec v) }
  else if n = 0x102 then y fun r => { r with tpc := rwWrite 0xFFFFFFFC r.tpc (applyOp op r.tpc v) }
  else if n = 0x103 then y fun r => { r with tcause := rwWrite 0x1F r.tcause (applyOp op r.tcause v) }
  else if n = 0x104 then y fun r => { r with tval := applyOp op r.tval v }
  else if n = 0x105 then y fun r => { r with tscratch := applyOp op r.tscratch v }
  else if n = 0x106 then y fun r => { r with tvalh := applyOp op r.tvalh v }
  else if n = 0x108 then y fun r => { r with sdtL := applyOp op r.sdtL v }
  else if n = 0x109 then y fun r => { r with sdtH := rwWrite 0xFFFF r.sdtH (applyOp op r.sdtH v) }
  else if n = 0x300 then s.queueFlight core op v
  else if (0x200 ≤ n && n ≤ 0x204) || (0x210 ≤ n && n ≤ 0x217) then s.queueCore core n op v
  else s

end Sys2Proof.Machine
end

