-- ==== Sys2Proof/Machine/Alu.lean ====
section
/-!
DEFINITION. Alu: integer arithmetic and logic, immediates, upper parts, jumps and branches (R139-R145). None of
them sets a flag or traps after decode, but JALR to a target that is not a multiple of 4.
-/

namespace Sys2Proof.Machine

open Sys2Proof

/-! ### Results (R140) -/

/-- The shift count: b[4:0]. -/
def shiftOf (b : Word) : Nat := b.toNat % 32

def aluSll (a b : Word) : Word := a <<< shiftOf b
def aluSrl (a b : Word) : Word := a >>> shiftOf b
def aluSra (a b : Word) : Word := a.sshiftRight (shiftOf b)
def aluRol (a b : Word) : Word := a.rotateLeft (shiftOf b)
def aluRor (a b : Word) : Word := a.rotateRight (shiftOf b)
def aluMin (a b : Word) : Word := if a.slt b then a else b
def aluMax (a b : Word) : Word := if a.slt b then b else a
def aluMinu (a b : Word) : Word := if a.ult b then a else b
def aluMaxu (a b : Word) : Word := if a.ult b then b else a

/-- floor(x / 2^32) modulo 2^32 of an exact product. -/
def highWord (x : Int) : Word := BitVec.ofInt 32 (x / 2 ^ 32)
def aluMulh (a b : Word) : Word := highWord (a.toInt * b.toInt)
def aluMulhu (a b : Word) : Word := highWord ((a.toNat : Int) * b.toNat)
def aluMulhsu (a b : Word) : Word := highWord (a.toInt * b.toNat)

/-- DIV rounds toward zero; a zero divisor gives all ones, and the one overflow gives the dividend. -/
def aluDiv (a b : Word) : Word := if b = 0 then 0xFFFFFFFF else BitVec.ofInt 32 (a.toInt.tdiv b.toInt)
def aluDivu (a b : Word) : Word := if b = 0 then 0xFFFFFFFF else a / b
def aluRem (a b : Word) : Word := if b = 0 then a else BitVec.ofInt 32 (a.toInt.tmod b.toInt)
def aluRemu (a b : Word) : Word := if b = 0 then a else a % b

def aluClz (a : Word) : Word := BitVec.ofNat 32 ((leastBelow 32 fun i => a.getLsbD (31 - i)).getD 32)
def aluCtz (a : Word) : Word := BitVec.ofNat 32 ((leastBelow 32 fun i => a.getLsbD i).getD 32)
def aluPopc (a : Word) : Word := BitVec.ofNat 32 ((List.range 32).countP fun i => a.getLsbD i)
def aluBswap (a : Word) : Word := BitVec.ofNat 32 (leNat (leBytes 4 a.toNat).reverse)

/-! ### Register forms (R140) -/

/-- A two-operand form. -/
def State.alu2 (s : State) (d a b : BitVec 5) (f : Word → Word → Word) : Host.Outcome State Fault Refusal :=
  s.alu d.toNat [a.toNat, b.toNat] fun t => f (t.rS a.toNat) (t.rS b.toNat)

/-- A one-operand form. -/
def State.alu1 (s : State) (d a : BitVec 5) (f : Word → Word) : Host.Outcome State Fault Refusal :=
  s.alu d.toNat [a.toNat] fun t => f (t.rS a.toNat)

def execAdd (d a b : BitVec 5) (s : State) : Host.Outcome State Fault Refusal := s.alu2 d a b fun a b => a + b
def execSub (d a b : BitVec 5) (s : State) : Host.Outcome State Fault Refusal := s.alu2 d a b fun a b => a - b
def execAnd (d a b : BitVec 5) (s : State) : Host.Outcome State Fault Refusal := s.alu2 d a b fun a b => a &&& b
def execOr (d a b : BitVec 5) (s : State) : Host.Outcome State Fault Refusal := s.alu2 d a b fun a b => a ||| b
def execXor (d a b : BitVec 5) (s : State) : Host.Outcome State Fault Refusal := s.alu2 d a b fun a b => a ^^^ b
def execAndn (d a b : BitVec 5) (s : State) : Host.Outcome State Fault Refusal := s.alu2 d a b fun a b => a &&& ~~~b
def execOrn (d a b : BitVec 5) (s : State) : Host.Outcome State Fault Refusal := s.alu2 d a b fun a b => a ||| ~~~b
def execXnor (d a b : BitVec 5) (s : State) : Host.Outcome State Fault Refusal := s.alu2 d a b fun a b => ~~~(a ^^^ b)
def execSll (d a b : BitVec 5) (s : State) : Host.Outcome State Fault Refusal := s.alu2 d a b fun a b => aluSll a b
def execSrl (d a b : BitVec 5) (s : State) : Host.Outcome State Fault Refusal := s.alu2 d a b fun a b => aluSrl a b
def execSra (d a b : BitVec 5) (s : State) : Host.Outcome State Fault Refusal := s.alu2 d a b fun a b => aluSra a b
def execRol (d a b : BitVec 5) (s : State) : Host.Outcome State Fault Refusal := s.alu2 d a b fun a b => aluRol a b
def execRor (d a b : BitVec 5) (s : State) : Host.Outcome State Fault Refusal := s.alu2 d a b fun a b => aluRor a b
def execSlt (d a b : BitVec 5) (s : State) : Host.Outcome State Fault Refusal := s.alu2 d a b fun a b => Word.ofBool (a.slt b)
def execSltu (d a b : BitVec 5) (s : State) : Host.Outcome State Fault Refusal := s.alu2 d a b fun a b => Word.ofBool (a.ult b)
def execMin (d a b : BitVec 5) (s : State) : Host.Outcome State Fault Refusal := s.alu2 d a b fun a b => aluMin a b
def execMax (d a b : BitVec 5) (s : State) : Host.Outcome State Fault Refusal := s.alu2 d a b fun a b => aluMax a b
def execMinu (d a b : BitVec 5) (s : State) : Host.Outcome State Fault Refusal := s.alu2 d a b fun a b => aluMinu a b
def execMaxu (d a b : BitVec 5) (s : State) : Host.Outcome State Fault Refusal := s.alu2 d a b fun a b => aluMaxu a b
def execMul (d a b : BitVec 5) (s : State) : Host.Outcome State Fault Refusal := s.alu2 d a b fun a b => a * b
def execMulh (d a b : BitVec 5) (s : State) : Host.Outcome State Fault Refusal := s.alu2 d a b fun a b => aluMulh a b
def execMulhu (d a b : BitVec 5) (s : State) : Host.Outcome State Fault Refusal := s.alu2 d a b fun a b => aluMulhu a b
def execMulhsu (d a b : BitVec 5) (s : State) : Host.Outcome State Fault Refusal := s.alu2 d a b fun a b => aluMulhsu a b
def execDiv (d a b : BitVec 5) (s : State) : Host.Outcome State Fault Refusal := s.alu2 d a b fun a b => aluDiv a b
def execDivu (d a b : BitVec 5) (s : State) : Host.Outcome State Fault Refusal := s.alu2 d a b fun a b => aluDivu a b
def execRem (d a b : BitVec 5) (s : State) : Host.Outcome State Fault Refusal := s.alu2 d a b fun a b => aluRem a b
def execRemu (d a b : BitVec 5) (s : State) : Host.Outcome State Fault Refusal := s.alu2 d a b fun a b => aluRemu a b
def execClz (d a : BitVec 5) (s : State) : Host.Outcome State Fault Refusal := s.alu1 d a fun a => aluClz a
def execCtz (d a : BitVec 5) (s : State) : Host.Outcome State Fault Refusal := s.alu1 d a fun a => aluCtz a
def execPopc (d a : BitVec 5) (s : State) : Host.Outcome State Fault Refusal := s.alu1 d a fun a => aluPopc a
def execSextb (d a : BitVec 5) (s : State) : Host.Outcome State Fault Refusal := s.alu1 d a fun a => (a.truncate 8).signExtend 32
def execSexth (d a : BitVec 5) (s : State) : Host.Outcome State Fault Refusal := s.alu1 d a fun a => (a.truncate 16).signExtend 32
def execZexth (d a : BitVec 5) (s : State) : Host.Outcome State Fault Refusal := s.alu1 d a fun a => (a.truncate 16).zeroExtend 32
def execBswap (d a : BitVec 5) (s : State) : Host.Outcome State Fault Refusal := s.alu1 d a fun a => aluBswap a

/-! ### Immediates (R141-R143) -/

def execAddi (d a : BitVec 5) (i : BitVec 16) (s : State) : Host.Outcome State Fault Refusal := s.alu1 d a fun a => a + i.signExtend 32
def execAndi (d a : BitVec 5) (i : BitVec 16) (s : State) : Host.Outcome State Fault Refusal := s.alu1 d a fun a => a &&& i.zeroExtend 32
def execOri (d a : BitVec 5) (i : BitVec 16) (s : State) : Host.Outcome State Fault Refusal := s.alu1 d a fun a => a ||| i.zeroExtend 32
def execXori (d a : BitVec 5) (i : BitVec 16) (s : State) : Host.Outcome State Fault Refusal := s.alu1 d a fun a => a ^^^ i.zeroExtend 32
def execSlti (d a : BitVec 5) (i : BitVec 16) (s : State) : Host.Outcome State Fault Refusal := s.alu1 d a fun a => Word.ofBool (a.slt (i.signExtend 32))
def execSltiu (d a : BitVec 5) (i : BitVec 16) (s : State) : Host.Outcome State Fault Refusal := s.alu1 d a fun a => Word.ofBool (a.ult (i.signExtend 32))
def execSlli (d a n : BitVec 5) (s : State) : Host.Outcome State Fault Refusal := s.alu1 d a fun a => aluSll a (n.zeroExtend 32)
def execSrli (d a n : BitVec 5) (s : State) : Host.Outcome State Fault Refusal := s.alu1 d a fun a => aluSrl a (n.zeroExtend 32)
def execSrai (d a n : BitVec 5) (s : State) : Host.Outcome State Fault Refusal := s.alu1 d a fun a => aluSra a (n.zeroExtend 32)

/-- IMM21 in the upper bits. -/
def upper (i : BitVec 21) : Word := (i.zeroExtend 32) <<< 11

def execLui (d : BitVec 5) (i : BitVec 21) (s : State) : Host.Outcome State Fault Refusal := s.alu d.toNat [] fun _ => upper i
def execAdpc (d : BitVec 5) (i : BitVec 21) (s : State) : Host.Outcome State Fault Refusal :=
  s.alu d.toNat [] fun t => t.me.pc + upper i

/-! ### Jumps and branches (R144-R145) -/

/-- A word offset in bytes. -/
def wordOffset {n : Nat} (off : BitVec n) : Word := (off.signExtend 32) <<< 2

/-- JAL: the link to d, and the pc moved by the offset. -/
def execJal (d : BitVec 5) (off : BitVec 21) (s : State) : Host.Outcome State Fault Refusal :=
  s.perform [.d d.toNat] fun t => .jump (t.wS d.toNat (t.me.pc + 4)) (t.me.pc + wordOffset off)

/-- JALR: a target that is not a multiple of 4 traps MISALIGN, and d keeps its value. -/
def execJalr (d a : BitVec 5) (i : BitVec 16) (s : State) : Host.Outcome State Fault Refusal :=
  s.perform [.s a.toNat, .d d.toNat] fun t =>
    let target := t.rS a.toNat + i.signExtend 32
    if target.toNat % 4 ≠ 0 then .trap 5 (target.zeroExtend 64) else .jump (t.wS d.toNat (t.me.pc + 4)) target

/-- A conditional branch. -/
def State.branch (s : State) (a b : BitVec 5) (off : BitVec 13) (taken : Word → Word → Bool) : Host.Outcome State Fault Refusal :=
  s.perform [.s a.toNat, .s b.toNat] fun t =>
    if taken (t.rS a.toNat) (t.rS b.toNat) then .jump t (t.me.pc + wordOffset off) else .ok t

def execBeq (a b : BitVec 5) (off : BitVec 13) (s : State) : Host.Outcome State Fault Refusal := s.branch a b off fun a b => a == b
def execBne (a b : BitVec 5) (off : BitVec 13) (s : State) : Host.Outcome State Fault Refusal := s.branch a b off fun a b => a != b
def execBlt (a b : BitVec 5) (off : BitVec 13) (s : State) : Host.Outcome State Fault Refusal := s.branch a b off fun a b => a.slt b
def execBge (a b : BitVec 5) (off : BitVec 13) (s : State) : Host.Outcome State Fault Refusal := s.branch a b off fun a b => !a.slt b
def execBltu (a b : BitVec 5) (off : BitVec 13) (s : State) : Host.Outcome State Fault Refusal := s.branch a b off fun a b => a.ult b
def execBgeu (a b : BitVec 5) (off : BitVec 13) (s : State) : Host.Outcome State Fault Refusal := s.branch a b off fun a b => !a.ult b

end Sys2Proof.Machine
end

