-- ==== Sys2Proof/Machine/Float.lean ====
section
/-!
DEFINITION. Float: the floating-point formats (R41-R45), exact values, rounding (R46-R48), conversions and their
flags (R49-R53), and the lane operations of the vector unit (R234-R238).
-/

namespace Sys2Proof.Machine

open Sys2Proof

/-! ### Formats and values (R41-R43) -/

/-- A floating-point format: exponent and fraction bits, bias, and whether it has infinities. -/
structure Fmt where
  ebits : Nat
  fbits : Nat
  bias : Nat
  inf : Bool
  deriving DecidableEq, Repr

def f32 : Fmt := ⟨8, 23, 127, true⟩
def bf16 : Fmt := ⟨8, 7, 127, true⟩
def e4m3 : Fmt := ⟨4, 3, 7, false⟩
def e5m2 : Fmt := ⟨5, 2, 15, true⟩

def Fmt.width (f : Fmt) : Nat := 1 + f.ebits + f.fbits
/-- The exponent of the least significant bit of a subnormal. -/
def Fmt.qmin (f : Fmt) : Int := 1 - (f.bias : Int) - f.fbits
def Fmt.signBit (f : Fmt) (neg : Bool) : Nat := if neg then 2 ^ (f.width - 1) else 0
def Fmt.infBits (f : Fmt) (neg : Bool) : Nat := f.signBit neg + (2 ^ f.ebits - 1) * 2 ^ f.fbits
/-- The canonical NaN (R41, R44). -/
def Fmt.nan (f : Fmt) : Nat :=
  if f.inf then (2 ^ f.ebits - 1) * 2 ^ f.fbits + 2 ^ (f.fbits - 1) else 2 ^ (f.width - 1) - 1
def Fmt.maxBits (f : Fmt) (neg : Bool) : Nat :=
  f.signBit neg + if f.inf then (2 ^ f.ebits - 1) * 2 ^ f.fbits - 1 else 2 ^ (f.width - 1) - 2

/-- The value of an element: a finite one is (-1)^neg × m × 2^e. -/
inductive FVal where
  | nan
  | inf (neg : Bool)
  | fin (neg : Bool) (m : Nat) (e : Int)
  deriving DecidableEq, Repr

/-- Decodes an element (R42-R43). -/
def Fmt.val (f : Fmt) (bits : Nat) : FVal :=
  let neg := fld bits (f.width - 1) 1 == 1
  let e := fld bits f.fbits f.ebits
  let m := fld bits 0 f.fbits
  if f.inf && e = 2 ^ f.ebits - 1 then (if m = 0 then .inf neg else .nan)
  else if !f.inf && e = 2 ^ f.ebits - 1 && m = 2 ^ f.fbits - 1 then .nan
  else if e = 0 then .fin neg m f.qmin
  else .fin neg (m + 2 ^ f.fbits) (f.qmin + e - 1)

/-! ### Rounding (R46, R49) -/

/-- A magnitude (m + δ) × 2^e, with 0 < δ < 1 when `sticky` and δ = 0 otherwise, as a multiple of 2^q: to nearest
even, or toward zero; and whether it was inexact. -/
def roundAt (m : Nat) (e : Int) (sticky : Bool) (q : Int) (rtz : Bool) : Nat × Bool :=
  if q ≤ e then (m * 2 ^ (e - q).toNat, sticky)
  else
    let sh := (q - e).toNat
    let k := m / 2 ^ sh
    let lo := m % 2 ^ sh
    let half := 2 ^ (sh - 1)
    let up : Bool := !rtz && (decide (half < lo) || (lo == half && (sticky || k % 2 == 1)))
    (if up then k + 1 else k, lo != 0 || sticky)

/-- The outcome of rounding a magnitude to a format whose exponent is unbounded above: the encoding without its
sign when it is in range, and whether the result was inexact and tiny. -/
structure Rounded where
  ovf : Bool
  bits : Nat
  inexact : Bool
  tiny : Bool
  deriving DecidableEq, Repr

def Fmt.round (f : Fmt) (m : Nat) (e : Int) (sticky rtz : Bool) : Rounded :=
  let q0 : Int := (Nat.log2 m : Int) + e - f.fbits
  let q : Int := if q0 < f.qmin then f.qmin else q0
  let (k, ix) := roundAt m e sticky q rtz
  let (k', q') := if 2 ^ (f.fbits + 1) ≤ k then (k / 2, q + 1) else (k, q)
  let ex : Int := if k' < 2 ^ f.fbits then 0 else q' - f.qmin + 1
  let frac := if k' < 2 ^ f.fbits then k' else k' - 2 ^ f.fbits
  let top : Int := 2 ^ f.ebits - 1
  let ovf : Bool := if f.inf then decide (top ≤ ex) else decide (top < ex) || (ex == top && frac == 2 ^ f.fbits - 1)
  { ovf := ovf
    bits := ex.toNat * 2 ^ f.fbits + frac
    inexact := ix
    tiny := (m != 0 || sticky) && decide ((Nat.log2 m : Int) + e < f.qmin + f.fbits) }

/-! ### Flags (R52) -/

def flNX : Nat := 1
def flUF : Nat := 2
def flOF : Nat := 4
def flNV : Nat := 8
def flSAT : Nat := 16
def flACC : Nat := 32

/-- An arithmetic result rounded once to nearest even, with its flags (R46, R53). -/
def Fmt.arith (f : Fmt) (neg : Bool) (m : Nat) (e : Int) (sticky : Bool) : Nat × Nat :=
  let r := f.round m e sticky false
  if r.ovf then (f.infBits neg, flOF + flNX)
  else (f.signBit neg + r.bits, if r.inexact then flNX + (if r.tiny then flUF else 0) else 0)

/-! ### Exact sums -/

/-- A signed dyadic number m × 2^e. -/
structure Dy where
  m : Int
  e : Int
  deriving DecidableEq, Repr

def Dy.add (x y : Dy) : Dy :=
  let e := min x.e y.e
  ⟨x.m * 2 ^ (x.e - e).toNat + y.m * 2 ^ (y.e - e).toNat, e⟩
def Dy.mul (x y : Dy) : Dy := ⟨x.m * y.m, x.e + y.e⟩
def Dy.neg (x : Dy) : Dy := ⟨-x.m, x.e⟩
def Dy.le (x y : Dy) : Bool := decide ((x.add y.neg).m ≤ 0)

def FVal.dy : FVal → Dy
  | .fin neg m e => ⟨if neg then -(m : Int) else m, e⟩
  | _ => ⟨0, 0⟩
def FVal.isNan : FVal → Bool
  | .nan => true
  | _ => false
def FVal.isInf : FVal → Bool
  | .inf _ => true
  | _ => false
def FVal.isZero : FVal → Bool
  | .fin _ 0 _ => true
  | _ => false
def FVal.sign : FVal → Bool
  | .nan => false
  | .inf n => n
  | .fin n _ _ => n
def FVal.negate : FVal → FVal
  | .nan => .nan
  | .inf n => .inf (!n)
  | .fin n m e => .fin (!n) m e

/-- Rounds an exact sum; a sum of zero takes the sign given (R48). -/
def Fmt.ofDy (f : Fmt) (x : Dy) (zeroNeg : Bool) : Nat × Nat :=
  if x.m = 0 then (f.signBit zeroNeg, 0) else f.arith (decide (x.m < 0)) x.m.natAbs x.e false

/-! ### Lane operations (R234-R235) -/

/-- x × y + z with one rounding; `hasProduct` tells VADD from VFMA. -/
def Fmt.fma (f : Fmt) (x y z : FVal) : Nat × Nat :=
  let bad0 : Bool := (x.isZero && y.isInf) || (x.isInf && y.isZero)
  let ps := Bool.xor x.sign y.sign
  if x.isNan || y.isNan || z.isNan then (f.nan, if bad0 then flNV else 0)
  else if bad0 then (f.nan, flNV)
  else if x.isInf || y.isInf then
    if z.isInf && z.sign != ps then (f.nan, flNV) else (f.infBits ps, 0)
  else if z.isInf then (f.infBits z.sign, 0)
  else f.ofDy ((x.dy.mul y.dy).add z.dy) ((x.isZero || y.isZero) && z.isZero && ps && z.sign)

def Fmt.one (_ : Fmt) : FVal := .fin false 1 0

/-- A sum: x × 1 + y. -/
def Fmt.add (f : Fmt) (x y : FVal) : Nat × Nat := f.fma x f.one y

def Fmt.mul (f : Fmt) (x y : FVal) : Nat × Nat :=
  let ps := Bool.xor x.sign y.sign
  if x.isNan || y.isNan then (f.nan, if (x.isZero && y.isInf) || (x.isInf && y.isZero) then flNV else 0)
  else if (x.isZero && y.isInf) || (x.isInf && y.isZero) then (f.nan, flNV)
  else if x.isInf || y.isInf then (f.infBits ps, 0)
  else f.ofDy (x.dy.mul y.dy) ps

/-- A key that orders values with -0 below +0: infinities beyond every finite value. -/
def FVal.less (x y : FVal) : Bool :=
  match x, y with
  | .inf a, .inf b => a && !b
  | .inf a, _ => a
  | _, .inf b => !b
  | _, _ => if x.dy.m = 0 && y.dy.m = 0 then x.sign && !y.sign else !(y.dy.le x.dy)

/-- Values equal, -0 and +0 alike. -/
def FVal.same (x y : FVal) : Bool :=
  match x, y with
  | .nan, _ => false
  | _, .nan => false
  | .inf a, .inf b => a == b
  | .inf _, _ => false
  | _, .inf _ => false
  | _, _ => x.dy.le y.dy && y.dy.le x.dy

def Fmt.minmax (f : Fmt) (max : Bool) (a b : Nat) : Nat × Nat :=
  let x := f.val a
  let y := f.val b
  if x.isNan || y.isNan then (f.nan, 0)
  else if max then (if x.less y then b else a, 0) else (if y.less x then b else a, 0)

def Fmt.abs (f : Fmt) (a : Nat) : Nat := if (f.val a).isNan then f.nan else a % 2 ^ (f.width - 1)
def Fmt.negBits (f : Fmt) (a : Nat) : Nat :=
  if (f.val a).isNan then f.nan else if a < 2 ^ (f.width - 1) then a + 2 ^ (f.width - 1) else a - 2 ^ (f.width - 1)

/-- The integer square root by bits from the top. -/
def isqrtBits : Nat → Nat → Nat → Nat
  | 0, _, r => r
  | n + 1, x, r => let t := r + 2 ^ n; isqrtBits n x (if t * t ≤ x then t else r)
def isqrt (x : Nat) : Nat := isqrtBits (Nat.log2 x / 2 + 1) x 0

def Fmt.sqrt (f : Fmt) (x : FVal) : Nat × Nat :=
  match x with
  | .nan => (f.nan, 0)
  | .inf n => if n then (f.nan, flNV) else (f.infBits false, 0)
  | .fin n 0 _ => (f.signBit n, 0)
  | .fin true _ _ => (f.nan, flNV)
  | .fin false m e =>
    let (m1, e1) := if e % 2 = 0 then (m, e) else (2 * m, e - 1)
    let big := m1 * 2 ^ 64
    let r := isqrt big
    f.arith false r (e1 / 2 - 32) (r * r != big)

def Fmt.rcp (f : Fmt) (x : FVal) : Nat × Nat :=
  match x with
  | .nan => (f.nan, 0)
  | .inf n => (f.signBit n, 0)
  | .fin n 0 _ => (f.infBits n, 0)
  | .fin n m e =>
    let k := Nat.log2 m + 200
    f.arith n (2 ^ k / m) (-e - k) (2 ^ k % m != 0)

def Fmt.rsq (f : Fmt) (x : FVal) : Nat × Nat :=
  match x with
  | .nan => (f.nan, 0)
  | .inf n => if n then (f.nan, flNV) else (f.signBit false, 0)
  | .fin n 0 _ => (f.infBits n, 0)
  | .fin true _ _ => (f.nan, flNV)
  | .fin false m e =>
    let (m1, e1) := if e % 2 = 0 then (m, e) else (2 * m, e - 1)
    let k := Nat.log2 m1 + 40
    let r := isqrt (2 ^ (2 * k) / m1)
    f.arith false r (-(e1 / 2) - k) (r * r * m1 != 2 ^ (2 * k))

/-- 2^(j / 2^t) × 2^160 from below: the product of the roots 2^(1/2^i) for the bits of j, each cut to 160 bits.
`root` is 2^(1/2^(i-1)), `acc` the product so far. -/
def exp2Frac : Nat → Nat → Nat → Nat → Nat
  | 0, _, _, acc => acc
  | n + 1, j, root, acc =>
    let r := isqrt (root * 2 ^ 160)
    exp2Frac n j r (if j / 2 ^ n % 2 = 1 then acc * r / 2 ^ 160 else acc)

/-- 2^x. At a value that is not an integer the result is irrational; 160 bits decide its rounding (log 17, DESIGN CHOICE). -/
def Fmt.exp2 (f : Fmt) (x : FVal) : Nat × Nat :=
  match x with
  | .nan => (f.nan, 0)
  | .inf n => if n then (f.signBit false, 0) else (f.infBits false, 0)
  | .fin neg m e =>
    if m = 0 then f.arith false 1 0 false
    else
      let d := x.dy
      if 0 ≤ e || m % 2 ^ (-e).toNat = 0 then
        let n : Int := if 0 ≤ e then d.m * 2 ^ (min e 20).toNat else d.m / 2 ^ (-e).toNat
        f.arith false 1 (max (-1000) (min n 1000)) false
      else
        let t := (-e).toNat
        let i : Int := d.m / 2 ^ t
        let j := (d.m % 2 ^ t).toNat
        if 1000 < i then f.arith false 1 1000 false
        else if i < -1000 then f.arith false 1 (-1000) true
        else if (Nat.log2 m : Int) + e < -40 then
          if neg then f.arith false (2 ^ 60 - 1) (-60) true else f.arith false (2 ^ 60) (-60) true
        else f.arith false (exp2Frac t j (2 ^ 161) (2 ^ 160)) (i - 160) true

/-- va × 2^n. -/
def Fmt.scale (f : Fmt) (a : Nat) (n : Int) : Nat × Nat :=
  match f.val a with
  | .nan => (f.nan, 0)
  | .inf s => (f.infBits s, 0)
  | .fin s 0 _ => (f.signBit s, 0)
  | .fin s m e => f.arith s m (e + max (-1000) (min n 1000)) false

/-- The exact sum of values rounded once (R238, R213). -/
def Fmt.sum (f : Fmt) (xs : List FVal) : Nat × Nat :=
  if xs.any FVal.isNan then (f.nan, 0)
  else if xs.any (fun x => x == .inf true) && xs.any (fun x => x == .inf false) then (f.nan, flNV)
  else match xs.find? FVal.isInf with
    | some x => (f.infBits x.sign, 0)
    | none => f.ofDy (xs.foldl (fun acc x => acc.add x.dy) ⟨0, 0⟩) (!xs.isEmpty && xs.all fun x => x.isZero && x.sign)

/-! ### Conversions (R49-R53) -/

/-- Element types by their T code (R230). -/
inductive ElemT where
  | flt (f : Fmt)
  | int (w : Nat)
  deriving DecidableEq, Repr

def elemT : Nat → ElemT
  | 0 => .flt f32
  | 1 => .flt bf16
  | 2 => .flt e4m3
  | 3 => .flt e5m2
  | 4 => .int 32
  | _ => .int 8

def ElemT.width : ElemT → Nat
  | .flt f => f.width
  | .int w => w

/-- A conversion's rounding mode (R49). -/
def modeRtz (mode : Nat) : Bool := mode == 1 || mode == 3
def modeSat (mode : Nat) : Bool := mode == 2 || mode == 3

def intMax (w : Nat) : Int := 2 ^ (w - 1) - 1
def intMin (w : Nat) : Int := -(2 ^ (w - 1))

/-- A conversion of an exact value to a floating-point format. -/
def Fmt.conv (f : Fmt) (mode : Nat) (x : FVal) : Nat × Nat :=
  match x with
  | .nan => (f.nan, 0)
  | .inf n =>
    if modeSat mode then (f.maxBits n, flSAT)
    else if f.inf then (f.infBits n, 0) else (f.nan, flNV)
  | .fin n m e =>
    let r := f.round m e false (modeRtz mode)
    if r.ovf then
      if modeSat mode then (f.maxBits n, flSAT + flNX)
      else if !f.inf then (f.nan, flOF + flNX)
      else if modeRtz mode then (f.maxBits n, flOF + flNX) else (f.infBits n, flOF + flNX)
    else (f.signBit n + r.bits, if r.inexact then flNX + (if r.tiny then flUF else 0) else 0)

/-- A conversion of an exact value to an integer type. -/
def convInt (w mode : Nat) (x : FVal) : Nat × Nat :=
  let lim : Bool → Nat := fun n => if n then wrap w (intMin w) else wrap w (intMax w)
  match x with
  | .nan => (0, flNV)
  | .inf n => (lim n, if modeSat mode then flSAT else flNV)
  | .fin n m e =>
    let (k, ix) := roundAt m e false 0 (modeRtz mode)
    let v : Int := if n then -(k : Int) else k
    if v < intMin w || intMax w < v then (lim n, if modeSat mode then flSAT + flNX else flNV)
    else (wrap w v, if ix then flNX else 0)

/-- One lane of VCVT. -/
def convert (dst src : ElemT) (mode bits : Nat) : Nat × Nat :=
  match dst, src with
  | .int w, .int v =>
    let x := sval v bits
    if w < v && modeSat mode && (x < intMin w || intMax w < x) then
      (wrap w (if x < 0 then intMin w else intMax w), flSAT)
    else (wrap w x, 0)
  | .int w, .flt f => convInt w mode (f.val bits)
  | .flt f, .int v =>
    let x := sval v bits
    f.conv mode (.fin (decide (x < 0)) x.natAbs 0)
  | .flt f, .flt g => f.conv mode (g.val bits)

end Sys2Proof.Machine
end

