-- ==== Sys2Proof/Machine/Flags.lean ====
section
/-!
DEFINITION. Flags: ASTAT, the sticky status flags of a thread (R52), and the flags that the lanes of a vector
instruction raise (R53).
-/

namespace Sys2Proof.Machine

open Sys2Proof

/-- The OR of the flags that lanes raise. -/
def orFlags (fs : List Nat) : Nat := fs.foldl (fun a b => a ||| b) 0

/-- Sets flags of a thread; none is cleared. -/
def State.raiseFor (s : State) (id fl : Nat) : State :=
  if fl = 0 then s
  else s.modAny id fun t => { t with sys := { t.sys with astat := t.sys.astat ||| BitVec.ofNat 32 fl } }

def State.raise (s : State) (fl : Nat) : State := s.raiseFor s.cur fl

end Sys2Proof.Machine
end

