-- ==== Sys2Proof/Machine/Vector.lean ====
section
/-!
DEFINITION. Vector: the vector unit (R230-R243): integer and floating lanes, compare, select, rearrange, reduce,
convert, mask registers, and transfers to and from scalar registers.
-/

namespace Sys2Proof.Machine

open Sys2Proof

/-! ### Lanes (R230-R231) -/

/-- The lane width in bits of a T code. -/
def laneW (t : Nat) : Nat := (elemT t).width

/-- Lane `i` of a width in bits is enabled. -/
def laneOn (k : Mask) (w i : Nat) : Bool := k.getLsbD (i * (w / 8))

/-- The lanes of a destination: enabled ones computed, the others kept; and the flags of the enabled ones. -/
def mapLanes (w : Nat) (k : Mask) (old : VWord) (f : Nat → Nat × Nat) : VWord × Nat :=
  let rs := (List.range (512 / w)).map fun i => if laneOn k w i then f i else (lane old w i, 0)
  (ofLanes w (rs.map Prod.fst), orFlags (rs.map Prod.snd))

/-- A V-format instruction that computes lanes under its mask. -/
def State.vlanes (s : State) (srcs : List Nat) (w : Nat) (vd : BitVec 4) (k : BitVec 3) (f : State → Nat → Nat × Nat) :
    Host.Outcome State Fault Refusal :=
  s.perform (srcs.map Opnd.v) fun t =>
    let r := mapLanes w (t.rK k.toNat) (t.rV vd.toNat) (f t)
    .ok ((t.wVm k.toNat vd.toNat r.1).raise r.2)

/-! ### Integer lanes (R233) -/

/-- VINT's result in a lane of `w` bits, from the operands taken unsigned. -/
def vintLane (op w a b : Nat) : Nat :=
  let sa := sval w a
  let sb := sval w b
  let n := b % w
  match op with
  | 0 => (a + b) % 2 ^ w
  | 1 => (a + 2 ^ w - b) % 2 ^ w
  | 2 => wrap w (sa * sb)
  | 3 => if sa < sb then a else b
  | 4 => if sa < sb then b else a
  | 5 => Nat.land a b
  | 6 => Nat.lor a b
  | 7 => Nat.xor a b
  | 8 => a * 2 ^ n % 2 ^ w
  | 9 => a / 2 ^ n
  | 10 => wrap w (sa / 2 ^ n)
  | _ => wrap w sa.natAbs

def State.vint (s : State) (op : Nat) (t : BitVec 3) (vd va vb : BitVec 4) (k : BitVec 3) : Host.Outcome State Fault Refusal :=
  let w := laneW t.toNat
  s.vlanes (if op = 11 then [va.toNat] else [va.toNat, vb.toNat]) w vd k fun u i =>
    (vintLane op w (lane (u.rV va.toNat) w i) (lane (u.rV vb.toNat) w i), 0)

def execViadd (t : BitVec 3) (vd va vb : BitVec 4) (k : BitVec 3) (s : State) : Host.Outcome State Fault Refusal := s.vint 0 t vd va vb k
def execVisub (t : BitVec 3) (vd va vb : BitVec 4) (k : BitVec 3) (s : State) : Host.Outcome State Fault Refusal := s.vint 1 t vd va vb k
def execVimul (t : BitVec 3) (vd va vb : BitVec 4) (k : BitVec 3) (s : State) : Host.Outcome State Fault Refusal := s.vint 2 t vd va vb k
def execVimin (t : BitVec 3) (vd va vb : BitVec 4) (k : BitVec 3) (s : State) : Host.Outcome State Fault Refusal := s.vint 3 t vd va vb k
def execVimax (t : BitVec 3) (vd va vb : BitVec 4) (k : BitVec 3) (s : State) : Host.Outcome State Fault Refusal := s.vint 4 t vd va vb k
def execViand (t : BitVec 3) (vd va vb : BitVec 4) (k : BitVec 3) (s : State) : Host.Outcome State Fault Refusal := s.vint 5 t vd va vb k
def execVior (t : BitVec 3) (vd va vb : BitVec 4) (k : BitVec 3) (s : State) : Host.Outcome State Fault Refusal := s.vint 6 t vd va vb k
def execVixor (t : BitVec 3) (vd va vb : BitVec 4) (k : BitVec 3) (s : State) : Host.Outcome State Fault Refusal := s.vint 7 t vd va vb k
def execVisll (t : BitVec 3) (vd va vb : BitVec 4) (k : BitVec 3) (s : State) : Host.Outcome State Fault Refusal := s.vint 8 t vd va vb k
def execVisrl (t : BitVec 3) (vd va vb : BitVec 4) (k : BitVec 3) (s : State) : Host.Outcome State Fault Refusal := s.vint 9 t vd va vb k
def execVisra (t : BitVec 3) (vd va vb : BitVec 4) (k : BitVec 3) (s : State) : Host.Outcome State Fault Refusal := s.vint 10 t vd va vb k
def execViabs (t : BitVec 3) (vd va : BitVec 4) (k : BitVec 3) (s : State) : Host.Outcome State Fault Refusal := s.vint 11 t vd va 0 k

/-! ### Floating-point lanes (R234-R235) -/

/-- The format of a VFLT T code. -/
def vfltFmt (t : Nat) : Fmt := if t = 0 then f32 else bf16

/-- VFLT's result and flags in a lane, from the operands and the destination's old lane. -/
def vfltLane (op : Nat) (f : Fmt) (a b d : Nat) : Nat × Nat :=
  let x := f.val a
  let y := f.val b
  match op with
  | 0 => f.add x y
  | 1 => f.add x y.negate
  | 2 => f.mul x y
  | 3 => f.fma x y (f.val d)
  | 4 => f.fma x y (f.val d).negate
  | 5 => f.minmax false a b
  | 6 => f.minmax true a b
  | 7 => (f.abs a, 0)
  | 8 => (f.negBits a, 0)
  | 9 => f.sqrt x
  | 10 => f.rcp x
  | 11 => f.rsq x
  | 12 => f.exp2 x
  | _ => f.scale a (sval f.width b)

/-- The vector sources of a VFLT form. -/
def vfltSources (op : Nat) (vd va vb : BitVec 4) : List Nat :=
  if op = 3 || op = 4 then [va.toNat, vb.toNat, vd.toNat]
  else if 7 ≤ op && op ≤ 12 then [va.toNat]
  else [va.toNat, vb.toNat]

def State.vflt (s : State) (op : Nat) (t : BitVec 3) (vd va vb : BitVec 4) (k : BitVec 3) : Host.Outcome State Fault Refusal :=
  let f := vfltFmt t.toNat
  let w := f.width
  s.vlanes (vfltSources op vd va vb) w vd k fun u i =>
    vfltLane op f (lane (u.rV va.toNat) w i) (lane (u.rV vb.toNat) w i) (lane (u.rV vd.toNat) w i)

def execVadd (t : BitVec 3) (vd va vb : BitVec 4) (k : BitVec 3) (s : State) : Host.Outcome State Fault Refusal := s.vflt 0 t vd va vb k
def execVsub (t : BitVec 3) (vd va vb : BitVec 4) (k : BitVec 3) (s : State) : Host.Outcome State Fault Refusal := s.vflt 1 t vd va vb k
def execVmul (t : BitVec 3) (vd va vb : BitVec 4) (k : BitVec 3) (s : State) : Host.Outcome State Fault Refusal := s.vflt 2 t vd va vb k
def execVfma (t : BitVec 3) (vd va vb : BitVec 4) (k : BitVec 3) (s : State) : Host.Outcome State Fault Refusal := s.vflt 3 t vd va vb k
def execVfms (t : BitVec 3) (vd va vb : BitVec 4) (k : BitVec 3) (s : State) : Host.Outcome State Fault Refusal := s.vflt 4 t vd va vb k
def execVmin (t : BitVec 3) (vd va vb : BitVec 4) (k : BitVec 3) (s : State) : Host.Outcome State Fault Refusal := s.vflt 5 t vd va vb k
def execVmax (t : BitVec 3) (vd va vb : BitVec 4) (k : BitVec 3) (s : State) : Host.Outcome State Fault Refusal := s.vflt 6 t vd va vb k
def execVscl (t : BitVec 3) (vd va vb : BitVec 4) (k : BitVec 3) (s : State) : Host.Outcome State Fault Refusal := s.vflt 13 t vd va vb k
def execVabs (t : BitVec 3) (vd va : BitVec 4) (k : BitVec 3) (s : State) : Host.Outcome State Fault Refusal := s.vflt 7 t vd va 0 k
def execVneg (t : BitVec 3) (vd va : BitVec 4) (k : BitVec 3) (s : State) : Host.Outcome State Fault Refusal := s.vflt 8 t vd va 0 k
def execVsqrt (t : BitVec 3) (vd va : BitVec 4) (k : BitVec 3) (s : State) : Host.Outcome State Fault Refusal := s.vflt 9 t vd va 0 k
def execVrcp (t : BitVec 3) (vd va : BitVec 4) (k : BitVec 3) (s : State) : Host.Outcome State Fault Refusal := s.vflt 10 t vd va 0 k
def execVrsq (t : BitVec 3) (vd va : BitVec 4) (k : BitVec 3) (s : State) : Host.Outcome State Fault Refusal := s.vflt 11 t vd va 0 k
def execVexp2 (t : BitVec 3) (vd va : BitVec 4) (k : BitVec 3) (s : State) : Host.Outcome State Fault Refusal := s.vflt 12 t vd va 0 k

/-! ### Compare, select and rearrange (R236-R237) -/

/-- A lane comparison: 0 EQ, 1 LT, 2 LE, 3 NE. -/
def cmpLane (cond t a b : Nat) : Bool :=
  let p : Bool × Bool := match elemT t with
    | .int w => (a == b, decide (sval w a < sval w b))
    | .flt f =>
      let x := f.val a
      let y := f.val b
      (x.same y, !x.isNan && !y.isNan && !x.same y && x.less y)
  match cond with
  | 0 => p.1
  | 1 => p.2
  | 2 => p.1 || p.2
  | _ => !p.1

/-- A mask of which every bit of an enabled lane holds its result, and the others are kept. -/
def cmpMask (w : Nat) (k old : Mask) (r : Nat → Bool) : Mask :=
  BitVec.ofNat 64 ((List.range 64).foldr
    (fun j acc => (if (if laneOn k w (j / (w / 8)) then r (j / (w / 8)) else old.getLsbD j) then 1 else 0) + 2 * acc) 0)

/-- A write of a mask register under a mask register. -/
def State.wKm (s : State) (k n : Nat) (v : Mask) : State := if k = 0 then s.wK n v else s.wKpart n v

def execVcmp (cond : BitVec 2) (t kd : BitVec 3) (va vb : BitVec 4) (k : BitVec 3) (s : State) : Host.Outcome State Fault Refusal :=
  let w := laneW t.toNat
  s.perform [.v va.toNat, .v vb.toNat] fun u =>
    .ok (u.wKm k.toNat kd.toNat (cmpMask w (u.rK k.toNat) (u.rK kd.toNat) fun i =>
      cmpLane cond.toNat t.toNat (lane (u.rV va.toNat) w i) (lane (u.rV vb.toNat) w i)))

/-- VSEL: the mask selects and the write is full. -/
def execVsel (t : BitVec 3) (vd va vb : BitVec 4) (k : BitVec 3) (s : State) : Host.Outcome State Fault Refusal :=
  let w := laneW t.toNat
  s.perform [.v va.toNat, .v vb.toNat] fun u =>
    .ok (u.wV vd.toNat (ofLanes w ((List.range (512 / w)).map fun i =>
      if laneOn (u.rK k.toNat) w i then lane (u.rV va.toNat) w i else lane (u.rV vb.toNat) w i)))

def execVshuf (t : BitVec 3) (vd va vb : BitVec 4) (k : BitVec 3) (s : State) : Host.Outcome State Fault Refusal :=
  let w := laneW t.toNat
  s.vlanes [va.toNat, vb.toNat] w vd k fun u i =>
    (lane (u.rV va.toNat) w (lane (u.rV vb.toNat) w i % (512 / w)), 0)

def execVslide (t : BitVec 3) (vd va vb : BitVec 4) (k : BitVec 3) (s : State) : Host.Outcome State Fault Refusal :=
  let w := laneW t.toNat
  s.vlanes [va.toNat, vb.toNat] w vd k fun u i =>
    let j : Int := i + sval 32 (lane (u.rV vb.toNat) 32 0)
    (if 0 ≤ j && j < (512 / w : Nat) then lane (u.rV va.toNat) w j.toNat else 0, 0)

/-! ### Reductions (R238) -/

/-- The reduction of values of a lane type: 0 sum, 1 greatest, 2 least. -/
def reduceLanes (op t : Nat) (xs : List Nat) : Nat × Nat :=
  match elemT t with
  | .int w =>
    let vs := xs.map (sval w)
    match op with
    | 0 => (wrap w (vs.foldl (· + ·) 0), 0)
    | 1 => (wrap w (vs.foldl max (intMin w)), 0)
    | _ => (wrap w (vs.foldl min (intMax w)), 0)
  | .flt f =>
    match op with
    | 0 => f.sum (xs.map f.val)
    | 1 => xs.foldl (fun acc x => f.minmax true acc.1 x) (f.infBits true, 0)
    | _ => xs.foldl (fun acc x => f.minmax false acc.1 x) (f.infBits false, 0)

def State.vred (s : State) (op : Nat) (t : BitVec 3) (vd va : BitVec 4) (k : BitVec 3) : Host.Outcome State Fault Refusal :=
  let w := laneW t.toNat
  s.perform [.v va.toNat] fun u =>
    let on := (List.range (512 / w)).filter fun i => laneOn (u.rK k.toNat) w i
    let r := reduceLanes op t.toNat (on.map fun i => lane (u.rV va.toNat) w i)
    .ok ((u.wV vd.toNat (ofLanes w [r.1])).raise r.2)

def execVredsum (t : BitVec 3) (vd va : BitVec 4) (k : BitVec 3) (s : State) : Host.Outcome State Fault Refusal := s.vred 0 t vd va k
def execVredmax (t : BitVec 3) (vd va : BitVec 4) (k : BitVec 3) (s : State) : Host.Outcome State Fault Refusal := s.vred 1 t vd va k
def execVredmin (t : BitVec 3) (vd va : BitVec 4) (k : BitVec 3) (s : State) : Host.Outcome State Fault Refusal := s.vred 2 t vd va k

/-! ### Conversion (R239) -/

def execVcvt (mode : BitVec 2) (t : BitVec 3) (src vd va : BitVec 4) (k : BitVec 3) (s : State) : Host.Outcome State Fault Refusal :=
  let wd := laneW t.toNat
  let ws := laneW src.toNat
  let n := min (512 / wd) (512 / ws)
  s.perform [.v va.toNat] fun u =>
    let r := mapLanes wd (u.rK k.toNat) (u.rV vd.toNat) fun i =>
      if i < n then convert (elemT t.toNat) (elemT src.toNat) mode.toNat (lane (u.rV va.toNat) ws i) else (0, 0)
    .ok ((u.wVm k.toNat vd.toNat (ofLanes wd ((lanes r.1 wd).take n))).raise r.2)

/-! ### Mask registers (R240) -/

def State.kop (s : State) (kd : BitVec 3) (f : State → Mask) : Host.Outcome State Fault Refusal :=
  s.perform [] fun u => .ok (u.wK kd.toNat (f u))

def execKand (kd ka kb : BitVec 3) (s : State) : Host.Outcome State Fault Refusal := s.kop kd fun u => u.rK ka.toNat &&& u.rK kb.toNat
def execKor (kd ka kb : BitVec 3) (s : State) : Host.Outcome State Fault Refusal := s.kop kd fun u => u.rK ka.toNat ||| u.rK kb.toNat
def execKnot (kd ka : BitVec 3) (s : State) : Host.Outcome State Fault Refusal := s.kop kd fun u => ~~~(u.rK ka.toNat)
def execKmov (kd ka : BitVec 3) (s : State) : Host.Outcome State Fault Refusal := s.kop kd fun u => u.rK ka.toNat

/-! ### Transfers (R241) -/

/-- The lane width in bits of a VXFER M code. -/
def xferW (m : BitVec 3) : Nat := 32 / 2 ^ m.toNat

def execVbcast (vd : BitVec 4) (a : BitVec 5) (m : BitVec 3) (s : State) : Host.Outcome State Fault Refusal :=
  s.perform [.s a.toNat] fun u =>
    .ok (u.wV vd.toNat (ofLanes (xferW m) (List.replicate (512 / xferW m) (u.rS a.toNat).toNat)))

def execVget (d : BitVec 5) (va : BitVec 4) (b : BitVec 5) (m : BitVec 3) (s : State) : Host.Outcome State Fault Refusal :=
  s.perform [.v va.toNat, .s b.toNat, .d d.toNat] fun u =>
    .ok (u.wS d.toNat (BitVec.ofNat 32 (lane (u.rV va.toNat) (xferW m) ((u.rS b.toNat).toNat % (512 / xferW m)))))

def execVput (vd : BitVec 4) (a b : BitVec 5) (m : BitVec 3) (s : State) : Host.Outcome State Fault Refusal :=
  s.perform [.v vd.toNat, .s a.toNat, .s b.toNat] fun u =>
    .ok (u.wVpart vd.toNat (ofLanes (xferW m)
      (setAt (lanes (u.rV vd.toNat) (xferW m)) ((u.rS b.toNat).toNat % (512 / xferW m)) (u.rS a.toNat).toNat)))

def execKget (d : BitVec 5) (ka w : BitVec 3) (s : State) : Host.Outcome State Fault Refusal :=
  s.perform [.d d.toNat] fun u => .ok (u.wS d.toNat (BitVec.ofNat 32 (fieldOf (u.rK ka.toNat) (32 * w.toNat) 32)))

def execKset (kd : BitVec 3) (a : BitVec 5) (w : BitVec 3) (s : State) : Host.Outcome State Fault Refusal :=
  s.perform [.s a.toNat] fun u =>
    .ok (u.wKpart kd.toNat (setField (u.rK kd.toNat) (32 * w.toNat) 32 (u.rS a.toNat).toNat))

end Sys2Proof.Machine
end

