-- ==== Sys2Proof/Machine/Matrix.lean ====
section
/-!
DEFINITION. Matrix: the matrix engine (R244-R264): tiles, the format context, latches and receive buffers, the
queue, the summation of each format, and the events of the queue.
-/

namespace Sys2Proof.Machine

open Sys2Proof

/-! ### The format context (R247-R248) -/

def fmtA (w : Word) : Nat := fieldOf w 0 4
def fmtB (w : Word) : Nat := fieldOf w 4 4

/-- A legal format word. -/
def fmtLegal (w : Word) : Bool :=
  let a := fmtA w
  let b := fmtB w
  let fp8 : Nat → Bool := fun x => x == 2 || x == 3
  fieldOf w 10 22 == 0 &&
    ((a == 1 && b == 1 && fieldOf w 8 2 == 0) || (fp8 a && fp8 b && fieldOf w 8 2 == 0)
      || (a == 5 && b == 5 && w.getLsbD 8) || (fp8 a && b == 7 && fieldOf w 8 2 == 0))

/-- K of an operation (R244). -/
def mxK (w : Word) : Nat := if fmtB w = 7 then 256 else if fmtA w = 1 then 64 else 128
def aBytes (w : Word) : Nat := if fmtB w = 7 then 4096 else 2048
def bBytes (w : Word) : Nat := if fmtB w = 7 then 2112 else 2048

/-! ### Summation (R253-R257) -/

/-- Splits a list into pieces of `n`. -/
def chunks {α : Type} (n : Nat) : Nat → List α → List (List α)
  | 0, _ => []
  | f + 1, l => if l.isEmpty then [] else l.take n :: chunks n f (l.drop n)

/-- Elements of `w` bytes. -/
def elems (w : Nat) (bs : List Byte) : List Nat := if w = 1 then bs.map BitVec.toNat else (chunks w bs.length bs).map leNat

/-- The format of a floating A or B format code. -/
def mxFmt (code : Nat) : Fmt := if code = 1 then bf16 else if code = 2 then e4m3 else e5m2

/-- exp(x) of an FP8 element. -/
def fp8Exp (f : Fmt) (bits : Nat) : Int :=
  let e := fld bits f.fbits f.ebits
  if e = 0 then 1 - f.bias else (e : Int) - f.bias

/-- The values of the NQ4 codebook, as BF16 encodings (R55). -/
def codebook : List Nat :=
  [0xBF80, 0xBF32, 0xBF06, 0xBECA, 0xBE92, 0xBE3C, 0xBDB8, 0x0000, 0x3DA0, 0x3E24, 0x3E7C, 0x3EAC, 0x3EE2, 0x3F10, 0x3F39, 0x3F80]

/-- An A or B element as the engine uses it: its value, and its exponent for the FP8 chunks. -/
structure MxElem where
  v : FVal
  x : Int
  deriving DecidableEq, Repr

/-- floor(m × 2^e). -/
def floorDy (d : Dy) : Int := if 0 ≤ d.e then d.m * 2 ^ d.e.toNat else d.m / 2 ^ (-d.e).toNat

/-- The 24-bit inner accumulator over a chunk (R254): its value and whether it saturated. -/
def innerSum (e : Int) (ps : List Dy) : Int × Bool :=
  ps.foldl (fun (acc : Int × Bool) p =>
    let n := acc.1 + floorDy ⟨p.m, p.e - (e - 17)⟩
    if 2 ^ 23 - 1 < n then (2 ^ 23 - 1, true) else if n < -(2 ^ 23) then (-(2 ^ 23), true) else (n, acc.2)) (0, false)

def maxExp (l : List MxElem) : Int := l.foldl (fun m y => max m y.x) ((l.map MxElem.x).headD 0)

/-- One FP32 addition into the accumulator, with flags. -/
def accAdd (acc : Nat × Nat) (term : FVal) : Nat × Nat :=
  let r := f32.add (f32.val acc.1) term
  (r.1, acc.2 ||| r.2)

/-- A signed term of an exact value. -/
def finOf (n : Int) (m : Nat) (e : Int) (neg : Bool) : FVal := .fin (Bool.xor neg (decide (n < 0))) (n.natAbs * m) e

/-- Special operands (R257): the element they decide, if any. `bz` tells a B element of value zero. -/
def mxSpecial (acc : FVal) (as bs : List FVal) (nanScale : Bool) : Option (Nat × Nat) :=
  let ps := as.zip bs
  let infs := (ps.filter fun p => p.1.isInf || p.2.isInf).map fun p => Bool.xor p.1.sign p.2.sign
  if acc.isNan || as.any FVal.isNan || bs.any FVal.isNan || nanScale then some (f32.nan, 0)
  else if ps.any fun p => (p.1.isInf && p.2.isZero) || (p.1.isZero && p.2.isInf) then some (f32.nan, flNV)
  else if (infs.contains true && infs.contains false) || (acc.isInf && infs.contains (!acc.sign)) then some (f32.nan, flNV)
  else match infs with
    | n :: _ => some (f32.infBits n, 0)
    | [] => if acc.isInf then some (f32.infBits acc.sign, 0) else none

/-- BF16 × BF16 (R253). -/
def sumBf16 (acc : Nat) (as bs : List MxElem) : Nat × Nat :=
  (chunks 16 4 (as.zip bs)).foldl (fun st ch =>
    let ps := ch.map fun p => p.1.v.dy.mul p.2.v.dy
    let allNeg := ch.all fun p => (p.1.v.isZero || p.2.v.isZero) && Bool.xor p.1.v.sign p.2.v.sign
    let s := f32.ofDy (ps.foldl Dy.add ⟨0, 0⟩) allNeg
    let r := accAdd (st.1, st.2 ||| s.2) (f32.val s.1)
    r) (acc, 0)

/-- FP8 × FP8 (R254). -/
def sumFp8 (acc : Nat) (as bs : List MxElem) : Nat × Nat :=
  (chunks 32 4 (as.zip bs)).foldl (fun st ch =>
    let e := maxExp (ch.map Prod.fst) + maxExp (ch.map Prod.snd)
    let n := innerSum e (ch.map fun p => p.1.v.dy.mul p.2.v.dy)
    accAdd (st.1, st.2 ||| if n.2 then flACC else 0) (finOf n.1 1 (e - 17) false)) (acc, 0)

/-- FP8 × NQ4 (R255): `qs` are the column's four block scales. -/
def sumNq4 (acc : Nat) (sc : FVal) (qs : List Nat) (as bs : List MxElem) : Nat × Nat :=
  ((chunks 64 4 (as.zip bs)).zip qs).foldl (fun st chq =>
    let e := maxExp (chq.1.map Prod.fst)
    let n := innerSum e (chq.1.map fun p => p.1.v.dy.mul p.2.v.dy)
    let term : FVal := match sc with
      | .fin neg m es => if n.1 = 0 || chq.2 = 0 then .fin false 0 0 else finOf n.1 (chq.2 * m) (e - 17 + es - 8) neg
      | _ => .nan
    accAdd (st.1, st.2 ||| if n.2 then flACC else 0) term) (acc, 0)

/-- INT8 × INT8 (R256). -/
def sumInt8 (isat : Bool) (acc : Nat) (as bs : List Nat) : Nat × Nat :=
  let x := (as.zip bs).foldl (fun t p => t + sval 8 p.1 * sval 8 p.2) (sval 32 acc)
  if isat && (x < intMin 32 || intMax 32 < x) then (wrap 32 (if x < 0 then intMin 32 else intMax 32), flSAT) else (wrap 32 x, 0)

/-- The B elements of a column of an NQ4 tile (R245) as codes. -/
def nq4Codes (tile : List Byte) (c : Nat) : List Nat :=
  ((tile.drop (128 * c)).take 128).flatMap fun b => [b.toNat % 16, b.toNat / 16]

/-- The columns of a B tile as raw elements. -/
def bColumn (w : Word) (tile : List Byte) (c : Nat) : List Nat :=
  if fmtB w = 7 then nq4Codes tile c
  else
    let ew := if fmtB w = 1 then 2 else 1
    elems ew ((tile.drop (c * mxK w * ew)).take (mxK w * ew))

/-- One element of C. -/
def mxElement (w super : Word) (arow bcol qs : List Nat) (acc : Nat) : Nat × Nat :=
  if fmtA w = 5 then sumInt8 (w.getLsbD 9) acc arow bcol
  else
    let fa := mxFmt (fmtA w)
    let as := arow.map fun b => (⟨fa.val b, fp8Exp fa b⟩ : MxElem)
    if fmtB w = 7 then
      let sc := f32.val super.toNat
      let bs := bcol.map fun b => (⟨bf16.val (codebook.getD b 0), 0⟩ : MxElem)
      let scaled := (bcol.zipIdx).map fun (b, k) =>
        match bf16.val (codebook.getD b 0) with
        | .fin neg m e => FVal.fin (Bool.xor neg sc.sign) (if qs.getD (k / 64) 0 = 0 || sc.isZero then 0 else m) e
        | v => v
      match mxSpecial (f32.val acc) (as.map MxElem.v) scaled (sc.isNan || sc.isInf) with
      | some r => r
      | none => sumNq4 acc sc qs as bs
    else
      let fb := mxFmt (fmtB w)
      let bs := bcol.map fun b => (⟨fb.val b, fp8Exp fb b⟩ : MxElem)
      match mxSpecial (f32.val acc) (as.map MxElem.v) (bs.map MxElem.v) false with
      | some r => r
      | none => if fmtA w = 1 then sumBf16 acc as bs else sumFp8 acc as bs

/-- The product of tiles: the new C words in order and the flags. -/
def mxProduct (w super : Word) (a b : List Byte) (c : List Nat) : List Nat × Nat :=
  let ew := if fmtA w = 1 then 2 else 1
  let rows := chunks (mxK w) 16 (elems ew a)
  let cols := (List.range 16).map fun j => (bColumn w b j, ((b.drop (2048 + 4 * j)).take 4).map BitVec.toNat)
  let rs := (rows.zip (chunks 16 16 c)).flatMap fun (row, crow) =>
    (cols.zip crow).map fun (col, acc) => mxElement w super row col.1 col.2 acc
  (rs.map Prod.fst, orFlags (rs.map Prod.snd))

/-! ### Tiles in TCM (R246) -/

/-- The checks of a tile. -/
def State.tileCheck (s : State) (off size need : Nat) : Option (Nat × Addr) :=
  let a := s.segAddr 0 off
  if (s.seg 0).limit.toNat < off + size || !spaceZeros a.toNat then some (3, a)
  else if !(s.seg 0).has need || spaceOf a != 1 || addrCore a != s.myCore || s.guardedHere a size then some (4, a)
  else if off % 64 ≠ 0 then some (5, a)
  else none

/-- The parts of a tile that lie in one granule each: offset and length (R101). -/
def tileParts (off size : Nat) : List (Nat × Nat) :=
  ((List.range (size / 256 + 2)).map fun i =>
    let lo := max off ((off / 256 + i) * 256)
    (lo, min (off + size) ((off / 256 + i + 1) * 256) - lo)).filter fun p => p.2 != 0

/-- The bytes of a tile at an offset of a thread's own TCM, granule by granule. -/
def State.tileRead (s : State) (id off size : Nat) : List Byte :=
  (tileParts off size).flatMap fun p => s.sramRead (coreOf id) (s.tcmRead id p.1) p.2

/-- Template copy faults for the granules of a C tile: the state with each taken, or none (R246, R109). -/
def State.tileOwn (s : State) : List (Nat × Nat) → Option State
  | [] => some s
  | p :: r =>
    match s.tcmWrite s.cur p.1 with
    | none => none
    | some (s1, _, fault) =>
      let s2 := if fault then s1.copyFault else s1
      (if (s.granuleAt s.cur p.1).isSome then s2 else s2.markWritten s.cur p.1).tileOwn r

/-- Writes a tile granule by granule where the thread's own map points. -/
def State.tileWrite (s : State) (id off : Nat) (bs : List Byte) : State :=
  (tileParts off bs.length).foldl (fun s p =>
    s.writeLoc ((s.partOf (coreOf id)).getD 16) 0 (.sram (coreOf id) (s.tcmRead id p.1)) ((bs.drop (p.1 - off)).take p.2)) s

/-! ### Latches (R250) -/

def Matrix.latch (m : Matrix) (n : Nat) : Latch := if n = 0 then m.latch0 else m.latch1
def Matrix.setLatch (m : Matrix) (n : Nat) (l : Latch) : Matrix := if n = 0 then { m with latch0 := l } else { m with latch1 := l }
/-- A receive buffer: 0 and 1 beside the latches, 2 for A. -/
def Matrix.buf (m : Matrix) (n : Nat) : Option Tile := if n = 0 then m.buf0 else if n = 1 then m.buf1 else m.bufA
def Matrix.setBuf (m : Matrix) (n : Nat) (t : Option Tile) : Matrix :=
  if n = 0 then { m with buf0 := t } else if n = 1 then { m with buf1 := t } else { m with bufA := t }
/-- The cycle from which a latch that an MBLD loads may be used. -/
def Matrix.loaded (m : Matrix) (n : Nat) : Nat := if n = 0 then m.loaded0 else m.loaded1
def Matrix.setLoaded (m : Matrix) (n c : Nat) : Matrix := if n = 0 then { m with loaded0 := c } else { m with loaded1 := c }
def Matrix.inUse (m : Matrix) (n : Nat) : Bool := m.queue.any fun e => e.latch == n

/-- A tile in a receive buffer moves into its latch when that is EMPTY, in the cycle after (R250). -/
def Matrix.settle (m : Matrix) : Matrix :=
  let one : Matrix → Nat → Matrix := fun m n => match m.latch n, m.buf n with
    | .empty, some t => (m.setLatch n (.full t)).setBuf n none
    | _, _ => m
  one (one m 0) 1

def State.modMx (s : State) (core : Nat) (f : Matrix → Matrix) : State :=
  s.modCore core fun c => { c with mx := f c.mx }

/-! ### Instructions (R258-R263) -/

def State.mmaOp (s : State) (op : MxOp) (d a : BitVec 5) (m : BitVec 3) : Host.Outcome State Fault Refusal :=
  let fromBuf := m.getLsbD 1
  s.perform (if fromBuf then [.s d.toNat] else [.s d.toNat, .s a.toNat]) fun t =>
    let w := t.me.fmt
    let c := (t.rS d.toNat).toNat
    let ao := (t.rS a.toNat).toNat
    match t.tileCheck c 1024 (rgtR + rgtW) with
    | some (x, v) => .trap x v
    | none =>
      match (if fromBuf then none else t.tileCheck ao (aBytes w) rgtR) with
      | some (x, v) => .trap x v
      | none =>
        let co := addrOff (t.segAddr 0 c)
        if (t.core t.myCore).movingBytes co 1024 then .park (.split t.myCore co 1024)
        else if !fromBuf && (t.core t.myCore).movingBytes (addrOff (t.segAddr 0 ao)) (aBytes w) then
          .park (.split t.myCore (addrOff (t.segAddr 0 ao)) (aBytes w))
        else match t.tileOwn (tileParts co 1024) with
        | none => .trap 10 (t.segAddr 0 c)
        | some u =>
          let e : MxEntry :=
            { slot := t.cur, op := op, latch := (if m.getLsbD 0 then 1 else 0), fmt := w, super := t.me.super, c := co
              a := if fromBuf then none else some (addrOff (t.segAddr 0 ao)), pc := t.me.pc
              join := t.cycle + 1 + (u.me.early - t.me.early) }
          if t.me.early < u.me.early then .hold (u.modMx t.myCore fun x => { x with late := x.late ++ [e] }) .deferred
          else if 2 ≤ (u.core u.myCore).mx.queue.length then .stay u .mxRoom
          else .hold (u.modMx t.myCore fun x => { x with queue := x.queue ++ [e] }) .deferred

def execMma (d a : BitVec 5) (m : BitVec 3) (s : State) : Host.Outcome State Fault Refusal := s.mmaOp .mma d a m
def execMmarb (d a : BitVec 5) (m : BitVec 3) (s : State) : Host.Outcome State Fault Refusal := s.mmaOp .mmarb d a m
def execMmacn (d a : BitVec 5) (m : BitVec 3) (s : State) : Host.Outcome State Fault Refusal := s.mmaOp .mmacn d a m

def execMbld (a : BitVec 5) (l : BitVec 3) (s : State) : Host.Outcome State Fault Refusal :=
  s.perform [.s a.toNat] fun t =>
    let w := t.me.fmt
    let off := (t.rS a.toNat).toNat
    let mx := (t.core t.myCore).mx
    let busy : Bool := match mx.latch l.toNat with
      | .outgoing _ => true
      | .full _ => mx.inUse l.toNat
      | .empty => false
    match t.tileCheck off (bBytes w) rgtR with
    | some (x, v) => .trap x v
    | none =>
      if (t.core t.myCore).movingBytes (addrOff (t.segAddr 0 off)) (bBytes w) then
        .park (.split t.myCore (addrOff (t.segAddr 0 off)) (bBytes w))
      else if busy then .park (.latch l.toNat)
      else
        let bs := t.tileRead t.cur (addrOff (t.segAddr 0 off)) (bBytes w)
        .ok (t.modMx t.myCore fun x =>
          (x.setLatch l.toNat (.full ⟨fmtB w, bs⟩)).setLoaded l.toNat (t.cycle + if fmtB w = 7 then 6 else 5))

def execMbpass (l : BitVec 3) (s : State) : Host.Outcome State Fault Refusal :=
  s.perform [] fun t =>
    if 2 ≤ (t.core t.myCore).mx.queue.length then .park .mxRoom
    else
      let e : MxEntry :=
        { slot := t.cur, op := .mbpass, latch := l.toNat, fmt := t.me.fmt, super := t.me.super, c := 0, a := none, pc := t.me.pc, join := t.cycle + 1 }
      .hold (t.modMx t.myCore fun x => { x with queue := x.queue ++ [e] }) .deferred

def execMzero (d : BitVec 5) (s : State) : Host.Outcome State Fault Refusal :=
  s.perform [.s d.toNat] fun t =>
    let c := (t.rS d.toNat).toNat
    let co := addrOff (t.segAddr 0 c)
    match t.tileCheck c 1024 (rgtR + rgtW) with
    | some (x, v) => .trap x v
    | none =>
      if (t.core t.myCore).movingBytes co 1024 then .park (.split t.myCore co 1024)
      else match t.tileOwn (tileParts co 1024) with
        | none => .trap 10 (t.segAddr 0 c)
        | some u => .ok (u.tileWrite t.cur co (List.replicate 1024 0))

def execMfmt (a : BitVec 5) (s : State) : Host.Outcome State Fault Refusal :=
  s.perform [.s a.toNat] fun t =>
    if fmtLegal (t.rS a.toNat) then .ok (t.modMe fun x => { x with fmt := t.rS a.toNat })
    else .trap 12 ((t.rS a.toNat).zeroExtend 64)

def execMfmtq (a : BitVec 5) (s : State) : Host.Outcome State Fault Refusal :=
  s.perform [.s a.toNat] fun t => .ok (t.modMe fun x => { x with super := t.rS a.toNat })

/-! ### Events of the queue (R250-R252, R259, R261) -/

/-- The parked thread of a finished operation goes on. -/
def State.unpark (s : State) (id : Nat) : State := s.modAny id fun t => { t with park := none }

/-- Changes a thread's entry of a core's queue. -/
def State.modEntry (s : State) (core slot : Nat) (f : MxEntry → MxEntry) : State :=
  s.modMx core fun m => { m with queue := m.queue.map fun e => if e.slot = slot then f e else e }

/-- Frees an entry of a core's queue; its thread goes on. -/
def State.mxFree (s : State) (core : Nat) (e : MxEntry) : State :=
  (s.modMx core fun m => { m with queue := m.queue.filter fun x => x.slot != e.slot }).unpark e.slot

/-- The engine may start an operation now (R252, R425): the last one is over, and the throttle's spacing has passed. -/
def State.mxReady (s : State) (m : Matrix) : Bool :=
  decide (m.free ≤ s.cycle) && match m.lastStart with
    | some c => s.pkg.thr == 0 || decide (c + 16 * 2 ^ s.pkg.thr ≤ s.cycle)
    | none => true

/-- An entry starts (R252, R259): it reads its tiles, and the A receive buffer becomes EMPTY if it reads A from there. -/
def State.mxStart (s : State) (core : Nat) (e : MxEntry) (a : List Byte) (b : Tile) : State :=
  (s.modEntry core e.slot fun x => { x with running := true, aTile := a, bTile := some b, start := s.cycle }).modMx core fun m =>
    let m1 := { m with free := s.cycle + (if e.op = .mbpass then 1 else 16), lastStart := some s.cycle }
    if e.op != .mbpass && e.a.isNone then m1.setBuf 2 none else m1

/-- A tile of another format than the entry's context frees the entry, and its thread traps FORMAT_CTX (R259). -/
def State.mxRefuse (s : State) (core : Nat) (e : MxEntry) (t : Tile) (want : Nat) : State :=
  (s.mxFree core e).takeTrapAt e.slot 12
    (BitVec.ofNat 64 (t.fmt * 16 + want + (if e.a.isNone then 256 else 0))) e.pc e.pc

/-- MATRIX_OP_START: the first entry that has not started starts when the engine is free, its latch is FULL and loaded and,
if it reads A from there, its A buffer is FULL. -/
def execMatrixOpStart (core : Nat) (s : State) : Host.Outcome State Fault Refusal :=
  let mx := (s.core core).mx
  .next (match mx.queue.find? fun e => !e.running with
    | none => s
    | some e =>
      if s.cycle < e.join || !s.mxReady mx || s.cycle < mx.loaded e.latch then s
      else match mx.latch e.latch with
        | .full t =>
          if e.op = .mbpass then s.mxStart core e [] t
          else if t.fmt ≠ fmtB e.fmt then
            (if e.a.isNone && mx.bufA.isNone then s else s.mxRefuse core e t (fmtB e.fmt))
          else match e.a with
            | some off => s.mxStart core e (s.tileRead e.slot off (aBytes e.fmt)) t
            | none => match mx.bufA with
              | none => s
              | some ta => if ta.fmt ≠ fmtA e.fmt then s.mxRefuse core e ta (fmtA e.fmt) else s.mxStart core e ta.bytes t
        | _ => s)

/-- The entries whose template copy faults are over join the queue; one that finds it full is not performed, and its thread
parks and issues again (R246, R259). -/
def State.mxJoin (s : State) (core : Nat) : State :=
  ((s.core core).mx.late.filter fun e => e.join ≤ s.cycle).foldl (fun u e =>
    let u1 := u.modMx core fun m => { m with late := m.late.filter fun x => x.slot != e.slot }
    if (u1.core core).mx.queue.length < 2 then u1.modMx core fun m => { m with queue := m.queue ++ [e] }
    else u1.modThr e.slot fun t => { t with pc := e.pc, park := some .mxRoom }) s

/-- The neighbours of a core (R251). -/
def ringNext (core : Nat) : Nat := core / 16 * 16 + (core % 16 + 1) % 16
def torusWest (core : Nat) : Nat := core / 4 * 4 + (core % 4 + 3) % 4
def torusNorth (core : Nat) : Nat := core / 16 * 16 + (core % 16 + 12) % 16

/-- A hand-off may start: the receiving buffer is EMPTY and no other tile is on its way there. -/
def State.handFree (s : State) (dst buf : Nat) : Bool :=
  ((s.core dst).mx.buf buf).isNone && !s.acts.any fun a => match a.2.kind with
    | .handoff _ d _ b _ _ => d == dst && b == buf
    | _ => false

/-- Starts the hand-offs of a written entry whose receiving buffers are EMPTY, from the cycle after the write on: a tile
lands 4 cycles later, an NQ4 B tile 5, an A tile of 4,096 bytes 8 (R251). In `legs`, 1 is a B hand-off to start, 2 an A
hand-off to start, 4 and 8 the same in flight. A FULL latch goes OUTGOING with its tile; where an older entry has handed the
latch off, the tile that the entry has read goes (log 70, DESIGN CHOICE). -/
def State.mxHand (s : State) (core : Nat) (e : MxEntry) : State :=
  let bDst := if e.op = .mmacn then torusNorth core else ringNext core
  let latch := (s.core core).mx.latch e.latch
  let tile := match latch with
    | .full t => t
    | _ => e.bTile.getD ⟨0, []⟩
  let bGo : Bool := e.legs % 2 = 1 && decide (e.wrote < s.cycle) && s.handFree bDst e.latch
  let aGo : Bool := e.legs / 2 % 2 = 1 && decide (e.wrote < s.cycle) && s.handFree (torusWest core) 2
  let s1 := if bGo then
      (s.postFree (.handoff core bDst e.slot e.latch (s.cycle + if tile.fmt = 7 then 5 else 4) tile)).modMx core fun m =>
        match latch with
        | .full t => m.setLatch e.latch (.outgoing t)
        | _ => m
    else s
  let s2 := if aGo then
      s1.postFree (.handoff core (torusWest core) e.slot 2 (s.cycle + if e.aTile.length = 4096 then 8 else 4) ⟨fmtA e.fmt, e.aTile⟩)
    else s1
  s2.modEntry core e.slot fun x => { x with legs := x.legs + (if bGo then 3 else 0) + (if aGo then 6 else 0) }

/-- The hand-offs of a core's written entries, in order. -/
def State.mxHandAll (s : State) (core : Nat) : State :=
  ((s.core core).mx.queue.filter MxEntry.written).foldl (fun u e => u.mxHand core e) s

/-- The A tile of an entry that has started, as an older entry's write leaves it: the engine's later operations see every C
write of its earlier ones (R252). -/
def State.mxRenew (s : State) (core : Nat) (e : MxEntry) : State :=
  s.modMx core fun m => { m with queue := m.queue.map fun x =>
    if x.slot ≠ e.slot && x.running && !x.written then { x with aTile := (x.a.map fun off => s.tileRead x.slot off (aBytes x.fmt)).getD x.aTile }
    else x }

/-- The write of an entry's C tile, at the end of its 18th cycle, with its flags; an operation that hands tiles on keeps
its entry until they have landed. -/
def State.mxWrite (s : State) (core : Nat) (e : MxEntry) : State :=
  let s1 := if e.op = .mbpass then s
    else
      let c := (chunks 4 256 (s.tileRead e.slot e.c 1024)).map leNat
      let r := mxProduct e.fmt e.super e.aTile (e.bTile.getD ⟨0, []⟩).bytes c
      ((s.tileWrite e.slot e.c (r.1.flatMap (leBytes 4))).raiseFor e.slot r.2).mxRenew core e
  if e.op = .mma then s1.mxFree core e
  else s1.modEntry core e.slot fun x => { x with written := true, wrote := s.cycle, legs := if e.op = .mmacn then 3 else 1 }

/-- The cycle in which a started entry ends, but for its hand-offs (R252, R261). -/
def MxEntry.ends (e : MxEntry) : Nat := e.start + (if e.op = .mbpass then 0 else 17)

/-- MATRIX_OP_COMPLETE: the running entries that are due end, in order; written ones start their hand-offs. -/
def execMatrixOpComplete (core : Nat) (s : State) : Host.Outcome State Fault Refusal :=
  .next ((((s.core core).mx.queue.filter fun e => e.running && !e.written && decide (e.ends ≤ s.cycle)).map MxEntry.slot).foldl
    (fun u n => match (u.core core).mx.queue.find? fun e => e.slot == n with
      | some e => u.mxWrite core e
      | none => u) (s.mxHandAll core))

/-- A hand-off of a sender's entry is over: the sender's latch becomes EMPTY, and an entry whose tiles have all landed
completes. -/
def State.legDone (s : State) (src slot buf : Nat) : State :=
  match (s.core src).mx.queue.find? fun e => e.slot == slot && e.written with
  | none => s
  | some e =>
    let s1 := if buf = 2 then s else s.modMx src fun m => match m.latch e.latch with
      | .outgoing _ => m.setLatch e.latch .empty
      | _ => m
    let legs := e.legs - (if buf = 2 then 8 else 4)
    if legs = 0 then s1.mxFree src e else s1.modEntry src slot fun x => { x with legs := legs }

/-- HANDOFF_LAND: a tile lands in the receiving buffer. -/
def execHandoffLand (act : Nat) (s : State) : Host.Outcome State Fault Refusal :=
  .next (match s.ready? act with
    | some (.handoff src dst slot buf due tile) =>
      if ((s.core dst).mx.buf buf).isSome || s.cycle < due || s.coreWiping dst then s
      else ((s.dropAct act).modMx dst fun m => m.setBuf buf (some tile)).legDone src slot buf
    | _ => s)

/-- Tiles on their way to a core that is wiped are wiped with it (R264, R422). -/
def State.dropHandoffs (s : State) (core : Nat) : State :=
  s.acts.foldl (fun u a => match a.2.kind with
    | .handoff src dst slot buf _ _ => if dst = core then (u.dropAct a.1).legDone src slot buf else u
    | _ => u) s

end Sys2Proof.Machine
end

