-- ==== Sys2Proof/Machine/LoadStore.lean ====
section
/-!
DEFINITION. LoadStore: scalar loads and stores (R190-R191), synchronising accesses and FECLR (R192-R195),
atomics (R196-R198), FENCE and DRAIN (R199-R200), vector loads and stores (R201-R202).
-/

namespace Sys2Proof.Machine

open Sys2Proof

/-! ### Scalar loads and stores -/

/-- The offset of a memory operand: an unsigned register plus a signed immediate in access units. -/
def offsetOf (a : Word) {n : Nat} (imm : BitVec n) (scale : Nat) : Int := (a.toNat : Int) + imm.toInt * scale

/-- The spaces that a scalar access of a size may reach (R164-R165). -/
def scalarSpaces (size : Nat) : List Nat := if size = 4 then [0, 1, 3] else [0, 1]

def State.scalarLoad (s : State) (d a : BitVec 5) (seg : BitVec 3) (imm : BitVec 10) (size : Nat) (signed : Bool) :
    Host.Outcome State Fault Refusal :=
  s.perform [.s a.toNat, .d d.toNat] fun t =>
    let off := offsetOf (t.rS a.toNat) imm size
    match t.checkAccess seg.toNat off size rgtR size (scalarSpaces size) with
    | some (c, v) => .trap c v
    | none => t.loadInto seg.toNat (loadReqs (t.segAddr seg.toNat off) size) (t.segAddr seg.toNat off) (.scalar d.toNat size signed)

def State.scalarStore (s : State) (d a : BitVec 5) (seg : BitVec 3) (imm : BitVec 10) (size : Nat) :
    Host.Outcome State Fault Refusal :=
  s.perform [.s a.toNat, .s d.toNat] fun t =>
    let off := offsetOf (t.rS a.toNat) imm size
    match t.checkAccess seg.toNat off size rgtW size (scalarSpaces size) with
    | some (c, v) => .trap c v
    | none => t.storeFrom seg.toNat (storeReqs (t.segAddr seg.toNat off) (leBytes size (t.rS d.toNat).toNat))

def execLdb (d a : BitVec 5) (seg : BitVec 3) (imm : BitVec 10) (s : State) : Host.Outcome State Fault Refusal := s.scalarLoad d a seg imm 1 true
def execLdbu (d a : BitVec 5) (seg : BitVec 3) (imm : BitVec 10) (s : State) : Host.Outcome State Fault Refusal := s.scalarLoad d a seg imm 1 false
def execLdh (d a : BitVec 5) (seg : BitVec 3) (imm : BitVec 10) (s : State) : Host.Outcome State Fault Refusal := s.scalarLoad d a seg imm 2 true
def execLdhu (d a : BitVec 5) (seg : BitVec 3) (imm : BitVec 10) (s : State) : Host.Outcome State Fault Refusal := s.scalarLoad d a seg imm 2 false
def execLdw (d a : BitVec 5) (seg : BitVec 3) (imm : BitVec 10) (s : State) : Host.Outcome State Fault Refusal := s.scalarLoad d a seg imm 4 false
def execStb (d a : BitVec 5) (seg : BitVec 3) (imm : BitVec 10) (s : State) : Host.Outcome State Fault Refusal := s.scalarStore d a seg imm 1
def execSth (d a : BitVec 5) (seg : BitVec 3) (imm : BitVec 10) (s : State) : Host.Outcome State Fault Refusal := s.scalarStore d a seg imm 2
def execStw (d a : BitVec 5) (seg : BitVec 3) (imm : BitVec 10) (s : State) : Host.Outcome State Fault Refusal := s.scalarStore d a seg imm 4

/-! ### Synchronising accesses (R192-R194) -/

def SyncOp.store : SyncOp → Bool
  | .ldfe | .ldff => false
  | .stfe | .stff => true

/-- The word of local SRAM. -/
def State.tcmWord (s : State) (core off : Nat) : Word := BitVec.ofNat 32 (leNat (s.sramRead core off 4))

def State.syncQueues (s : State) (core off : Nat) : SyncQ := s.memory.syncQ.lookD (wordNo core off) {}

def State.setSyncQueues (s : State) (core off : Nat) (q : SyncQ) : State :=
  s.modMemory fun m =>
    if q.full.isEmpty && q.empty.isEmpty then { m with syncQ := m.syncQ.del (wordNo core off) }
    else { m with syncQ := m.syncQ.put (wordNo core off) q }

/-- The test and change of one synchronising access at its word. A word that a live task counts in keeps its value
and its bit (R83). -/
def State.syncAt (s : State) (core off : Nat) (r : SyncReq) : State :=
  if (s.liveCounter core off).isSome then s
  else match r.op with
    | .ldfe => s.setWordFull core off false
    | .ldff => s
    | _ => (s.setWordFull core off true).writeLoc ((s.partOf core).getD 16) 0 (.sram core off) (leBytes 4 r.value.toNat)

/-- The answer to a request that has been performed: an acknowledgement, or a reply with the word. -/
def State.syncAnswer (s : State) (core : Nat) (r : SyncReq) (w : Word) : State :=
  if r.remote then s.sendAck core r.slot
  else
    let acq := if r.op.store then none else some r.scope
    s.send .response core (s.coreOfAny r.slot) (.reply r.slot r.pc r.addr (.scalar r.d 4 false) (leBytes 4 w.toNat) false false acq)

/-- Serves the two queues of a word while either head can proceed (R193). -/
def State.serveWord : Nat → State → Nat → Nat → State
  | 0, s, _, _ => s
  | n + 1, s, core, off =>
    let q := s.syncQueues core off
    if s.wordFull core off then
      match q.full with
      | [] => s
      | r :: rest =>
        let s1 := (s.setSyncQueues core off { q with full := rest }).syncAnswer core r (s.tcmWord core off)
        State.serveWord n (s1.syncAt core off r) core off
    else
      match q.empty with
      | [] => s
      | r :: rest =>
        let s1 := (s.setSyncQueues core off { q with empty := rest }).syncAnswer core r 0
        State.serveWord n (s1.syncAt core off r) core off

/-- Serves a word after a change of its bit. -/
def State.serve (s : State) (core off : Nat) : State :=
  let q := s.syncQueues core off
  State.serveWord (q.full.length + q.empty.length + 1) s core off

/-- A request can be performed on arrival (R193). -/
def State.syncNow (s : State) (core off : Nat) (op : SyncOp) : Bool :=
  (s.liveCounter core off).isSome ||
  match op with
  | .ldfe | .ldff => s.wordFull core off && (s.syncQueues core off).full.isEmpty
  | .stfe => !s.wordFull core off && (s.syncQueues core off).empty.isEmpty
  | .stff => true

/-- A request joins the tail of its queue. -/
def State.syncWait (s : State) (core off : Nat) (r : SyncReq) : State :=
  let q := s.syncQueues core off
  s.setSyncQueues core off (if r.op.store then { q with empty := q.empty ++ [r] } else { q with full := q.full ++ [r] })

/-- Requests of the issuing core to another that are still on their way. -/
def State.flowBusy (s : State) (c : Nat) : Bool := s.acts.any fun a => a.2.flows.contains (0, s.myCore, c)

/-- LDFE, LDFF, STFE and STFF. Requests to the storey's local memories, and every store to the own TCM, reach
their word at issue. -/
def State.syncAccess (s : State) (op : SyncOp) (d a : BitVec 5) (seg : BitVec 3) (imm : BitVec 10) :
    Host.Outcome State Fault Refusal :=
  s.perform (if op.store then [.s a.toNat, .s d.toNat] else [.s a.toNat, .d d.toNat]) fun t0 =>
    let off := offsetOf (t0.rS a.toNat) imm 4
    let g := t0.seg seg.toNat
    let addr := t0.segAddr seg.toNat off
    match t0.checkAccess seg.toNat off 4 (rgtS + if op.store then rgtW else rgtR) 4 [1] with
    | some (c, v) => .trap c v
    | none =>
      match (if op.store then t0.relWait else none) with
      | some w => .park w
      | none =>
        let t := if op.store then t0.sendAll else t0
        let req : SyncReq := ⟨t.cur, op, if op.store then 0 else d.toNat, t.rS d.toNat, false, t.me.pc, addr, g.scope⟩
        let here : State → Nat → Nat → Res := fun u c o =>
          if u.syncNow c o op then
            let u1 := (u.syncAt c o req).serve c o
            if op.store then .ok u1 else .ok ((u1.wS d.toNat (u.tcmWord c o)).acquire u.myCore g.scope)
          else .hold (u.syncWait c o req) (.reply 0)
        let away : Nat → Nat → Res := fun c o =>
          if op.store then match t.unackWait with
            | some w => .park w
            | none => .ok ((t.addUnack t.cur).send .request t.myCore c (.sync { req with remote := true } c o))
          else .hold (t.send .request t.myCore c (.sync req c o)) (.reply t.nextAct)
        match t.target addr with
        | .own o =>
          if (t.core t.myCore).movingBytes o 4 then .park (.split t.myCore o 4)
          else match t.tcmWrite t.cur o with
            | none => .trap 10 addr
            | some (u, o', fault) =>
              let u1 := if fault then u.copyFault else u
              here (if (t.granuleAt t.cur o).isSome || !op.store then u1 else u1.markWritten t.cur o) t.myCore o'
        | .core c o =>
          if op.store || !t.inMyStorey c || t.flowBusy c then away c o
          else if t.coreFenced c then .trap 7 addr
          else if (t.core c).movingBytes o 4 then .park (.split c o 4)
          else if (t.core c).guarded o 4 then .ok (t.wS d.toNat 0)
          else here t c o
        | _ => .trap 4 addr

def execLdfe (d a : BitVec 5) (seg : BitVec 3) (imm : BitVec 10) (s : State) : Host.Outcome State Fault Refusal := s.syncAccess .ldfe d a seg imm
def execLdff (d a : BitVec 5) (seg : BitVec 3) (imm : BitVec 10) (s : State) : Host.Outcome State Fault Refusal := s.syncAccess .ldff d a seg imm
def execStfe (d a : BitVec 5) (seg : BitVec 3) (imm : BitVec 10) (s : State) : Host.Outcome State Fault Refusal := s.syncAccess .stfe d a seg imm
def execStff (d a : BitVec 5) (seg : BitVec 3) (imm : BitVec 10) (s : State) : Host.Outcome State Fault Refusal := s.syncAccess .stff d a seg imm

/-! ### FECLR (R195) -/

/-- Clears the bits of consecutive words of a core, in ascending order, serving each. -/
def State.clearWords (core : Nat) : Nat → State → Nat → State
  | 0, s, _ => s
  | n + 1, s, off =>
    let s1 := if (s.liveCounter core off).isSome then s else (s.setWordFull core off false).serve core off
    State.clearWords core n s1 (off + 4)

/-- The same on the own TCM, through the template window. -/
def State.clearOwn : Nat → State → Nat → Option State
  | 0, s, _ => some s
  | n + 1, s, off =>
    match s.tcmWrite s.cur off with
    | none => none
    | some (u, o, fault) =>
      let u1 := if fault then u.copyFault else u
      let u2 := if (s.granuleAt s.cur off).isSome then u1 else u1.markWritten s.cur off
      State.clearOwn n (State.clearWords s.myCore 1 u2 o) (off + 4)

def execFeclr (seg : BitVec 3) (a b : BitVec 5) (s : State) : Host.Outcome State Fault Refusal :=
  s.perform [.s a.toNat, .s b.toNat] fun t =>
    let n := (t.rS b.toNat).toNat
    let off : Int := (t.rS a.toNat).toNat
    let addr := t.segAddr seg.toNat off
    if n = 0 then .ok t
    else match t.checkAccess seg.toNat off (4 * n) (rgtW + rgtS) 4 [1] with
    | some (c, v) => .trap c v
    | none =>
      match t.target addr with
      | .own o =>
        if (t.core t.myCore).movingBytes o (4 * n) then .park (.split t.myCore o (4 * n))
        else match State.clearOwn n t o with
          | none => .trap 10 addr
          | some u => .ok u
      | .core c o =>
        match t.unackWait with
        | some w => .park w
        | none => .ok ((t.addUnack t.cur).send .request t.myCore c (.feclr t.cur c o n))
      | _ => .trap 4 addr

/-! ### Atomics (R196-R198) -/

/-- The new value of an atomic. -/
def amoNew (op : Nat) (old b exp : Word) : Word :=
  match op with
  | 0 => old + b
  | 1 => b
  | 2 => if old = exp then b else old
  | 3 => old &&& b
  | 4 => old ||| b
  | 5 => old ^^^ b
  | 6 => if b.slt old then b else old
  | 7 => if old.slt b then b else old
  | 8 => if b.ult old then b else old
  | _ => if old.ult b then b else old

/-- One indivisible read-modify-write at a word's home, and the value it read: pool words at the pool controller. On a word that a live task counts
in it has no effect (R83). -/
def State.amoAt (s : State) (part : Nat) (l : Loc) (op : Nat) (b exp : Word) : Word × State :=
  let old : Word := BitVec.ofNat 32 (leNat (s.readEng part l 4))
  (old, s.writeEng part 0 l (leBytes 4 (amoNew op old b exp).toNat))

def orderReleases (o : Nat) : Bool := o == 2 || o == 3 || o == 4
def orderAcquires (o : Nat) : Bool := o == 1 || o == 3 || o == 4

/-- The window of an SC atomic performed now (R198). -/
def State.scWindow (s : State) : Nat := s.cycle / 64

/-- AMOop.order d, sgN:[a], b. -/
def State.amo (s : State) (op : Nat) (order : BitVec 3) (d a : BitVec 5) (seg : BitVec 3) (b : BitVec 5) :
    Host.Outcome State Fault Refusal :=
  s.perform ([.s a.toNat, .s b.toNat] ++ (if op = 2 then [.s d.toNat] else []) ++ [.d d.toNat]) fun t0 =>
    let off : Int := (t0.rS a.toNat).toNat
    let addr := t0.segAddr seg.toNat off
    let g := t0.seg seg.toNat
    let o := order.toNat
    match t0.checkAccess seg.toNat off 4 (rgtR + rgtW + rgtA) 4 [0, 1] with
    | some (c, v) => .trap c v
    | none =>
      match (if orderReleases o then t0.relWait else none) with
      | some w => .park w
      | none =>
        let t := if orderReleases o then t0.sendAll else t0
        let away : State → Loc → Res := fun u l => match u.unackWait with
          | some w => .park w
          | none => .hold ((u.addUnack u.cur).send .request u.myCore (u.unitOf l)
              (.amo u.cur t.me.pc addr l op (t.rS b.toNat) (t.rS d.toNat) d.toNat o g.scope)) (.reply u.nextAct)
        match t.target addr with
        | .own w =>
          if (t.core t.myCore).movingBytes w 4 then .park (.split t.myCore w 4)
          else match t.tcmWrite t.cur w with
            | none => .trap 10 addr
            | some (u, w', fault) =>
              let u1 := if fault then u.copyFault else u
              let u2 := if (t.granuleAt t.cur w).isSome then u1 else u1.markWritten t.cur w
              if o = 4 then
                .hold (u2.postFree (.scHold t.cur t.me.pc addr (.sram t.myCore w') op (t.rS b.toNat) (t.rS d.toNat) d.toNat g.scope false))
                  (.reply u2.nextAct)
              else
                let r := u2.amoAt t.myPart (.sram t.myCore w') op (t.rS b.toNat) (t.rS d.toNat)
                let u4 := r.2.wS d.toNat r.1
                .ok (if orderAcquires o then u4.acquire t.myCore g.scope else u4)
        | .core c w => away t (.sram c w)
        | .global va =>
          if (t.windowAt t.myPart va).isSome then .trap 6 addr
          else match t.translate t.myCore t.myPart va .atomic with
            | .wait w => .park w
            | .ok u e =>
              if e.cls = .host then .trap 4 addr
              else
                let l := Loc.phys e.cls (e.phys va) e.key
                away (u.flushLine l) l
        | _ => .trap 4 addr

def execAmoadd (o : BitVec 3) (d a : BitVec 5) (seg : BitVec 3) (b : BitVec 5) (s : State) : Host.Outcome State Fault Refusal := s.amo 0 o d a seg b
def execAmoswap (o : BitVec 3) (d a : BitVec 5) (seg : BitVec 3) (b : BitVec 5) (s : State) : Host.Outcome State Fault Refusal := s.amo 1 o d a seg b
def execAmocas (o : BitVec 3) (d a : BitVec 5) (seg : BitVec 3) (b : BitVec 5) (s : State) : Host.Outcome State Fault Refusal := s.amo 2 o d a seg b
def execAmoand (o : BitVec 3) (d a : BitVec 5) (seg : BitVec 3) (b : BitVec 5) (s : State) : Host.Outcome State Fault Refusal := s.amo 3 o d a seg b
def execAmoor (o : BitVec 3) (d a : BitVec 5) (seg : BitVec 3) (b : BitVec 5) (s : State) : Host.Outcome State Fault Refusal := s.amo 4 o d a seg b
def execAmoxor (o : BitVec 3) (d a : BitVec 5) (seg : BitVec 3) (b : BitVec 5) (s : State) : Host.Outcome State Fault Refusal := s.amo 5 o d a seg b
def execAmomin (o : BitVec 3) (d a : BitVec 5) (seg : BitVec 3) (b : BitVec 5) (s : State) : Host.Outcome State Fault Refusal := s.amo 6 o d a seg b
def execAmomax (o : BitVec 3) (d a : BitVec 5) (seg : BitVec 3) (b : BitVec 5) (s : State) : Host.Outcome State Fault Refusal := s.amo 7 o d a seg b
def execAmominu (o : BitVec 3) (d a : BitVec 5) (seg : BitVec 3) (b : BitVec 5) (s : State) : Host.Outcome State Fault Refusal := s.amo 8 o d a seg b
def execAmomaxu (o : BitVec 3) (d a : BitVec 5) (seg : BitVec 3) (b : BitVec 5) (s : State) : Host.Outcome State Fault Refusal := s.amo 9 o d a seg b

/-! ### Fences (R199-R200) -/

def execFence (kind : BitVec 5) (scope : BitVec 3) (s : State) : Host.Outcome State Fault Refusal :=
  s.perform [] fun t =>
    if kind = 0 then .ok (t.acquire t.myCore (Scope.ofCode scope.toNat))
    else match t.relWait with
      | some w => .park w
      | none => .ok (if kind = 2 then t.sendAll.acquire t.myCore (Scope.ofCode scope.toNat) else t.sendAll)

def execDrain (s : State) : Host.Outcome State Fault Refusal :=
  s.perform [] fun t => match t.relWait with
    | some w => .park w
    | none => .ok t.sendAll

/-! ### Vector loads and stores (R201-R202) -/

/-- The enabled words of a mask register. -/
def wordsOn (k : Mask) : List Nat := (List.range 16).filter fun e => k.getLsbD (4 * e)

/-- The byte mask of the enabled words. -/
def wordMask (k : Mask) : Mask :=
  BitVec.ofNat 64 ((List.range 64).foldr (fun i acc => (if k.getLsbD (i / 4 * 4) then 1 else 0) + 2 * acc) 0)

/-- The first check that fails among the enabled words, in order. -/
def State.checkWords (s : State) (seg need : Nat) : List Int → Option (Nat × Addr)
  | [] => none
  | off :: r => match s.checkAccess seg off 4 need 4 [0, 1] with
    | some x => some x
    | none => s.checkWords seg need r

/-- The request for one word of a strided or indexed access. -/
def wordReq (a : Addr) (bs : List Byte) : Req := { a := a, n := 4, start := a, size := 4, bytes := bs }

/-- A contiguous load. -/
def State.vecLoad (s : State) (seg vd k : Nat) (off : Int) : Res :=
  match s.checkOffset seg off 64 rgtR 64 [0, 1] with
  | some (c, v) => .trap c v
  | none => s.loadInto seg (loadReqs (s.segAddr seg off) 64) (s.segAddr seg off) (.vector vd k (s.rK k) [0])

/-- A strided or indexed load of the enabled words. -/
def State.vecLoadWords (s : State) (seg vd k : Nat) (offs : Nat → Int) : Res :=
  let on := wordsOn (s.rK k)
  match s.checkWords seg rgtR (on.map offs) with
  | some (c, v) => .trap c v
  | none =>
    s.loadInto seg (on.map fun e => wordReq (s.segAddr seg (offs e)) []) ((on.map fun e => s.segAddr seg (offs e)).headD 0)
      (.vector vd k (wordMask (s.rK k)) (on.map (4 * ·)))

/-- Runs of enabled bytes of a contiguous store: offset and bytes. -/
def runsOf (mask : Mask) (bs : List Byte) : List (Nat × List Byte) :=
  (List.range 64).foldl (fun acc i =>
    if !mask.getLsbD i then acc
    else match acc.getLast? with
      | some (o, l) => if o + l.length = i then acc.dropLast ++ [(o, l ++ [bs.getD i 0])] else acc ++ [(i, [bs.getD i 0])]
      | none => [(i, [bs.getD i 0])]) []

/-- A contiguous store: the enabled bytes, and where none is enabled the footprint alone, whose page is checked and which
counts in UNACK all the same (R202). -/
def State.vecStore (s : State) (seg vd k : Nat) (off : Int) : Res :=
  match s.checkOffset seg off 64 rgtW 64 [0, 1] with
  | some (c, v) => .trap c v
  | none =>
    let a := s.segAddr seg off
    let runs := (runsOf (s.rK k) (vbytes (s.rV vd))).flatMap fun p =>
      splitReq 3 { a := a + BitVec.ofNat 64 p.1, n := p.2.length, start := a, size := 64, bytes := p.2 }
    s.storeFrom seg ((loadReqs a 64).flatMap fun q =>
      let mine := runs.filter fun r => r.a.toNat / 256 == q.a.toNat / 256
      if mine.isEmpty then [q] else mine)

def State.vecStoreWords (s : State) (seg vd k : Nat) (offs : Nat → Int) : Res :=
  let on := wordsOn (s.rK k)
  match s.checkWords seg rgtW (on.map offs) with
  | some (c, v) => .trap c v
  | none => s.storeFrom seg (on.map fun e => wordReq (s.segAddr seg (offs e)) (leBytes 4 (lane (s.rV vd) 32 e)))

def execVld (vd : BitVec 4) (seg : BitVec 3) (a : BitVec 5) (imm : BitVec 4) (k : BitVec 3) (s : State) : Host.Outcome State Fault Refusal :=
  s.perform [.s a.toNat] fun t =>
    t.vecLoad seg.toNat vd.toNat k.toNat (offsetOf (t.rS a.toNat) imm 64)

def execVlds (vd : BitVec 4) (seg : BitVec 3) (a : BitVec 5) (imm : BitVec 4) (b : BitVec 5) (k : BitVec 3) (s : State) : Host.Outcome State Fault Refusal :=
  s.perform [.s a.toNat, .s b.toNat] fun t =>
    t.vecLoadWords seg.toNat vd.toNat k.toNat fun e => offsetOf (t.rS a.toNat) imm 64 + e * (t.rS b.toNat).toInt

def execVldx (vd : BitVec 4) (seg : BitVec 3) (a : BitVec 5) (imm : BitVec 4) (vb : BitVec 4) (k : BitVec 3) (s : State) : Host.Outcome State Fault Refusal :=
  s.perform [.s a.toNat, .v vb.toNat] fun t =>
    t.vecLoadWords seg.toNat vd.toNat k.toNat fun e => offsetOf (t.rS a.toNat) imm 64 + sval 32 (lane (t.rV vb.toNat) 32 e)

def execVst (vd : BitVec 4) (seg : BitVec 3) (a : BitVec 5) (imm : BitVec 4) (k : BitVec 3) (s : State) : Host.Outcome State Fault Refusal :=
  s.perform [.s a.toNat, .v vd.toNat] fun t =>
    t.vecStore seg.toNat vd.toNat k.toNat (offsetOf (t.rS a.toNat) imm 64)

def execVsts (vd : BitVec 4) (seg : BitVec 3) (a : BitVec 5) (imm : BitVec 4) (b : BitVec 5) (k : BitVec 3) (s : State) : Host.Outcome State Fault Refusal :=
  s.perform [.s a.toNat, .s b.toNat, .v vd.toNat] fun t =>
    t.vecStoreWords seg.toNat vd.toNat k.toNat fun e => offsetOf (t.rS a.toNat) imm 64 + e * (t.rS b.toNat).toInt

def execVstx (vd : BitVec 4) (seg : BitVec 3) (a : BitVec 5) (imm : BitVec 4) (vb : BitVec 4) (k : BitVec 3) (s : State) : Host.Outcome State Fault Refusal :=
  s.perform [.s a.toNat, .v vb.toNat, .v vd.toNat] fun t =>
    t.vecStoreWords seg.toNat vd.toNat k.toNat fun e => offsetOf (t.rS a.toNat) imm 64 + sval 32 (lane (t.rV vb.toNat) 32 e)

end Sys2Proof.Machine
end

