-- ==== Sys2Proof/Machine/Copy.lean ====
section
/-!
DEFINITION. Copy: tag waits (R204-R205), the copy instructions (R206-R209), counted waits and triggers (R210-R212),
near-memory compare and reduce (R213).
-/

namespace Sys2Proof.Machine

open Sys2Proof

/-! ### Tags (R204-R205) -/

/-- The tag mask in a register pair. -/
def State.pairMask (s : State) (a : Nat) : BitVec 64 := s.rS (a + 1) ++ s.rS a

/-- Whether some selected tag shows SET. -/
def Thread.someSet (t : Thread) (m : BitVec 64) : Option Nat := t.tagWhere m fun g => g.set
def Thread.someFlying (t : Thread) (m : BitVec 64) : Option Nat := t.tagWhere m fun g => g.inflight != 0

/-- The scope of the acquire of an instruction that observes the SET of selected tags: package scope, and system scope where a
delivery of a system hall has completed on one (R222, R292). -/
def Thread.setScope (t : Thread) (m : BitVec 64) : Scope := if (t.tagWhere m fun g => g.set && g.sys).isSome then .sys else .pkg

/-- The mask of one tag. -/
def oneTag (n : Nat) : BitVec 64 := BitVec.ofNat 64 (2 ^ n)

def execWtany (d a : BitVec 5) (s : State) : Host.Outcome State Fault Refusal :=
  s.perform [.s a.toNat, .s (a.toNat + 1), .d d.toNat] fun t =>
    let m := t.pairMask a.toNat
    match t.me.someSet m, t.me.someFlying m with
    | some n, _ => .ok ((t.wS d.toNat (BitVec.ofNat 32 n)).acquire t.myCore (t.me.setScope (oneTag n)))
    | none, none => .ok (t.wS d.toNat 64)
    | none, some _ => .park (.tagSet m)

def execWtall (a : BitVec 5) (s : State) : Host.Outcome State Fault Refusal :=
  s.perform [.s a.toNat, .s (a.toNat + 1)] fun t =>
    let m := t.pairMask a.toNat
    match t.me.someFlying m with
    | some _ => .park (.tagIdle m)
    | none => .ok (if (t.me.someSet m).isSome then t.acquire t.myCore (t.me.setScope m) else t)

def execTfirst (d a : BitVec 5) (s : State) : Host.Outcome State Fault Refusal :=
  s.perform [.s a.toNat, .s (a.toNat + 1), .d d.toNat] fun t =>
    match t.me.someSet (t.pairMask a.toNat) with
    | some n => .ok ((t.wS d.toNat (BitVec.ofNat 32 n)).acquire t.myCore (t.me.setScope (oneTag n)))
    | none => .ok (t.wS d.toNat 64)

def execTclr (a : BitVec 5) (s : State) : Host.Outcome State Fault Refusal :=
  s.perform [.s a.toNat, .s (a.toNat + 1)] fun t =>
    .ok (t.modMe fun x => x.clearTags (t.pairMask a.toNat))

/-- The tag status word (R205). -/
def TagSt.status (g : TagSt) : Word :=
  BitVec.ofNat 32 (g.cause % 32 * 65536 + g.inflight % 256 * 256 + (if g.err then 4 else 0) + (if g.shape then 2 else 0)
    + (if g.set then 1 else 0))

def execTstat (d a : BitVec 5) (s : State) : Host.Outcome State Fault Refusal :=
  s.perform [.s a.toNat, .d d.toNat] fun t =>
    let g := t.me.tagOf (fieldOf (t.rS a.toNat) 0 6)
    let u := t.wS d.toNat (if (t.rS a.toNat).getLsbD 6 then g.recorded else g.status)
    .ok (if g.set then u.acquire t.myCore (if g.sys then .sys else .pkg) else u)

/-! ### Issue of an engine operation (R203, R207) -/

/-- The waits of an engine operation's issue, in order. -/
def State.issueWait (s : State) (tag : Nat) : Option Wait :=
  match s.relWait with
  | some w => some w
  | none =>
    if 32 ≤ (s.core s.myCore).copies then some .copyRoom
    else if 255 ≤ (s.me.tagOf tag).inflight then some (.tagRoom tag)
    else none

/-- The tag issue and the engine's queue. -/
def State.engineIssue (s : State) (tag : Nat) (k : ActKind) : State :=
  ((s.tagIssue s.cur tag).modCore s.myCore fun c => { c with copies := c.copies + 1 }).postFree k

/-! ### Copies (R206-R209) -/

/-- The result of checking an instruction's footprints. -/
inductive Checked (α : Type) where
  | ok (x : α)
  | stop (r : Res)

/-- One footprint of a copy: a size from an offset, which is a multiple of 64 (R207). A copy destination in a remap
window traps PAGE_PERM (R364) (log 53, DEDUCED). -/
def State.footprint (s : State) (seg : Nat) (off : Int) (size need : Nat) : Option (Nat × Addr) :=
  match s.checkAccess seg off size need 1 [0, 1] with
  | some x => some x
  | none =>
    let a := s.segAddr seg off
    if off % 64 ≠ 0 then some (5, a)
    else if need = rgtW then (s.windowHit s.myPart a size).map fun p => (6, BitVec.ofNat 64 p)
    else none

/-- The first row of a strided footprint that fails a check. -/
def State.rowsCheck (s : State) (seg : Nat) (off stride : Int) (size need : Nat) : Nat → Option (Nat × Addr)
  | 0 => none
  | n + 1 => match s.rowsCheck seg off stride size need n with
    | some x => some x
    | none => s.footprint seg (off + stride * n) size need

/-- The copy that a control word describes: offsets of the destination and the source (R206). -/
def State.planCopy (s : State) (ctl : Word) (hint : Nat) (a b : Nat) (fill : Option Word) : Checked CopyOp :=
  let len := fieldOf ctl 16 16
  let dseg := fieldOf ctl 8 3
  let sseg := fieldOf ctl 12 3
  let op : CopyOp := ⟨s.cur, fieldOf ctl 0 6, hint, fill, [(s.segAddr dseg a, s.segAddr sseg b, len)]⟩
  match s.footprint dseg a (len * 64) rgtW with
  | some (c, v) => .stop (.trap c v)
  | none => match fill with
    | some _ => .ok { op with rows := [(s.segAddr dseg a, 0, len)] }
    | none => match s.footprint sseg b (len * 64) rgtR with
      | some (c, v) => .stop (.trap c v)
      | none => .ok op

/-- The operation moves no bytes (log 56, DEDUCED). -/
def CopyOp.isEmpty (op : CopyOp) : Bool := op.rows.all fun r => r.2.2 == 0

/-- A copy joins the engine's queue; one with no bytes to move completes at once. -/
def State.copyIssue (s : State) (op : CopyOp) : State :=
  if op.isEmpty then (s.tagIssue s.cur op.tag).tagDone s.cur op.tag false 0 else s.engineIssue op.tag (.copy op)

/-- Issues a planned copy. -/
def State.issueCopy (s : State) (c : Checked CopyOp) (after : State → State) : Res :=
  match c with
  | .stop r => r
  | .ok op => match s.issueWait op.tag with
    | some w => .park w
    | none => .ok (after (s.sendAll.copyIssue op))

def execCpy (hint : BitVec 3) (d a b : BitVec 5) (s : State) : Host.Outcome State Fault Refusal :=
  s.perform [.s d.toNat, .s a.toNat, .s b.toNat] fun t =>
    t.issueCopy (t.planCopy (t.rS d.toNat) hint.toNat (t.rS a.toNat).toNat (t.rS b.toNat).toNat none) id

def execCpyf (hint : BitVec 3) (d a b : BitVec 5) (s : State) : Host.Outcome State Fault Refusal :=
  s.perform [.s d.toNat, .s a.toNat, .s b.toNat] fun t =>
    t.issueCopy (t.planCopy (t.rS d.toNat) hint.toNat (t.rS a.toNat).toNat 0 (some (t.rS b.toNat))) id

/-- A strided copy from its record (R208). -/
def State.planStride (s : State) (ctl : Word) (hint a recOff : Nat) (bs : List Byte) : Checked CopyOp :=
  let dseg := fieldOf ctl 8 3
  let sseg := fieldOf ctl 12 3
  let src : Int := wordAt bs 0
  let rowb := wordAt bs 4
  let rows := wordAt bs 8
  let ss := sval 32 (wordAt bs 12)
  let ds := sval 32 (wordAt bs 16)
  let field : Nat → Res := fun o => .trap 5 (s.segAddr 0 (recOff + o))
  if rowb % 64 ≠ 0 then .stop (field 4)
  else if ss % 64 ≠ 0 then .stop (field 12)
  else if ds % 64 ≠ 0 then .stop (field 16)
  else if rowb = 0 || rows = 0 then
    match s.footprint dseg a 0 rgtW, s.footprint sseg src 0 rgtR with
    | some (c, v), _ => .stop (.trap c v)
    | none, some (c, v) => .stop (.trap c v)
    | none, none => .ok ⟨s.cur, fieldOf ctl 0 6, hint, none, []⟩
  else match s.rowsCheck dseg a ds rowb rgtW rows with
    | some (c, v) => .stop (.trap c v)
    | none => match s.rowsCheck sseg src ss rowb rgtR rows with
      | some (c, v) => .stop (.trap c v)
      | none => .ok ⟨s.cur, fieldOf ctl 0 6, hint, none,
          (List.range rows).map fun (r : Nat) => (s.segAddr dseg (a + ds * r), s.segAddr sseg (src + ss * r), rowb / 64)⟩

def execCpys (hint : BitVec 3) (d a b : BitVec 5) (s : State) : Host.Outcome State Fault Refusal :=
  s.perform [.s d.toNat, .s a.toNat, .s b.toNat] fun t =>
    match t.readRecord (t.rS b.toNat).toNat 32 with
    | .stop r => r
    | .ok bs => t.issueCopy (t.planStride (t.rS d.toNat) hint.toNat (t.rS a.toNat).toNat (t.rS b.toNat).toNat bs) id

/-- A word read at issue at a 64-bit address, through the thread's translation (R209). -/
def State.readCount (s : State) (a : Addr) : Checked Word :=
  if s.guardedHere a 4 then .stop (.trap 4 a)
  else match s.recordFrom {} a 4 with
    | .stop r => .stop r
    | .ok bs => .ok (BitVec.ofNat 32 (leNat bs))

/-- CPYG: at most the bound of the shape record's rows, as its count word gives them. -/
def execCpyg (hint : BitVec 3) (d a b : BitVec 5) (s : State) : Host.Outcome State Fault Refusal :=
  s.perform [.s d.toNat, .s a.toNat, .s b.toNat] fun t =>
    match t.readRecord (t.rS b.toNat).toNat 32 with
    | .stop r => r
    | .ok bs =>
      let ctl := t.rS d.toNat
      let rowb := wordAt bs 4
      let ca : Addr := BitVec.ofNat 64 (dwordAt bs 8)
      let bound := wordAt bs 16
      let tag := fieldOf ctl 0 6
      if rowb % 64 ≠ 0 then .trap 5 (t.segAddr 0 ((t.rS b.toNat).toNat + 4))
      else if !spaceZeros ca.toNat then .trap 3 ca
      else if 2 ≤ spaceOf ca then .trap 4 ca
      else if ca.toNat % 4 ≠ 0 then .trap 5 ca
      else
        let dst : Int := (t.rS a.toNat).toNat
        let src : Int := wordAt bs 0
        match t.footprint (fieldOf ctl 8 3) dst (bound * rowb) rgtW, t.footprint (fieldOf ctl 12 3) src (bound * rowb) rgtR with
        | some (c, v), _ => .trap c v
        | none, some (c, v) => .trap c v
        | none, none =>
          match t.readCount ca with
          | .stop r => r
          | .ok n =>
            if bound < n.toNat && (wordAt bs 20) % 2 = 1 then .trap 14 (n.zeroExtend 64)
            else
              let rows := min n.toNat bound
              let op : CopyOp := ⟨t.cur, tag, hint.toNat, none,
                [(t.segAddr (fieldOf ctl 8 3) dst, t.segAddr (fieldOf ctl 12 3) src, rows * rowb / 64)]⟩
              t.issueCopy (.ok op) fun u => u.modTag t.cur tag fun g =>
                { g with
                  shape := g.shape || decide (bound < n.toNat)
                  recorded := if g.recorded.toNat < n.toNat then n else g.recorded }

/-! ### Counted waits and triggers (R210-R212) -/

/-- The place of a counter: TCM, space 01 or a stack-class page (R210). -/
def State.counterPlace (s : State) (seg a : Nat) : Checked (State × Loc) :=
  let addr := s.segAddr seg a
  match s.checkAccess seg a 4 rgtR 4 [0, 1] with
  | some (c, v) => .stop (.trap c v)
  | none => match s.target addr with
    | .own o => if (s.core s.myCore).movingBytes o 4 then .stop (.park (.split s.myCore o 4)) else .ok (s, .sram s.myCore (s.tcmRead s.cur o))
    | .core c o =>
      if s.coreFenced c then .stop (.trap 7 addr)
      else if (s.core c).movingBytes o 4 then .stop (.park (.split c o 4))
      else .ok (s, .sram c o)
    | .global va =>
      match s.remapRead s.myPart va with
      | none => .stop (.trap 4 addr)
      | some va' => match s.translate s.myCore s.myPart va' .read with
        | .wait w => .stop (.park w)
        | .ok u e => if e.cls = .stack then .ok (u, .phys .stack (e.phys va') e.key) else .stop (.trap 4 addr)
    | .sys _ _ _ => .stop (.trap 4 addr)

/-- The counter as the issuing thread reads it: with its own stores that are on their way, and zero in a guarded region of
another core. -/
def State.counterOwn (s : State) (l : Loc) : Word :=
  match l with
  | .sram c o =>
    if c ≠ s.myCore && (s.core c).guarded o 4 then 0 else BitVec.ofNat 32 (leNat (s.readOwn s.cur s.myPart l 4))
  | _ => BitVec.ofNat 32 (leNat (s.readOwn s.cur s.myPart l 4))

/-- The place of a window's notification word, or the cause of the refusal, with the state after its walk (R365). A remap window
refuses the access (R364). -/
def State.notifyPlace (s : State) (p naddr : Nat) : State × (Loc ⊕ Nat) :=
  let check : State → Loc → State × (Loc ⊕ Nat) := fun u l => (u, if u.locFenced l then .inr 7 else .inl l)
  if fld naddr 62 2 = 1 then
    if s.partOf (fld naddr 32 13) = some p then check s (.sram (fld naddr 32 13) (fld naddr 0 19)) else (s, .inr 6)
  else if (s.windowAt p (fld naddr 0 48)).isSome then (s, .inr 6)
  else match s.unitWalk (s.partStorey p) p naddr .atomic with
    | .ok u l => match l with
      | .phys .stack _ _ => check u l
      | _ => (u, .inr 6)
    | .absent u => (u, .inr 6)
    | .refused u => (u, .inr 6)

/-- A DRY window has its notification word at a place (R366), by whatever address. -/
def State.dryWord (s : State) (part : Nat) (l : Loc) : Bool :=
  (s.part part).remap.windows.any fun w => w.2.dry && match s.notifyPlace part w.2.naddr with
    | (_, .inl l') => locCovers l 4 l'
    | (_, .inr _) => false

def execWaitc (d : BitVec 5) (seg : BitVec 3) (a b : BitVec 5) (s : State) : Host.Outcome State Fault Refusal :=
  s.perform [.s a.toNat, .s b.toNat, .d d.toNat] fun t =>
    let g := t.seg seg.toNat
    let done : State → Word → Res := fun u v => .ok ((u.wS d.toNat v).acquire u.myCore g.scope)
    match t.me.ans with
    | some ws => done (t.modMe fun x => { x with ans := none }) (ws.headD 0)
    | none =>
      match t.counterPlace seg.toNat (t.rS a.toNat).toNat with
      | .stop r => r
      | .ok (u, l) =>
        let v := u.counterOwn l
        if (t.rS b.toNat).toNat ≤ v.toNat || t.dryWord t.myPart l then done u v
        else if u.watchFull l then .park (.watchRoom l)
        else .stay (u.postFree (.watch u.cur l (t.rS b.toNat) g.scope none)) .counter

def execTrig (d : BitVec 5) (seg : BitVec 3) (a b : BitVec 5) (s : State) : Host.Outcome State Fault Refusal :=
  s.perform [.s d.toNat, .s a.toNat, .s b.toNat] fun t =>
    let rec0 := (t.rS d.toNat).toNat
    match t.counterPlace seg.toNat (t.rS a.toNat).toNat with
    | .stop r => r
    | .ok (u, l) =>
      match u.readRecord rec0 32 with
      | .stop r => r
      | .ok bs =>
        let kind := wordAt bs 0
        let hint := wordAt bs 24 % 4
        if 2 < kind || hint = 3 then .trap 4 (u.segAddr 0 rec0)
        else
          let plan : Checked Fire :=
            if kind = 2 then .ok (.dec (BitVec.ofNat 32 (wordAt bs 8)) (BitVec.ofNat 32 (wordAt bs 4 % 65536)))
            else match u.planCopy (BitVec.ofNat 32 (wordAt bs 4)) hint (dwordAt bs 8) (dwordAt bs 16)
                (if kind = 1 then some (BitVec.ofNat 32 (wordAt bs 16)) else none) with
              | .stop r => .stop r
              | .ok op => .ok (.copy op)
          match plan with
          | .stop r => r
          | .ok fire =>
            match u.relWait with
            | some w => .park w
            | none =>
              let tag := match fire with
                | .copy op => some op.tag
                | .dec _ _ => none
              let tagFull : Bool := match tag with
                | some n => decide (255 ≤ (u.me.tagOf n).inflight)
                | none => false
              if 16 ≤ u.me.armed then .park .triggers
              else if tagFull then .park (.tagRoom (tag.getD 0))
              else
                let v := u.counterOwn l
                let met := if (t.rS b.toNat).toNat ≤ v.toNat then some v else none
                if met.isNone && u.watchFull l then .park (.watchRoom l)
                else
                let u1 := match tag with
                  | some n => u.sendAll.tagIssue u.cur n
                  | none => u.sendAll
                .ok ((u1.postFree (.trigger u.cur l (t.rS b.toNat) fire met)).modMe fun x => { x with armed := x.armed + 1 })

/-! ### Near-memory operations (R213) -/

/-- A region is stack- or pool-class memory: a host-class page or a remap window traps. A page that is not present is left
to the engine (R207) (log 52, DEDUCED). -/
def State.regionClass (s : State) (addr : Addr) (va : Nat) : Nat → Option (Nat × Addr)
  | 0 => none
  | n + 1 => match s.regionClass addr va n with
    | some r => some r
    | none =>
      if (s.windowAt s.myPart (pageStart va n)).isSome then some (4, addr)
      else match s.walk (storeyOf s.myCore) s.myPart (pageStart va n) with
        | .leaf _ e _ => if pteClass e = .host then some (4, addr) else none
        | _ => none

/-- The checks of a region of global memory: limit, rights, space and class (R131, R213) (log 20, DEDUCED). -/
def State.regionCheck (s : State) (seg : Nat) (off : Int) (len : Nat) : Option (Nat × Addr) :=
  match s.checkAccess seg off len rgtR 1 [0] with
  | some x => some x
  | none =>
    let addr := s.segAddr seg off
    s.regionClass addr (fieldOf addr 0 48) (regionPages (fieldOf addr 0 48) len)

def State.near (s : State) (reduce : Bool) (d : BitVec 5) (seg : BitVec 3) (a b : BitVec 5) : Host.Outcome State Fault Refusal :=
  s.perform [.s d.toNat, .s a.toNat, .s b.toNat] fun t =>
    let off := (t.rS a.toNat).toNat
    let len := (t.rS b.toNat).toNat
    let addr := t.segAddr seg.toNat off
    match t.regionCheck seg.toNat off len with
    | some (c, v) => .trap c v
    | none =>
      if off % 256 ≠ 0 || len % 256 ≠ 0 then .trap 5 addr
      else
        match t.readRecord (t.rS d.toNat).toNat 32 with
        | .stop r => r
        | .ok bs =>
          let ctl : Word := BitVec.ofNat 32 (wordAt bs 0)
          let op := fieldOf ctl 8 2
          let da := t.segAddr 0 (t.rS d.toNat).toNat
          let res := wordAt bs 4
          let other := dwordAt bs 8
          if op = 3 || (!reduce && op = 2) then .trap 4 da
          else match t.checkOffset 0 res 4 rgtW 4 [0, 1] with
          | some (c, v) => .trap c v
          | none =>
            match (if !reduce && op = 0 then t.regionCheck seg.toNat other len else none) with
            | some (c, v) => .trap c v
            | none =>
              let tag := fieldOf ctl 0 6
              match t.issueWait tag with
              | some w => .park w
              | none => .ok (t.sendAll.engineIssue tag (.near
                  { slot := t.cur, tag := tag, reduce := reduce, op := op, float := ctl.getLsbD 12
                    region := fieldOf addr 0 48, other := fieldOf (t.segAddr seg.toNat other) 0 48
                    pattern := BitVec.ofNat 32 (wordAt bs 8), len := len, res := t.segAddr 0 res }))

def execNcmp (d : BitVec 5) (seg : BitVec 3) (a b : BitVec 5) (s : State) : Host.Outcome State Fault Refusal := s.near false d seg a b
def execNred (d : BitVec 5) (seg : BitVec 3) (a b : BitVec 5) (s : State) : Host.Outcome State Fault Refusal := s.near true d seg a b

end Sys2Proof.Machine
end

