-- ==== Sys2Proof/Machine/Gallery.lean ====
section
/-!
DEFINITION. Gallery: halls, homes and matching (R265-R292) and the Gallery instructions (R293-R306).
-/

namespace Sys2Proof.Machine

open Sys2Proof

/-! ### Words and lanes (R268, R293-R295) -/

def hallOf (cw : Word) : Nat := fieldOf cw 16 16
def segOfCw (cw : Word) : Nat := fieldOf cw 8 3
def tagOfCw (cw : Word) : Nat := fieldOf cw 0 6

def vlane (v : VWord) (i : Nat) : Nat := lane v 32 i

/-- Replaces lanes of 32 bits. -/
def setLanes (v : VWord) (l : List (Nat × Nat)) : VWord :=
  ofLanes 32 ((List.range 16).map fun i => match l.find? fun p => p.1 == i with
    | some p => p.2
    | none => vlane v i)

def stOK : Nat := 0
def stNOMATCH : Nat := 1
def stWAITING : Nat := 2
def stDISPATCHED : Nat := 3
def stTAKEN : Nat := 4
def stHEAPFULL : Nat := 5
def stINDEXFULL : Nat := 6
def stNOHALL : Nat := 7
def stFENCED : Nat := 8
def stCANCELLED : Nat := 9
def stDESTFAULT : Nat := 10
def stNOSHADOW : Nat := 11
def stSRCFAULT : Nat := 12

/-- The CAUSE and ERR that a status leaves on a tag (R298, R300). -/
def causeOf (st : Nat) : Nat := if st = stFENCED then 7 else if st = stDESTFAULT || st = stSRCFAULT then 6 else if st = stNOSHADOW then 10 else 0
def getErr (st : Nat) : Bool := [stNOHALL, stFENCED, stDESTFAULT, stSRCFAULT, stNOSHADOW].contains st
def putErr (st : Nat) : Bool := !(st == stOK || st == stTAKEN)

/-- A key lane 4 or 5 that R268 does not allow. -/
def lenBad (v : VWord) : Bool := vlane v 4 % 256 != 0 || decide (65536 < vlane v 4)
def keyBad (v : VWord) : Bool := lenBad v || decide (16 ≤ vlane v 5)
def tplBad (v : VWord) : Bool := lenBad v || decide (32 ≤ vlane v 5)

/-- The home fields of a hall are exact in a template (R270). -/
def homeExact (homef : BitVec 4) (v : VWord) : Bool :=
  (List.range 4).all fun n => !homef.getLsbD n || vlane v (8 + n) == 0xFFFFFFFF

/-- A tuple matches a template (R269). -/
def Tuple.matchesT (t : Tuple) (p : VWord) : Bool :=
  ((List.range 4).all fun n => Nat.land (Nat.xor (t.f.getD n 0).toNat (vlane p n)) (vlane p (8 + n)) == 0)
    && decide (t.len ≤ vlane p 4) && (fld (vlane p 5) 4 1 == 0 || t.fmt == fld (vlane p 5) 0 4)

/-! ### Homes (R271-R274) -/

/-- The launch and completion halls, which PF0 alone defines (R72). -/
def hallReserved (n : Nat) : Bool := decide (0xFFE0 ≤ n) && decide (n < 0x10000)

def State.hall? (s : State) (n : Nat) : Option Hall := s.pkg.halls.look n

/-- A hall as a partition may use it (R266). -/
def State.hallFor (s : State) (part n : Nat) : Option Hall :=
  match s.hall? n with
  | some h => if h.part = part then some h else none
  | none => none

def State.hslot (s : State) (n : Nat) : Nat := s.pkg.hslot.lookD n n

/-- The home hash (R273). -/
def homeHash (hall : Nat) (homef : BitVec 4) (f : Nat → Nat) : Nat :=
  (List.range 4).foldl (fun x n =>
    if homef.getLsbD n then
      let y := Nat.xor x (f n) * 0xC6A4A793 % 2 ^ 32
      Nat.xor y (y / 2 ^ 16)
    else x) hall

def State.homeSlice (s : State) (hall : Nat) (h : Hall) (v : VWord) : Nat :=
  s.hslot (homeHash hall h.homef (vlane v) / 2 ^ 28 % 16)

/-- The range key: the value in the lowest home field (R271). -/
def rangeKey (homef : BitVec 4) (v : VWord) : Nat :=
  match leastBelow 4 fun n => homef.getLsbD n with
  | some n => vlane v n
  | none => 0

/-- The last directory entry whose LO does not exceed a range key. -/
def dirEntry (dir : List (Nat × Nat)) (k : Nat) : Option (Nat × Nat) := (dir.filter fun e => e.1 ≤ k).getLast?

/-- The home package of a key (R271). -/
def Hall.homePackage (h : Hall) (v : VWord) : Nat :=
  if !h.sys then Config.fabricId else match dirEntry h.dir (rangeKey h.homef v) with
    | some e => e.2
    | none => Config.fabricId

def homeLane (slice : Nat) : Nat := slice % 16 + Config.fabricId % 2 ^ 28 * 16

/-! ### Fills and completions -/

/-- A register that a pre-empted thread declared volatile (R24, R401). -/
def State.volatileV (s : State) (id n : Nat) : Bool :=
  if id < imageBase then false
  else match s.images.look (id - imageBase) with
    | some im => im.volV.1 ≤ n && n ≤ im.volV.2
    | none => false
def State.volatileS (s : State) (id n : Nat) : Bool :=
  if id < imageBase then false
  else match s.images.look (id - imageBase) with
    | some im => im.volS.1 ≤ n && n ≤ im.volS.2
    | none => false

/-- A fill wakes a thread parked in WFM on a set that holds the register (R149). -/
def Thread.wakeFill (t : Thread) (bit : Nat) : Thread :=
  match t.park with
  | some (.fillOf e) => if e.getLsbD bit then { t with ans := some [] } else t
  | _ => t

/-- A fill of a vector register of a thread or of its image (R126, R402). -/
def State.fillV (s : State) (id n : Nat) (v : VWord) : State :=
  if s.volatileV id n then s
  else s.modAny id fun t => { t with regs := t.regs.putV n v, fresh := t.fresh.del n }.wakeFill (8 + n)

/-- A fill by a delivery: the register's first reader acquires (R229), at system scope for a hall of that scope (R292). -/
def State.fillDelivery (s : State) (id n : Nat) (v : VWord) (sys : Bool) : State :=
  if s.volatileV id n then s else (s.fillV id n v).modAny id fun t => { t with fresh := t.fresh.put n sys }

def State.fillS (s : State) (id n : Nat) (v : Word) : State :=
  if s.volatileS id n then s else s.modAny id fun t => { t with regs := t.regs.putS n v }.wakeFill (n - 16)

/-- A vector register of a thread or of its image as it stands. -/
def State.anyV (s : State) (id n : Nat) : VWord := (((s.anyThr? id).getD {}).regs.v).lookD n 0

/-- The answer of a PUT (R298). -/
def State.putAnswer (s : State) (id vd tag st home : Nat) : State :=
  let s1 := if 8 ≤ vd then s.fillV id vd (setLanes (s.anyV id vd) [(6, st), (7, home)]) else s
  (s1.modAny id fun t => { t with unack := t.unack - 1 }).tagDone id tag (putErr st) (if st = stFENCED then 7 else 0)

/-! ### Engine accesses -/

/-- A unit of an engine's access: where it lies, that its page is not present, that it waits for a change of role or a wipe
(R168, R422), that it fails with a cause, or that it is dropped at another core's guarded bytes (R427). -/
inductive EngRes where
  | at (s : State) (l : Loc)
  | absent (va : Nat)
  | wait
  | fail (s : State) (cause : Nat)
  | drop

/-- A storey that is being wiped for another partition answers as a fenced one (R422). -/
def State.wipesForeign (s : State) (part core : Nat) : Bool := s.coreWiping core && s.partOf core != some part

/-- The place of `n` bytes of a 64-byte block that an operation of a thread reads or writes. -/
def State.engPlace (s : State) (id core part : Nat) (a : Addr) (n : Nat) (write : Bool) : EngRes :=
  match spaceOf a with
  | 0 =>
    match (if write then (if (s.windowAt part (fieldOf a 0 48)).isSome then none else some (fieldOf a 0 48))
        else s.remapRead part (fieldOf a 0 48)) with
    | none => if write then .fail s 6 else .drop
    | some va => match s.portWalk core part va (if write then .write else .read) with
      | .ok s' l => if s.locFenced l then .fail s' 7 else if write && s.migrationHolds l then .wait else .at s' l
      | .absent _ => .absent va
      | .refused s' => .fail s' 6
  | 1 =>
    if s.coreFenced (addrCore a) || s.wipesForeign part (addrCore a) then .fail s 7
    else if s.coreWiping (addrCore a) || (s.core (addrCore a)).movingBytes (addrOff a) n then .wait
    else if addrCore a = core then
      if write then match s.tcmWrite id (addrOff a) with
        | none => .fail s 10
        | some (s1, o, _) =>
          .at (if (s.granuleAt id (addrOff a)).isSome || imageBase ≤ id then s1 else s1.markWritten id (addrOff a)) (.sram core o)
      else .at s (.sram core (s.tcmRead id (addrOff a)))
    else if (s.core (addrCore a)).guarded (addrOff a) n then .drop
    else .at s (.sram (addrCore a) (addrOff a))
  | _ => .fail s 6

/-- Bytes that an engine reads: the bytes, the cause of a failure, a page that is not present, or a wait. -/
inductive EngRead where
  | ok (s : State) (bs : List Byte)
  | absent (va : Nat)
  | wait
  | fail (s : State) (cause : Nat)

/-- The parts of `n` bytes that lie in one 64-byte block each: address and length. -/
def blocks64 (a n : Nat) : List (Nat × Nat) :=
  ((List.range (n / 64 + 2)).map fun i =>
    let lo := max a ((a / 64 + i) * 64)
    (lo, min (a + n) ((a / 64 + i + 1) * 64) - lo)).filter fun b => b.2 != 0

def State.engReadBlocks (id core part hint : Nat) : List (Nat × Nat) → State → List Byte → EngRead
  | [], s, acc => .ok s acc
  | b :: r, s, acc =>
    match s.engPlace id core part (BitVec.ofNat 64 b.1) b.2 false with
    | .at s1 l =>
      State.engReadBlocks id core part hint r (s1.reachEng (storeyOf core) part hint l) (acc ++ s1.readEng part l b.2)
    | .drop => State.engReadBlocks id core part hint r s (acc ++ List.replicate b.2 0)
    | .absent va => .absent va
    | .wait => .wait
    | .fail s1 c => .fail s1 c

/-- Reads `n` bytes. -/
def State.engRead (id core part hint n : Nat) (s : State) (a : Addr) : EngRead :=
  State.engReadBlocks id core part hint (blocks64 a.toNat n) s []

/-- How an engine's write ends. -/
inductive EngWrite where
  | ok (s : State)
  | absent (va : Nat)
  | wait
  | fail (s : State) (cause : Nat)

def State.engWriteBlocks (id core part hint : Nat) : List (Nat × Nat) → State → List Byte → EngWrite
  | [], s, _ => .ok s
  | b :: r, s, bs =>
    match s.engPlace id core part (BitVec.ofNat 64 b.1) b.2 true with
    | .at s1 l =>
      State.engWriteBlocks id core part hint r ((s1.countAt (storeyOf core) part l).writeEng part hint l (bs.take b.2)) (bs.drop b.2)
    | .drop => State.engWriteBlocks id core part hint r s (bs.drop b.2)
    | .absent va => .absent va
    | .wait => .wait
    | .fail s1 c => .fail s1 c

/-- Writes bytes in order; what stands before a failure stays written. -/
def State.engWrite (id core part hint : Nat) (s : State) (a : Addr) (bs : List Byte) : EngWrite :=
  State.engWriteBlocks id core part hint (blocks64 a.toNat bs.length) s bs

/-- The state after a write that does not wait, and the cause of its failure (0: none). -/
def EngWrite.result (w : EngWrite) (s : State) : State × Nat :=
  match w with
  | .ok u => (u, 0)
  | .fail u c => (u, c)
  | .absent _ => (s, 6)
  | .wait => (s, 6)

/-! ### The classes of engine traffic (R326-R327) -/

/-- The unit that an engine's access to an address goes to, where its translation gives one. -/
def State.reqUnit (s : State) (core part : Nat) (a : Addr) : Option Nat :=
  match spaceOf a with
  | 0 => match s.walk (storeyOf core) part (fieldOf a 0 48) with
    | .leaf _ e block => some (s.unitOf (.phys (pteClass e) ((tlbOf part (fieldOf a 16 32) e block).phys (fieldOf a 0 48)) (fld e 52 12)))
    | _ => none
  | 1 => some (addrCore a)
  | _ => none

/-- No request of the core to one of the units that is older than the operation is still on its way, and no response of
the unit to the core: what the engine sends, and its completion, come behind them. -/
def State.inOrder (s : State) (act core part : Nat) (as : List Addr) : Bool :=
  ((as.filterMap (s.reqUnit core part)).dedup).all fun u => !(s.acts.any fun b =>
    (decide (b.1 < act) && b.2.flows.contains (NetClass.request.no, core, u))
      || (b.1 != act && b.2.flows.contains (NetClass.response.no, u, core)))

/-- The 64-byte blocks of a region, as addresses. -/
def blockAddrs (a : Addr) (n : Nat) : List Addr := (blocks64 a.toNat n).map fun b => BitVec.ofNat 64 b.1

/-- An answer of a home to a core is on its way in the Gallery class. -/
def State.classBusy (s : State) (slice core : Nat) : Bool :=
  s.acts.any fun a => a.2.flows.contains (NetClass.gallery.no, 16384 + slice, core)

/-! ### Payloads (R283, R285-R286) -/

/-- The core in whose storey the slice engines translate for a partition: the lowest core of its storeys. -/
def State.partCore (s : State) (p : Nat) : Nat := ((leastBelow 128 fun n => (s.part p).smask.getLsbD n).getD 0) * 64

def State.heapAddr (s : State) (hall slice first : Nat) : Nat :=
  match s.hall? hall with
  | some h => h.heapBase + slice * h.heapSize * 65536 + first * 256
  | none => 0

/-- The starts of the units of 256 bytes of a region. -/
def units256 (va len : Nat) : List Nat := (List.range (len / 256)).map fun i => va + 256 * i

/-- A slice engine reads units of 256 bytes through the partition's translation: the bytes before a failure, and its
status (log 59, DESIGN CHOICE). A remap window refuses it (R364). -/
def State.sliceRead (part : Nat) : List Nat → State → List Byte → State × List Byte × Nat
  | [], s, acc => (s, acc, stOK)
  | va :: r, s, acc =>
    if (s.windowAt part va).isSome then (s, acc, stSRCFAULT)
    else match s.unitWalk (storeyOf (s.partCore part)) part va .read with
      | .ok s1 l =>
        if s1.locFenced l then (s1, acc, stFENCED)
        else State.sliceRead part r (s1.reachEng (storeyOf (s.partCore part)) part 0 l) (acc ++ s1.readEng part l 256)
      | .absent s1 => (s1, acc, stSRCFAULT)
      | .refused s1 => (s1, acc, stSRCFAULT)

/-- A slice engine writes units of 256 bytes: whether it comes to the last, which it does not when a page is not present or not
writable (R267), or lies in a remap window (R364). -/
def State.sliceWrite (part : Nat) : List Nat → State → List Byte → State × Bool
  | [], s, _ => (s, true)
  | va :: r, s, bs =>
    if (s.windowAt part va).isSome then (s, false)
    else match s.unitWalk (storeyOf (s.partCore part)) part va .write with
    | .absent s1 => (s1, false)
    | .refused s1 => (s1, false)
    | .ok s1 l =>
      if s1.locFenced l then (s1, false)
      else State.sliceWrite part r ((s1.countAt (storeyOf (s.partCore part)) part l).writeEng part 0 l (bs.take 256)) (bs.drop 256)

/-- Some unit of a region that the slice engines write lies in a page whose writes a migration holds (R185). -/
def State.sliceHeld (s : State) (part : Nat) (units : List Nat) : Bool := units.any fun va =>
  match s.unitWalk (storeyOf (s.partCore part)) part va .write with
  | .ok s1 l => s1.migrationHolds l
  | _ => false

/-- The payload of a tuple where it lies, with the status that its read gives. A tuple that a later split has brought back
names its payload on this very package (R286, R288). -/
def State.payloadRead (s : State) (part slice : Nat) (t : Tuple) : State × List Byte × Nat :=
  match t.payload with
  | .none => (s, [], stOK)
  | .heap first _ => State.sliceRead part (units256 (s.heapAddr t.hall slice first) t.len) s []
  | .region va => State.sliceRead part (units256 va t.len) s []
  | .away fabric _ _ va _ =>
    if fabric = Config.fabricId then State.sliceRead part (units256 va t.len) s []
    else if Config.peerLost fabric va s.cycle then (s, [], stSRCFAULT)
    else (s, (List.range t.len).map (Config.peerByte fabric va s.cycle), stOK)

def regionLanes (t : Tuple) : Nat × Nat := match t.payload with
  | .region va => (va % 2 ^ 32, va / 2 ^ 32)
  | .away _ _ _ va true => (va % 2 ^ 32, va / 2 ^ 32)
  | _ => (0, 0)

/-- Lanes 0-7 of a result. -/
def resultLanes (t : Tuple) (tmpl : VWord) (st home : Nat) : List (Nat × Nat) :=
  ((List.range 4).map fun n => (n, (t.f.getD n 0).toNat))
    ++ [(4, t.len), (5, t.fmt % 16 + fld (vlane tmpl 5) 4 1 * 16), (6, st), (7, home)]

/-! ### Answers (R283-R286, R298, R300) -/

def GOp.puts : GOp → Bool
  | .put | .putg => true
  | _ => false
def GOp.gets : GOp → Bool
  | .read | .take => true
  | _ => false

/-- An act that another package receives, or this one. -/
def State.toPeer (s : State) (fabric : Nat) (k : ActKind) : State :=
  if fabric = Config.fabricId then s.postFree k
  else if s.isFenced 4 (flowPort fabric) then s
  else { s with out := s.out ++ [.peer fabric k] }

/-- Frees the heap granules of a tuple that has been taken, here or at the source of a split (R288). -/
def State.freeHeap (s : State) (slice : Nat) (t : Tuple) : State :=
  match t.payload with
  | .heap first _ => s.modSlice slice fun x =>
      { x with heap := x.heap.put t.hall ((x.heap.lookD t.hall []).filter fun g => g.1 != first) }
  | .away fabric sl first _ false => s.toPeer fabric (.srcNotice t.hall sl first)
  | _ => s

/-- A DEC to a task counter (R84, R284). -/
def State.sendDec (s : State) (src : Nat) (sel : Word) (n : Nat) (by_ : Option Nat) (sys : Bool := false) : State :=
  s.send .request src (fieldOf sel 19 13) (.dec by_ (fieldOf sel 19 13) (fieldOf sel 0 12) n sys)

/-- The end of a continuation: eight words to the mailbox, then the DEC (R284). -/
def State.mailbox (s : State) (r : GReq) (id slice : Nat) (words : List Word) (sys : Bool) : State :=
  ((State.engWrite id (s.coreOfAny id) r.part 0 s (BitVec.ofNat 64 r.mbox) (bytesOf words)).result s).1.sendDec
    (16384 + slice) r.ctr 1 none sys

/-- A cancel has been answered: the last answer lets the TCANCEL complete (R302). -/
def State.cancelDone (s : State) (r : GReq) (id n : Nat) : State :=
  let mine : GReq → Bool := fun q => q.op == .cancel && q.slot == some id && !q.ends && q.no != r.no
  let left : Bool := s.pkg.away.any (fun a => mine a.2.req) || s.acts.any fun a => match a.2.kind with
    | .gal q _ _ => mine q
    | .galAnswer q _ _ => mine q
    | .retry q _ _ => mine q
    | .redirect q _ => mine q
    | _ => false
  if r.ends then s
  else s.modAny id fun t =>
    if left then { t with withdrawn := t.withdrawn + n }
    else { t with withdrawn := t.withdrawn + n, ans := some [BitVec.ofNat 32 (t.withdrawn + n)] }

/-- The answer to a thread without a delivery (R294): lanes 6 and 7 with the tag, a put's answer on its way, or the count
of a cancel. -/
def State.answerNow (s : State) (r : GReq) (id slice st home : Nat) : State :=
  if r.op.puts then s.send .gallery (16384 + slice) (s.coreOfAny id) (.putAnswer id r.vd r.tag st (BitVec.ofNat 32 home))
  else if r.op = .cancel then s.cancelDone r id st
  else (s.fillV id r.vd (setLanes (s.anyV id r.vd) [(6, st), (7, home)])).tagDone id r.tag (getErr st) (causeOf st)

/-- The flow that the deliveries and answers of one home to one thread keep (R279). -/
def ansFlow (id slice : Nat) : Nat × Nat × Nat := (4, id, slice + 1)

/-- A delivery to a thread waits at a home. -/
def State.behind (s : State) (id slice : Nat) : Bool := s.acts.any fun a => a.2.flows.contains (ansFlow id slice)

/-- An answer to a requester, behind what its thread still awaits from the home. -/
def State.answer (s : State) (r : GReq) (slice st home : Nat) : State :=
  match r.slot with
  | some id =>
    if !r.op.puts && (s.behind id slice || s.classBusy slice (s.coreOfAny id)) then s.post [ansFlow id slice] (.galAnswer r slice st)
    else s.answerNow r id slice st home
  | none => s.toPeer r.fabric (.peerAnswer r.no (if r.op = .cancel then .withdrawn st else .status st home))

/-- Local bytes that change role (R168) or that a wipe zeroes (R422). -/
def State.sramBlocked (s : State) (part : Nat) (a : Addr) (len : Nat) : Bool :=
  spaceOf a == 1 && len != 0 && !s.wipesForeign part (addrCore a)
    && (s.coreWiping (addrCore a) || (s.core (addrCore a)).movingBytes (addrOff a) len)

/-- Why a delivery waits: a page of its destination that is not present (R392), or whose writes a migration holds (R185), or
bytes that change role. -/
def State.destBlocked (s : State) (core part : Nat) (dest : Addr) (len : Nat) : Option (Option Nat) :=
  if len = 0 then none
  else if spaceOf dest = 0 then
    let pages := (List.range (regionPages (fieldOf dest 0 48) len)).map (pageStart (fieldOf dest 0 48))
    let absent : Nat → Bool := fun va => match s.portWalk core part va .write with
      | .absent _ => true
      | _ => false
    let kept : Nat → Bool := fun va => match s.portWalk core part va .write with
      | .ok s1 l => s1.migrationHolds l
      | _ => false
    match pages.find? absent with
    | some va => some (some va)
    | none => if pages.any kept then some none else none
  else if s.sramBlocked part dest len then some none
  else none

/-- The same for a delivery with its mailbox (R284). -/
def State.destWaits (s : State) (r : GReq) (id len : Nat) : Option (Option Nat) :=
  match s.destBlocked (s.coreOfAny id) r.part (BitVec.ofNat 64 r.addr) len with
  | some x => some x
  | none => if r.mode = .cont && s.sramBlocked r.part (BitVec.ofNat 64 r.mbox) 32 then some none else none

/-- A delivery into the own TCM of a pre-empted thread is held until it resumes (R402). -/
def State.heldFor (s : State) (r : GReq) (id len : Nat) : Bool :=
  imageBase ≤ id && id < deadBase && len != 0 && r.mode != .cont && spaceOf (BitVec.ofNat 64 r.addr) == 1
    && addrCore (BitVec.ofNat 64 r.addr) == s.coreOfAny id

/-- The steps of a delivery (R283-R284): the payload is written, then the result register is filled and the tag set, or
the mailbox is written and the DEC sent. What comes for a thread that has ended is discarded (R391). -/
def State.deliverTuple (s : State) (r : GReq) (id : Nat) (t : Tuple) (slice home : Nat) (bs : List Byte) (st0 : Nat) : State :=
  if deadBase ≤ id && r.mode != .cont then s
  else
  let w := (State.engWrite id (s.coreOfAny id) r.part 0 s (BitVec.ofNat 64 r.addr) (bs.take t.len)).result s
  let st := if w.2 = 7 then stFENCED else if w.2 = 10 then stNOSHADOW else if w.2 = 6 then stDESTFAULT else st0
  let lanes := resultLanes t r.tmpl st home
  let sys := (s.hall? t.hall).any Hall.sys
  if r.mode = .cont then
    w.1.mailbox r id slice ((List.range 8).map fun i => BitVec.ofNat 32 (((lanes.find? fun p => p.1 == i).map Prod.snd).getD 0)) sys
  else
    let (lo, hi) := regionLanes t
    let v := setLanes (s.anyV id r.vd) (lanes ++ [(12, lo), (13, hi), (14, 0), (15, 0)])
    ((w.1.fillDelivery id r.vd v sys).modTag id r.tag fun g => { g with sys := g.sys || sys }).tagDone id r.tag (getErr st) (causeOf st)

/-- A delivery whose destination is ready: its payload is read, and a taken tuple's heap is free. -/
def State.deliverNow (s : State) (r : GReq) (id : Nat) (t : Tuple) (slice : Nat) (got : Option (List Byte × Nat)) : State :=
  let p := match got with
    | some g => (s, g)
    | none => s.payloadRead r.part slice t
  let s1 := p.1.deliverTuple r id t slice (homeLane slice) p.2.1 p.2.2
  if r.op = .take then s1.freeHeap slice t else s1

/-- The fault of a page that a delivery needs. -/
def State.stall (s : State) (core va : Nat) (acc : Access) : State :=
  s.pageFaulted (storeyOf core) (va / 65536) acc (flightOf core)

/-- The put that a TAKE waited for is answered: the waiter has its tuple (R291). -/
def State.answerOwed (s : State) (slice : Nat) (owes : Option GReq) : State :=
  match owes with
  | some p => s.answer p slice stTAKEN (homeLane slice)
  | none => s

/-- A home delivers a tuple: at once, later when the destination or the thread is not ready, or to another package, whose
part of the delivery the put does not wait for (log 75, DEDUCED). -/
def State.deliverTo (s : State) (r : GReq) (t : Tuple) (slice : Nat) (got : Option (List Byte × Nat)) (owes : Option GReq) : State :=
  match r.slot with
  | none =>
    let p := match got with
      | some g => (s, g)
      | none => s.payloadRead (((s.hall? t.hall).map Hall.part).getD r.part) slice t
    let t1 := match t.payload with
      | .region va => { t with payload := .away Config.fabricId slice 0 va true }
      | _ => t
    let s1 := p.1.toPeer r.fabric (.peerAnswer r.no (.tuple t1 p.2.2 (homeLane slice) p.2.1))
    (if r.op = .take then s1.freeHeap slice t else s1).answerOwed slice owes
  | some id =>
    let later := (s.post [ansFlow id slice] (.delivery r t slice got owes))
    if s.behind id slice || s.classBusy slice (s.coreOfAny id) || s.heldFor r id t.len then later
    else match s.destWaits r id t.len with
      | some (some va) => later.stall (s.coreOfAny id) va .write
      | some none => later
      | none => (s.deliverNow r id t slice got).answerOwed slice owes

/-- A continuation hears a status: its mailbox is written and its counter decreases (R300-R302). -/
def State.mailStatus (s : State) (r : GReq) (id slice st home : Nat) : State :=
  s.mailbox r id slice ((List.range 8).map fun i =>
    BitVec.ofNat 32 (if i = 6 then st else if i = 7 then home else vlane r.tmpl i)) false

/-- The end of a waiter without a delivery: its register, or its mailbox and counter, receive a status (R301-R302), once the
mailbox can be written. -/
def State.answerWaiter (s : State) (r : GReq) (slice st : Nat) : State :=
  match r.slot with
  | some id =>
    if r.mode = .cont then
      if s.sramBlocked r.part (BitVec.ofNat 64 r.mbox) 32 then s.post [ansFlow id slice] (.galAnswer { r with ends := true } slice st)
      else s.mailStatus r id slice st (homeLane slice)
    else s.answer r slice st (homeLane slice)
  | none => s.answer r slice st (homeLane slice)

/-! ### Splits as the home of a moving range sees them (R287-R289) -/

def State.putHall (s : State) (n : Nat) (h : Hall) : State := s.modPkg fun g => { g with halls := g.halls.put n h }

def tupleKey (t : Tuple) : VWord := ofLanes 32 (t.f.map BitVec.toNat)

def Split.covers (sp : Split) (homef : BitVec 4) (v : VWord) : Bool :=
  decide (sp.m ≤ rangeKey homef v) && decide (rangeKey homef v ≤ sp.hi)

/-- A change of the moving range is mirrored to the destination while it is copied. -/
def State.mirror (s : State) (hall : Nat) (v : VWord) (k : ActKind) : State :=
  match s.hall? hall with
  | some h => match h.split with
    | some sp =>
      if sp.isSrc && sp.phase == .copy && sp.covers h.homef v then
        { (s.putHall hall { h with split := some { sp with changes := sp.changes + 1 } }) with out := s.out ++ [.peer sp.dest k] }
      else s
    | none => s
  | none => s

/-- A tuple as the destination of a split holds it: its payload stays at the source. -/
def Tuple.moved (t : Tuple) (slice heapVa : Nat) : Tuple :=
  { t with
    src := some (slice, t.seq)
    payload := match t.payload with
      | .heap first _ => .away Config.fabricId slice first heapVa false
      | .region va => .away Config.fabricId slice 0 va true
      | p => p }

def State.movedTuple (s : State) (slice : Nat) (t : Tuple) : Tuple :=
  t.moved slice (match t.payload with
    | .heap first _ => s.heapAddr t.hall slice first
    | _ => 0)

/-- A request without the name of its thread, as another package holds it. -/
def GReq.abroad (r : GReq) : GReq := { r with slot := none, owner := r.slot.getD r.owner }

/-! ### Matching at the home (R276-R282) -/

/-- A READ or TAKE that is performed at its home (R278). -/
def State.serveMatch (s : State) (r : GReq) (slice : Nat) : State :=
  match (s.slice slice).tuples.find? fun t => t.hall == r.hall && t.matchesT r.tmpl with
  | some t =>
    let s1 := if r.op = .take then
        (s.modSlice slice fun x => { x with tuples := x.tuples.filter fun u => u.seq != t.seq }).mirror r.hall r.tmpl
          (.mirrorDel r.hall slice t.seq)
      else s
    (if r.mode = .cont then s1.answer r slice stDISPATCHED (homeLane slice) else s1).deliverTo r t slice none none
  | none =>
    if r.mode = .poll then s.answer r slice stNOMATCH (homeLane slice)
    else
      let s1 := (s.modSlice slice fun x => { x with waiters := x.waiters ++ [r] }).mirror r.hall r.tmpl (.mirrorWait r.hall r.abroad)
      if r.mode = .cont then s1.answer r slice stWAITING (homeLane slice)
      else if r.slot.isNone then s1.toPeer r.fabric (.peerAnswer r.no .accepted)
      else s1

/-- The lowest free run of granules in a home's heap part (R267). -/
def heapFit (used : List (Nat × Nat)) (total n : Nat) : Option Nat :=
  let starts := (0 :: used.map fun u => u.1 + u.2).filter fun g =>
    decide (g + n ≤ total) && used.all fun u => decide (g + n ≤ u.1) || decide (u.1 + u.2 ≤ g)
  minBy id starts

/-- The tuple of a key. -/
def tupleOf (hall : Nat) (v : VWord) (payload : Payload) : Tuple :=
  { hall := hall, f := (List.range 4).map fun n => BitVec.ofNat 32 (vlane v n), len := vlane v 4, fmt := vlane v 5 % 16
    seq := 0, payload := payload }

/-- Puts a tuple into the index with its payload: its status (R267, R277, R298). The index is tried before the heap
(log 31, DESIGN CHOICE). -/
def State.indexTuple (s : State) (slice : Nat) (h : Hall) (t : Tuple) (bs : List Byte) : State × Nat :=
  let x := s.slice slice
  let add : State → Payload → State := fun s p =>
    s.modSlice slice fun x => { x with tuples := x.tuples ++ [{ t with seq := x.seq, payload := p }], seq := x.seq + 1 }
  if 16384 + 16777216 ≤ x.tuples.length then (s, stINDEXFULL)
  else match t.payload with
    | .none =>
      if t.len = 0 then (add s .none, stOK)
      else
        let used := x.heap.lookD t.hall []
        match heapFit used (h.heapSize * 256) (t.len / 256) with
        | none => (s, stHEAPFULL)
        | some g =>
          match State.sliceWrite h.part (units256 (h.heapBase + slice * h.heapSize * 65536 + g * 256) t.len) s bs with
          | (s1, false) => (s1, stHEAPFULL)
          | (s1, true) =>
            (add (s1.modSlice slice fun x => { x with heap := x.heap.put t.hall ((g, t.len / 256) :: used) }) (.heap g (t.len / 256)), stOK)
    | p => (add s p, stOK)

/-- A PUT at its home (R281): waiting READs in order, the first waiting TAKE, then the index. `got` is the payload of a
PUT with the status of its read; `owes` is the operation that the delivery to a TAKE answers. -/
def State.servePut (s : State) (slice : Nat) (h : Hall) (t : Tuple) (got : Option (List Byte × Nat)) (owes : Option GReq) : State × Nat :=
  let fits : GReq → Bool := fun r => r.hall == t.hall && t.matchesT r.tmpl
  let serve : Option GReq → State → GReq → State := fun o u r =>
    ((u.modSlice slice fun x => { x with waiters := x.waiters.erase r }).mirror t.hall r.tmpl (.mirrorGone t.hall r.fabric r.no)).deliverTo
      r t slice got o
  let s1 := ((s.slice slice).waiters.filter fun r => fits r && r.op != .take).foldl (serve none) s
  match (s1.slice slice).waiters.find? fits with
  | some r => (serve owes s1 r, stTAKEN)
  | none =>
    if (got.map Prod.snd).getD stOK ≠ stOK then (s1, (got.map Prod.snd).getD stOK)
    else
      let r := s1.indexTuple slice h t ((got.map Prod.fst).getD [])
      if r.2 ≠ stOK then r
      else match (r.1.slice slice).tuples.getLast? with
        | some u => (r.1.mirror t.hall (tupleKey t) (.mirrorPut t.hall (r.1.movedTuple slice u)), stOK)
        | none => r

/-- The payload that a put brings: the region of a PUTG where it lies, or the bytes of a PUT as its agent reads them. -/
def State.putSource (s : State) (r : GReq) : State × Payload × Option (List Byte × Nat) :=
  if r.op = .putg then
    (s, if r.fabric = Config.fabricId then .region (r.addr % 2 ^ 48) else .away r.fabric 0 0 (r.addr % 2 ^ 48) true, none)
  else match r.bytes with
  | some bs => (s, .none, some (bs, r.read))
  | none =>
    let id := r.slot.getD 0
    match State.engRead id (s.coreOfAny id) r.part 0 (vlane r.tmpl 4) s (BitVec.ofNat 64 r.addr) with
    | .ok s1 bs => (s1, .none, some (bs, stOK))
    | .fail s1 _ => (s1, .none, some ([], stFENCED))
    | _ => (s, .none, some ([], stFENCED))

/-- Withdraws waiters at a home (R282, R302): each is answered CANCELLED. -/
def State.withdraw (s : State) (slice : Nat) (p : GReq → Bool) : State × Nat :=
  let ws := (s.slice slice).waiters.filter p
  let s1 := s.modSlice slice fun x => { x with waiters := x.waiters.filter fun r => !p r }
  (ws.foldl (fun s r => (s.mirror r.hall r.tmpl (.mirrorGone r.hall r.fabric r.no)).answerWaiter r slice stCANCELLED) s1, ws.length)

/-- The hall of an operation as its home has it (R266): of the requester's partition on its own package, and for a request
of another package one of system scope under whose key set it travels. -/
def State.hallAt (s : State) (r : GReq) : Option Hall :=
  if r.fabric = Config.fabricId then s.hallFor r.part r.hall
  else match s.hall? r.hall with
  | some h => if h.sys && r.keys == h.group then some h else none
  | none => none

/-- An operation is performed at its home. -/
def State.performGal (s : State) (r : GReq) (slice : Nat) : State :=
  if r.op = .cancel then
    let w := s.withdraw slice fun q => q.fabric == r.fabric && r.nos.contains q.no
    w.1.answer r slice w.2 (homeLane slice)
  else match s.hallAt r with
  | none => s.answer r slice stNOHALL (homeLane slice)
  | some h =>
    if s.isFenced 2 slice then s.answer r slice stFENCED (homeLane slice)
    else if r.op.puts then
      let p := s.putSource r
      let u := p.1.servePut slice h (tupleOf r.hall r.tmpl p.2.1) p.2.2 (some r)
      if u.2 = stTAKEN then u.1 else u.1.answer r slice u.2 (homeLane slice)
    else s.serveMatch r slice

/-! ### Operations on their way (R280, R286-R288) -/

/-- The unit that a home is, as the end of a flow. -/
def homeUnit (home slice : Nat) : Nat := if home = Config.fabricId then 16384 + slice else 20000 + home

/-- The thread of an operation as a home names it. -/
def GReq.who (r : GReq) : Nat × Nat := (r.fabric, r.slot.getD r.owner)

/-- Sends an operation to its home. -/
def State.sendGal (s : State) (r : GReq) (home slice : Nat) : State :=
  s.send .gallery ((r.slot.map s.coreOfAny).getD 0) (homeUnit home slice) (.gal r home slice)

/-- What a home does with an operation (R288). -/
inductive MoveRes where
  | serve
  | hold
  | redirect (fabric : Nat)
  deriving DecidableEq, Repr

def State.moveState (s : State) (r : GReq) : MoveRes :=
  match s.hall? r.hall with
  | none => .serve
  | some h =>
    let old : MoveRes := match h.past.find? fun x =>
        decide (x.1 ≤ rangeKey h.homef r.tmpl) && decide (rangeKey h.homef r.tmpl ≤ x.2.1) with
      | some x => .redirect x.2.2
      | none => .serve
    match h.split with
    | none => old
    | some sp =>
      if !sp.covers h.homef r.tmpl then old
      else if sp.isSrc then match sp.phase with
        | .copy => .serve
        | .flip => .hold
        | _ => if sp.ended then .serve else .redirect sp.dest
      else if r.fwd || sp.phase = .done then .serve
      else .hold

/-- An operation that its interface or the source of a split holds back stands in no class. -/
def State.unflow (s : State) (act : Nat) : State :=
  match s.acts.look act with
  | some a => if a.flows.isEmpty then s else { s with acts := s.acts.put act { a with flows := [] } }
  | none => s

/-- One operation of a thread that a home has answered RETRY is out of it again: accepted, held, or sent elsewhere (R280). -/
def State.unretry (s : State) (slice : Nat) (r : GReq) : State :=
  if r.again then s.modSlice slice fun x => { x with retry := x.retry.erase r.who } else s

/-- The source of a split holds an operation in arrival order (R287). -/
def State.holdAct (s : State) (r : GReq) (slice act : Nat) : State :=
  match s.hall? r.hall with
  | some h => match h.split with
    | some sp =>
      if !sp.isSrc then s
      else ((s.putHall r.hall { h with split := some { sp with held := sp.held ++ [act] } }).unflow act).unretry slice r
    | none => s
  | none => s

def State.isHeld (s : State) (act : Nat) : Bool :=
  s.pkg.halls.any fun h => (h.2.split.map fun sp => sp.held.contains act).getD false

/-- A fenced port has answered an operation (R351): FENCED, and a cancel has withdrawn nothing behind it. -/
def GReq.fencedStatus (r : GReq) : Nat := if r.op = .cancel then 0 else stFENCED

/-- Sends an operation to a home on another package (R286); a PUT's agent reads its payload first, and the status of the read
travels with it. A fenced port answers FENCED. -/
def State.sendAway (s : State) (r : GReq) (home : Nat) (forwarded : Bool) : State :=
  if s.isFenced 4 (flowPort home) then s.answer r 0 r.fencedStatus 0
  else
    let p := if r.op = .put then s.putSource r else (s, .none, none)
    let bytes : Option (List Byte) := p.2.2.map Prod.fst
    let read : Nat := (p.2.2.map Prod.snd).getD r.read
    let keys := ((s.hall? r.hall).map Hall.group).getD 0
    let s1 := if r.slot.isSome then
        p.1.modPkg fun g => { g with away := g.away.put r.no { req := r, home := home, accepted := forwarded } }
      else if forwarded then s.toPeer r.fabric (.peerAnswer r.no .accepted)
      else s
    { s1 with out := s1.out ++ [.peer home (.gal { r.abroad with keys := keys, bytes := bytes <|> r.bytes, read := read, fwd := forwarded, again := r.again && !forwarded } home 0)] }

/-- A waiter store without room for an operation that would wait (R280). -/
def State.storeFull (s : State) (r : GReq) (slice : Nat) : Bool :=
  r.op.gets && r.mode != .poll && decide (65536 ≤ (s.slice slice).waiters.length)
    && !((s.slice slice).tuples.any fun t => t.hall == r.hall && t.matchesT r.tmpl)

/-- A range entry that this package's interfaces have received holds new operations on the range back until every one sent
to the old owner is accepted, answered, or redirected and sent again (R287). -/
def State.entryHolds (s : State) (r : GReq) (home : Nat) : Bool :=
  match s.hall? r.hall with
  | some h => match h.moving with
    | none => false
    | some (m, hi, old) =>
      let inRange : GReq → Bool := fun q =>
        q.hall == r.hall && q.slot.isSome && decide (m ≤ rangeKey h.homef q.tmpl) && decide (rangeKey h.homef q.tmpl ≤ hi)
      r.slot.isSome && !r.again && !r.moved && home != old && inRange r
        && (s.pkg.away.any (fun a => a.2.home == old && !a.2.accepted && inRange a.2.req)
          || s.acts.any fun a => match a.2.kind with
            | .gal q hm _ => (hm == old || q.moved) && inRange q
            | .retry q hm _ => (hm == old || q.moved) && inRange q
            | .redirect q _ => inRange q
            | _ => false)
  | none => false

/-- The interface holds an operation back: a range entry does, or an older operation of the thread to the home that it holds
back (R287). -/
def State.heldBack (s : State) (act : Nat) (r : GReq) (home : Nat) : Bool :=
  s.entryHolds r home || (r.slot.isSome && !r.again && !r.moved && s.acts.any fun a => a.1 != act && a.2.flows.isEmpty
    && !s.isHeld a.1 && match a.2.kind with
      | .gal q hm _ => q.slot == r.slot && q.hall == r.hall && hm == home && !q.again && !q.moved && decide (q.no < r.no)
      | _ => false)

/-- An operation that its interface has held back. -/
def State.atInterface (s : State) (act : Nat) (r : GReq) : Bool :=
  r.slot.isSome && (s.acts.look act).any fun a => a.flows.isEmpty

/-- The bytes that a PUT brings from a TCM change role or are wiped. -/
def State.sourceBlocked (s : State) (r : GReq) : Bool :=
  r.op == .put && r.bytes.isNone && s.sramBlocked r.part (BitVec.ofNat 64 r.addr) (vlane r.tmpl 4)

/-- The heap place that a PUT would take lies in a page whose writes a migration holds (R185). -/
def State.heapHeld (s : State) (r : GReq) (slice : Nat) : Bool :=
  match s.hallAt r with
  | none => false
  | some h =>
    r.op == .put && match heapFit ((s.slice slice).heap.lookD r.hall []) (h.heapSize * 256) (vlane r.tmpl 4 / 256) with
      | some g => s.sliceHeld h.part (units256 (h.heapBase + slice * h.heapSize * 65536 + g * 256) (vlane r.tmpl 4))
      | none => false

/-- An operation arrives: it goes on to another package, is held or redirected by a split, is answered RETRY, waits for its
payload's bytes, or is performed. What its interface held back joins the class when it is let go. -/
def State.arriveGal (s : State) (act : Nat) (r : GReq) (home slice0 : Nat) : State :=
  let slice := match r.slot, s.hall? r.hall with
    | none, some h => s.homeSlice r.hall h r.tmpl
    | _, _ => slice0
  if s.isHeld act then s
  else if s.heldBack act r home then s.unflow act
  else if s.atInterface act r then (s.dropAct act).sendGal r home slice0
  else if s.sourceBlocked r then s
  else if home ≠ Config.fabricId then (s.dropAct act).sendAway r home false
  else match s.moveState r with
  | .hold => s.holdAct r slice act
  | .redirect f =>
    let u := (s.dropAct act).unretry slice r
    if r.slot.isSome then u.postFree (.redirect { r with again := false, moved := false } f) else u.toPeer r.fabric (.peerAnswer r.no (.redirect f))
  | .serve =>
    if (!r.again && (s.slice slice).retry.contains r.who) || s.storeFull r slice then
      let s1 := if r.again then s.dropAct act else (s.dropAct act).modSlice slice fun x => { x with retry := x.retry ++ [r.who] }
      if r.slot.isSome then s1.postFree (.retry r home slice) else s1.toPeer r.fabric (.peerAnswer r.no .retry)
    else if s.heapHeld r slice then s
    else ((s.unretry slice r).dropAct act).performGal r slice

/-- GALLERY_PUT_ARRIVAL. -/
def execGalleryPutArrival (act : Nat) (s : State) : Host.Outcome State Fault Refusal :=
  .next (match s.ready? act with
    | some (.gal r home slice) => if r.op.puts then s.arriveGal act r home slice else s
    | _ => s)

/-- GALLERY_MATCH_REQUEST: a READ or TAKE at its home, and the deliveries and answers that have waited. -/
def execGalleryMatchRequest (act : Nat) (s : State) : Host.Outcome State Fault Refusal :=
  .next (match s.ready? act with
    | some (.gal r home slice) => if r.op.gets then s.arriveGal act r home slice else s
    | some (.delivery r t slice got owes) => match r.slot with
      | none => (s.dropAct act).answerOwed slice owes
      | some id =>
        if s.heldFor r id t.len || s.classBusy slice (s.coreOfAny id) then s
        else match s.destWaits r id t.len with
          | some (some va) => s.stall (s.coreOfAny id) va .write
          | some none => s
          | none => ((s.dropAct act).deliverNow r id t slice got).answerOwed slice owes
    | some (.galAnswer r slice st) =>
      let id := r.slot.getD deadBase
      if !r.op.gets || s.classBusy slice (s.coreOfAny id) then s
      else if r.mode = .cont && r.ends then
        if s.sramBlocked r.part (BitVec.ofNat 64 r.mbox) 32 then s else (s.dropAct act).mailStatus r id slice st (homeLane slice)
      else (s.dropAct act).answerNow r id slice st (homeLane slice)
    | _ => s)

/-- GALLERY_CANCEL_ARRIVAL. -/
def execGalleryCancelArrival (act : Nat) (s : State) : Host.Outcome State Fault Refusal :=
  .next (match s.ready? act with
    | some (.gal r home slice) => if r.op = .cancel then s.arriveGal act r home slice else s
    | some (.galAnswer r slice st) =>
      if r.op = .cancel && !s.classBusy slice (s.coreOfAny (r.slot.getD deadBase)) then
        (s.dropAct act).answerNow r (r.slot.getD deadBase) slice st (homeLane slice)
      else s
    | _ => s)

/-- The answer of a home on another package. A continuation whose waiter is accepted stays until its delivery. -/
def State.peerAnswer (s : State) (act no : Nat) (x : Sent) (a : PeerAns) : State :=
  let gone := (s.dropAct act).modPkg fun g => { g with away := g.away.del no }
  let stays : Bool → State := fun w => (s.dropAct act).modPkg fun g =>
    { g with away := g.away.put no { x with accepted := true, waits := x.waits || w } }
  let id := x.req.slot.getD deadBase
  match a with
  | .accepted => stays false
  | .retry => gone.postFree (.retry x.req x.home 0)
  | .redirect f => gone.postFree (.redirect { x.req with again := false, moved := false } f)
  | .withdrawn n => gone.cancelDone x.req id n
  | .status st home =>
    if x.req.op.puts then gone.putAnswer id x.req.vd x.req.tag st home
    else if x.req.mode = .cont && x.waits then
      if s.sramBlocked x.req.part (BitVec.ofNat 64 x.req.mbox) 32 then s else gone.mailStatus x.req id 0 st home
    else (if st = stWAITING || st = stDISPATCHED then stays true else gone).answerNow x.req id 0 st home
  | .tuple t st home bs =>
    if s.heldFor x.req id t.len then s
    else match s.destWaits x.req id t.len with
      | some (some va) => s.stall (s.coreOfAny id) va .write
      | some none => s
      | none => gone.deliverTuple x.req id t 0 home bs st

/-- PUT_ANSWER: a put's answer, and every answer that comes from a home on another package. -/
def execPutAnswer (act : Nat) (s : State) : Host.Outcome State Fault Refusal :=
  .next (match s.ready? act with
    | some (.putAnswer id vd tag st home) => (s.dropAct act).putAnswer id vd tag st home.toNat
    | some (.peerAnswer no a) => match s.pkg.away.look no with
      | some x => s.peerAnswer act no x a
      | none => s.dropAct act
    | _ => s)

/-- An older answer of a home to a core has not arrived: a RETRY comes behind it (R327). -/
def State.answerAhead (s : State) (act home slice : Nat) (core : Option Nat) : Bool :=
  core.any fun c => s.acts.any fun b => decide (b.1 < act) && b.2.flows.contains (NetClass.gallery.no, homeUnit home slice, c)

/-- The same for a REDIRECT, which a home of this package or another one has sent. -/
def State.galleryAhead (s : State) (act : Nat) (core : Option Nat) : Bool :=
  core.any fun c => s.acts.any fun b => decide (b.1 < act) && b.2.flows.any fun f => f.1 == NetClass.gallery.no && f.2.2 == c

/-- An operation of the thread that its interface has issued again to the home has not been accepted: the next one waits
(R280). -/
def State.retrying (s : State) (r : GReq) (home slice : Nat) : Bool :=
  s.pkg.away.any (fun a => a.2.req.slot == r.slot && a.2.home == home && a.2.req.again && !a.2.accepted)
    || s.acts.any fun a => match a.2.kind with
      | .gal q hm sl => q.slot == r.slot && hm == home && sl == slice && q.again
      | _ => false

/-- RETRY_REISSUE: the thread's oldest retried operation at a home issues again, in the class, once the home has room and has
accepted the one before it (R280). -/
def execRetryReissue (act : Nat) (s : State) : Host.Outcome State Fault Refusal :=
  .next (match s.ready? act with
    | some (.retry r home slice) =>
      let older : Bool := s.acts.any fun a => a.1 != act && match a.2.kind with
        | .retry q hm sl => q.slot == r.slot && hm == home && sl == slice && decide (q.no < r.no)
        | _ => false
      if older || s.retrying r home slice || s.answerAhead act home slice (r.slot.map s.coreOfAny)
        || (home = Config.fabricId && s.storeFull r slice) then s
      else (s.dropAct act).sendGal { r with again := true } home slice
    | _ => s)

/-- REDIRECT_REISSUE: the oldest redirected operation of its thread goes to the new home, and REDIRECTS counts the answer; a
cancel that goes along with its operation had none (R274, R287). -/
def execRedirectReissue (act : Nat) (s : State) : Host.Outcome State Fault Refusal :=
  .next (match s.ready? act with
    | some (.redirect r f) =>
      let older : Bool := s.acts.any fun a => a.1 != act && match a.2.kind with
        | .redirect q _ => q.slot == r.slot && decide (q.no < r.no)
        | _ => false
      if older || s.galleryAhead act (r.slot.map s.coreOfAny) then s
      else
        let s0 := s.dropAct act
        let s1 := if r.moved then s0 else s0.modPkg fun g => { g with redirects := g.redirects + 1 }
        let slice := ((s.hall? r.hall).map fun h => s.homeSlice r.hall h r.tmpl).getD 0
        s1.sendGal { r with moved := true } f slice
    | _ => s)

/-- SOURCE_HOME_NOTICE: the source of a split frees the granules of a tuple taken at the destination (R288). -/
def execSourceHomeNotice (act : Nat) (s : State) : Host.Outcome State Fault Refusal :=
  .next (match s.ready? act with
    | some (.srcNotice hall slice first) =>
      (s.dropAct act).modSlice slice fun x =>
        { x with heap := x.heap.put hall ((x.heap.lookD hall []).filter fun g => g.1 != first) }
    | _ => s)

/-! ### PUT, PUTG, READ, TAKE (R297-R300) -/

/-- The answer of an operation that names no hall of the partition: at once, with the tag. -/
def State.noHall (s : State) (vd tag : Nat) : State :=
  let s1 := s.tagIssue s.cur tag
  let s2 := if 8 ≤ vd then s1.wV vd (setLanes (s1.rV vd) [(6, stNOHALL), (7, 0)]) else s1
  s2.tagDone s.cur tag true 0

/-- The pages of a PUTG region are of a stack or pool class (log 54, DEDUCED). -/
def State.putgPages (s : State) (addr : Addr) (va : Nat) : Nat → Option Res
  | 0 => none
  | n + 1 => match s.putgPages addr va n with
    | some r => some r
    | none =>
      let p := pageStart va n
      if (s.windowAt s.myPart p).isSome then some (.trap 6 (BitVec.ofNat 64 p))
      else match s.translate s.myCore s.myPart p .read with
        | .wait w => some (.park w)
        | .ok _ e => if e.cls = .host then some (.trap 4 addr) else none

def State.putOp (s : State) (i : Instr) (putg : Bool) (vd : BitVec 4) (a b : BitVec 5) : Host.Outcome State Fault Refusal :=
  s.perform [.v vd.toNat, .s a.toNat, .s b.toNat] fun t =>
    let key := t.rV vd.toNat
    let cw := t.rS b.toNat
    let len := vlane key 4
    let off := (t.rS a.toNat).toNat
    let tag := tagOfCw cw
    let addr := t.segAddr (segOfCw cw) off
    let full : Bool := decide (255 ≤ (t.me.tagOf tag).inflight)
    if keyBad key then .trap 11 (wordOf i)
    else match t.hallFor t.myPart (hallOf cw) with
    | none => if full then .park (.tagRoom tag) else .ok (t.noHall vd.toNat tag)
    | some h =>
      let check : Option Res :=
        if len = 0 then none
        else if !putg then
          match t.checkAccess (segOfCw cw) off len rgtR 1 [1] with
          | some (c, v) => some (.trap c v)
          | none =>
            if addrCore addr ≠ t.myCore then some (.trap 4 addr)
            else if addr.toNat % 64 ≠ 0 then some (.trap 5 addr)
            else none
        else match t.checkAccess (segOfCw cw) off len rgtR 1 [0] with
          | some (c, v) => some (.trap c v)
          | none => match t.putgPages addr (fieldOf addr 0 48) (regionPages (fieldOf addr 0 48) len) with
            | some r => some r
            | none => if addr.toNat % 256 ≠ 0 then some (.trap 5 addr) else none
      match check with
      | some r => r
      | none => match t.relWait with
        | some w => .park w
        | none =>
          if full then .park (.tagRoom tag)
          else
            let t0 := t.sendAll
            let r : GReq :=
              { op := if putg then .putg else .put, slot := some t.cur, fabric := Config.fabricId, no := t0.nextAct, part := t.myPart
                hall := hallOf cw, tmpl := key, vd := vd.toNat, tag := tag, addr := addr.toNat }
            let t1 := (t0.addUnack t.cur).tagIssue t.cur tag
            .ok ((if 8 ≤ vd.toNat then t1.emptyV vd.toNat else t1).sendGal r (h.homePackage key) (t.homeSlice (hallOf cw) h key))

def execPut (vd : BitVec 4) (a b : BitVec 5) (s : State) : Host.Outcome State Fault Refusal := s.putOp (.put vd a b) false vd a b
def execPutg (vd : BitVec 4) (a b : BitVec 5) (s : State) : Host.Outcome State Fault Refusal := s.putOp (.putg vd a b) true vd a b

/-- The check of a task-counter selector (R151). -/
def selCheck (sel : Word) : Option (Nat × Addr) :=
  if fieldOf sel 0 2 ≠ 0 then some (5, sel.zeroExtend 64)
  else if fieldOf sel 12 7 ≠ 0 || 0x1000 ≤ fieldOf sel 0 12 then some (3, sel.zeroExtend 64)
  else none

/-- The check of a continuation record's destination and mailbox (R299). -/
def State.contCheck (s : State) (seg : Nat) (bs : List Byte) (cap : Nat) (recA : Addr) : Option (Nat × Addr) :=
  let dest : Addr := BitVec.ofNat 64 (dwordAt bs 0)
  let mbox : Addr := BitVec.ofNat 64 (dwordAt bs 8)
  let g := s.seg seg
  if !spaceZeros dest.toNat || dest.toNat < g.base.toNat || g.base.toNat + g.limit.toNat < dest.toNat + cap then some (3, dest)
  else if !g.has rgtW || 2 ≤ spaceOf dest || s.guardedHere dest cap then some (4, dest)
  else if dest.toNat % 64 ≠ 0 then some (5, dest)
  else if !spaceZeros mbox.toNat then some (3, mbox)
  else if spaceOf mbox ≠ 1 || s.guardedHere mbox 32 then some (4, mbox)
  else if mbox.toNat % 32 ≠ 0 then some (5, mbox)
  else match selCheck (BitVec.ofNat 32 (wordAt bs 16)) with
    | some x => some x
    | none => if (bs.drop 20).any (fun b => b != 0) then some (4, recA) else none

def gmodeOf (m : BitVec 3) : GMode := if m = 0 then .poll else if m = 1 then .wait else .cont

def State.getOp (s : State) (i : Instr) (take : Bool) (mode : BitVec 3) (vd : BitVec 4) (a b : BitVec 5) :
    Host.Outcome State Fault Refusal :=
  s.perform [.v vd.toNat, .s a.toNat, .s b.toNat] fun t =>
    let tpl := t.rV vd.toNat
    let cw := t.rS b.toNat
    let cap := vlane tpl 4
    let off := (t.rS a.toNat).toNat
    let tag := tagOfCw cw
    if tplBad tpl then .trap 11 (wordOf i)
    else match t.hallFor t.myPart (hallOf cw) with
    | none => if 255 ≤ (t.me.tagOf tag).inflight then .park (.tagRoom tag) else .ok (t.noHall vd.toNat tag)
    | some h =>
      if !homeExact h.homef tpl then .trap 11 (wordOf i)
      else
        let m := gmodeOf mode
        let place : Checked (Nat × Nat × Word) :=
          if m = .cont then match t.readRecord off 32 with
            | .stop r => .stop r
            | .ok bs => match t.contCheck (segOfCw cw) bs cap (t.segAddr 0 off) with
              | some (c, v) => .stop (.trap c v)
              | none => .ok (dwordAt bs 0, dwordAt bs 8, BitVec.ofNat 32 (wordAt bs 16))
          else match t.checkAccess (segOfCw cw) off cap rgtW 64 [0, 1] with
            | some (c, v) => .stop (.trap c v)
            | none => .ok ((t.segAddr (segOfCw cw) off).toNat, 0, 0)
        match place with
        | .stop r => r
        | .ok (dest, mbox, ctr) =>
          match t.windowHit t.myPart (BitVec.ofNat 64 dest) cap with
          | some p => .trap 6 (BitVec.ofNat 64 p)
          | none =>
          if 255 ≤ (t.me.tagOf tag).inflight then .park (.tagRoom tag)
          else
            let r : GReq :=
              { op := if take then .take else .read, slot := some t.cur, fabric := Config.fabricId, no := t.nextAct, part := t.myPart
                hall := hallOf cw, tmpl := tpl, vd := vd.toNat, tag := tag, mode := m, addr := dest, mbox := mbox, ctr := ctr }
            .ok (((t.tagIssue t.cur tag).emptyV vd.toNat).sendGal r (h.homePackage tpl) (t.homeSlice (hallOf cw) h tpl))

def execRead (mode : BitVec 3) (vd : BitVec 4) (a b : BitVec 5) (s : State) : Host.Outcome State Fault Refusal := s.getOp (.read mode vd a b) false mode vd a b
def execTake (mode : BitVec 3) (vd : BitVec 4) (a b : BitVec 5) (s : State) : Host.Outcome State Fault Refusal := s.getOp (.take mode vd a b) true mode vd a b

/-! ### TCANCEL (R302) -/

/-- An operation of a thread whose outcome is outstanding, with its home: a waiter at a slice of this package or on its way
there, one answered RETRY or REDIRECT, one at another package, or one whose delivery has not been written. -/
def State.outstanding (s : State) (id : Nat) (p : GReq → Bool) : List (GReq × Nat × Nat) :=
  let mine : GReq → Bool := fun r => r.slot == some id && r.op.gets && r.mode != .poll && p r
  let held := ((List.range 16).map fun n => ((s.slice n).waiters.filter mine).map fun r => (r, Config.fabricId, n)).flatten
  let going := s.acts.filterMap fun a => match a.2.kind with
    | .gal r home n => if mine r then some (r, home, n) else none
    | .retry r home n => if mine r then some (r, home, n) else none
    | .delivery r _ n _ _ => if mine r then some (r, Config.fabricId, n) else none
    | .redirect r f => if mine r then some (r, f, 16) else none
    | _ => none
  held ++ going ++ (s.pkg.away.filter fun a => mine a.2.req).map fun a => (a.2.req, a.2.home, 0)

/-- Sends a cancel to each home of the operations: one for each range key of a hall whose range can move. An operation that
is to be redirected takes its cancel along. -/
def State.sendCancels (s : State) (ends : Bool) (w : List (GReq × Nat × Nat)) : State :=
  let key : GReq × Nat × Nat → Nat × Nat × Nat × Nat := fun x =>
    (x.2.1, x.2.2, x.1.hall, match s.hall? x.1.hall with
      | some h => if h.sys then rangeKey h.homef x.1.tmpl else 0
      | none => 0)
  ((w.map key).dedup).foldl (fun u k =>
    match w.filter fun x => key x == k with
    | [] => u
    | x :: xs =>
      let r : GReq :=
        { x.1 with op := .cancel, no := u.nextAct, nos := (x :: xs).map (fun y => y.1.no), ends := ends, mode := .poll, again := false, moved := false }
      if x.2.2 = 16 then u.postFree (.redirect { r with moved := true } x.2.1) else u.sendGal r x.2.1 x.2.2) s

/-- A cancel of the thread is on its way. -/
def State.cancelling (s : State) (id : Nat) : Bool :=
  let mine : GReq → Bool := fun r => r.op == .cancel && r.slot == some id
  s.pkg.away.any (fun a => mine a.2.req) || s.acts.any fun a => match a.2.kind with
    | .gal r _ _ => mine r
    | .galAnswer r _ _ => mine r
    | .retry r _ _ => mine r
    | .redirect r _ => mine r
    | _ => false

def execTcancel (d b : BitVec 5) (s : State) : Host.Outcome State Fault Refusal :=
  s.perform [.s b.toNat, .d d.toNat] fun t =>
    match t.me.ans with
    | some ws => .ok ((t.modMe fun x => { x with ans := none, withdrawn := 0 }).wS d.toNat (ws.headD 0))
    | none =>
      let cw := t.rS b.toNat
      let w := t.outstanding t.cur fun r => r.hall == hallOf cw && r.tag == tagOfCw cw
      if w.isEmpty then .ok (t.wS d.toNat 0) else .stay (t.sendCancels false w) .answer

/-! ### Supervisor instructions (R303-R306) -/

/-- The range table of a descriptor, read through the partition's translation as a load of the thread reads it: entries, or how
HALLDEF ends. A page that is refused gives none. -/
def State.readRange (rtab : Nat) : Nat → State → Checked (State × Option (List (Nat × Nat)))
  | 0, s => .ok (s, some [])
  | n + 1, s => match State.readRange rtab n s with
    | .stop r => .stop r
    | .ok (s0, none) => .ok (s0, none)
    | .ok (s0, some l) =>
      let va := rtab + 8 * n
      match s0.remapRead s0.myPart va with
      | none => .ok (s0, some (l ++ [(0, 0)]))
      | some pva => match s0.readPort s0.myCore s0.myPart pva 8 with
        | (.ok u p, bs) => if u.locFenced p then .stop (.trap 7 (BitVec.ofNat 64 va)) else .ok (u, some (l ++ [(wordAt bs 0, wordAt bs 4)]))
        | (.absent _, _) => .stop (.park (.page (storeyOf s.myCore) (pva / 65536) .read pva))
        | (.refused u, _) => .ok (u, none)

/-- A descriptor that breaks a rule of R265. -/
def hallDescBad (bs : List Byte) : Bool :=
  let scope := wordAt bs 0 / 2 ^ 16 % 256
  let homef := wordAt bs 0 / 2 ^ 24
  let n := wordAt bs 20 % 2 ^ 16
  decide (1 < scope) || homef == 0 || decide (16 ≤ homef) || (scope == 0 && wordAt bs 4 != 0)
    || dwordAt bs 8 % 65536 != 0 || decide (2 ^ 48 ≤ dwordAt bs 8) || decide (4096 < wordAt bs 16)
    || (scope == 1 && (n == 0 || decide (1024 < n))) || (scope == 0 && n != 0) || wordAt bs 20 / 2 ^ 16 != 0
    || (n != 0 && (dwordAt bs 24 % 64 != 0 || decide (2 ^ 48 ≤ dwordAt bs 24)))

def splitBusy (h : Hall) : Bool := match h.split with
  | some sp => sp.phase != .done
  | none => false

/-- A hall that holds tuples or waiters on any package, has a split in progress, or is declared by a live task (R266, R303).
The packages asked are those of the group of its definition here and of the group `asked` of a descriptor. -/
def State.hallBusy (s : State) (n : Nat) (asked : Option Nat) : Bool :=
  ((List.range 16).any fun k => (s.slice k).tuples.any (fun t => t.hall == n) || (s.slice k).waiters.any fun r => r.hall == n)
    || (s.hall? n).any splitBusy
    || (s.peers.any fun p => ((s.hall? n).any (fun h => h.sys && p.groups.contains h.group) || asked.any p.groups.contains)
      && (p.busy.contains n || p.splitting.contains n))
    || s.pkg.tasks.any fun t => t.2.hdr.halls.contains n

/-- LO values ascend strictly from 0 (R271). -/
def rangeOk : List (Nat × Nat) → Bool
  | [] => false
  | e :: r => e.1 == 0 && ((e :: r).zip r).all fun p => decide (p.1.1 < p.2.1)

/-- The group's current directory of a hall: that of the package which owns range key 0 (R272), when another package of
the group has defined the hall. -/
def State.groupDir (s : State) (n group : Nat) : Option (List (Nat × Nat)) :=
  let known := (s.peers.filter fun p => p.groups.contains group).filterMap fun p =>
    (p.table.find? fun e => e.1 == n).map fun e => (p.fabric, e.2)
  match known.head? with
  | none => none
  | some x => match (dirEntry x.2 0).map Prod.snd with
    | none => some x.2
    | some owner =>
      if owner = Config.fabricId then (match s.hall? n with
        | some h => if h.sys then some h.dir else some x.2
        | none => some x.2)
      else some (((known.find? fun y => y.1 == owner).map Prod.snd).getD x.2)

/-- HALLDEF with b = 0: the code that d receives. -/
def State.hallDefine (s : State) (off : Nat) : Checked (State × Nat) :=
  match s.readRecord off 32 with
  | .stop r => .stop r
  | .ok bs =>
    let n := wordAt bs 0 % 2 ^ 16
    let sys : Bool := wordAt bs 0 / 2 ^ 16 % 256 == 1
    if hallDescBad bs then .ok (s, 1)
    else match (if sys then State.readRange (dwordAt bs 24) (wordAt bs 20 % 2 ^ 16) s else .ok (s, some [])) with
    | .stop r => .stop r
    | .ok (s, none) => .ok (s, 1)
    | .ok (s, some dir) =>
      let other : Bool := (s.groupDir n (wordAt bs 4)).any fun d => d != dir
      if sys && !rangeOk dir then .ok (s, 1)
      else if hallReserved n then .ok (s, 2)
      else if (s.hall? n).any fun h => h.part != s.myPart then .ok (s, 4)
      else if s.hallBusy n (if sys then some (wordAt bs 4) else none) then .ok (s, 3)
      else if sys && other then .ok (s, 6)
      else .ok (s.putHall n
        { part := s.myPart, sys := sys, homef := BitVec.ofNat 4 (wordAt bs 0 / 2 ^ 24), group := wordAt bs 4
          heapBase := dwordAt bs 8, heapSize := wordAt bs 16, dir := dir
          split := ((s.hall? n).bind Hall.split).map fun sp => { sp with ended := true }, past := [] }, 0)

/-- HALLDEF with b = 1: the definition goes and its heap parts are freed. -/
def State.hallRetire (s : State) (n : Nat) : State × Nat :=
  if hallReserved n then (s, 2)
  else match s.hall? n with
  | none => (s, 5)
  | some h =>
    if h.part ≠ s.myPart then (s, 4)
    else if s.hallBusy n none then (s, 3)
    else
      let s1 := s.modPkg fun g => { g with halls := g.halls.del n }
      ((List.range 16).foldl (fun s k => s.modSlice k fun x => { x with heap := x.heap.del n }) s1, 0)

/-- The whole HALLDEF word: the operation is in register b. -/
def State.halldef (s : State) (i : Instr) (d a b : BitVec 5) : Host.Outcome State Fault Refusal :=
  s.performPriv i [.s a.toNat, .s b.toNat, .d d.toNat] fun t =>
    match t.relWait with
    | some _ => .park .sketchZero
    | none =>
      if t.rS b.toNat = 0 then match t.sendAll.hallDefine (t.rS a.toNat).toNat with
        | .stop r => r
        | .ok (u, c) => .ok (u.wS d.toNat (BitVec.ofNat 32 c))
      else if t.rS b.toNat = 1 then
        let r := t.sendAll.hallRetire (fieldOf (t.rS a.toNat) 0 16)
        .ok (r.1.wS d.toNat (BitVec.ofNat 32 r.2))
      else .ok (t.sendAll.wS d.toNat 1)

def execHalldefDefine (d a b : BitVec 5) (s : State) : Host.Outcome State Fault Refusal := s.halldef (.halldefDefine d a b) d a b
def execHalldefRetire (d a b : BitVec 5) (s : State) : Host.Outcome State Fault Refusal := s.halldef (.halldefRetire d a b) d a b

/-- HALLQ's value (R304). -/
def State.hallQuery (s : State) (n idx sel : Nat) : Nat :=
  match s.hallFor s.myPart n with
  | none => 0
  | some h =>
    let count : (Slice → Nat) → Nat := fun f => (List.range 16).foldl (fun acc k => acc + f (s.slice k)) 0
    match sel with
    | 0 => 1 + (if h.sys then 2 else 0) + h.homef.toNat * 16
    | 1 => min (count fun x => x.tuples.countP fun t => t.hall == n) 0xFFFFFFFF
    | 2 => count fun x => x.waiters.countP fun r => r.hall == n
    | 3 => ((List.range 16).map fun k =>
        h.heapSize * 256 - ((s.slice k).heap.lookD n []).foldl (fun acc u => acc + u.2) 0).foldl max 0
    | 4 => h.dir.length
    | 5 => ((h.dir[idx]?).map Prod.fst).getD 0
    | 6 => ((h.dir[idx]?).map Prod.snd).getD 0
    | _ => 0

def execHallq (d a b : BitVec 5) (s : State) : Host.Outcome State Fault Refusal :=
  s.performPriv (.hallq d a b) [.s a.toNat, .s b.toNat, .d d.toNat] fun t =>
    .ok (t.wS d.toNat (BitVec.ofNat 32 (t.hallQuery (fieldOf (t.rS a.toNat) 0 16) (fieldOf (t.rS a.toNat) 16 16) (t.rS b.toNat).toNat)))

/-- The end of the range that starts at an entry. -/
def rangeHi (dir : List (Nat × Nat)) (lo : Nat) : Nat :=
  match dir.find? fun e => lo < e.1 with
  | some e => e.1 - 1
  | none => 0xFFFFFFFF

/-- A package of the hall's group other than the destination takes part in a split of the hall, and the destination does
not: the hall has a split in progress (R290). -/
def State.otherSplit (s : State) (h : Hall) (n dest : Nat) : Bool :=
  let ps := s.peers.filter fun p => p.groups.contains h.group && p.splitting.contains n
  !ps.isEmpty && !(ps.any fun p => p.fabric == dest)

/-- A range without the part of it that lies in [m, hi]. -/
def cutRange (m hi : Nat) (x : Nat × Nat × Nat) : List (Nat × Nat × Nat) :=
  if x.2.1 < m || hi < x.1 then [x]
  else (if x.1 < m then [(x.1, m - 1, x.2.2)] else []) ++ (if hi < x.2.1 then [(hi + 1, x.2.1, x.2.2)] else [])

/-- The ranges that a hall answers REDIRECT once a split of [m, hi] takes the place of its latest one. -/
def Hall.pastWith (h : Hall) (m hi : Nat) : List (Nat × Nat × Nat) :=
  let last := match h.split with
    | some sp => if sp.isSrc && !sp.ended then [(sp.m, sp.hi, sp.dest)] else []
    | none => []
  ((last ++ h.past).map (cutRange m hi)).flatten

/-- COPY begins: the destination enters the split and receives the entries and waiters of the range, oldest first (R287). -/
def State.copyRange (s : State) (n : Nat) (h : Hall) (sp : Split) : State :=
  let puts := ((List.range 16).map fun k =>
    ((s.slice k).tuples.filter fun t => t.hall == n && sp.covers h.homef (tupleKey t)).map fun t => ActKind.mirrorPut n (s.movedTuple k t)).flatten
  let waits := ((List.range 16).map fun k =>
    ((s.slice k).waiters.filter fun r => r.hall == n && sp.covers h.homef r.tmpl).map fun r => ActKind.mirrorWait n r.abroad).flatten
  let all := puts ++ waits
  { (s.putHall n { h with split := some { sp with changes := all.length }, past := h.pastWith sp.m sp.hi }) with
    out := s.out ++ (ActKind.splitMsg n .copy sp.m sp.hi sp.source :: all).map (OutMsg.peer sp.dest) }

/-- SPLIT's answer, and the hall with the split entered (R305). -/
def State.splitStart (s : State) (bs : List Byte) : State × Nat :=
  let n := wordAt bs 0 % 2 ^ 16
  let m := wordAt bs 4
  let dest := wordAt bs 8
  match s.hallFor s.myPart n with
  | none => (s, 1)
  | some h =>
    if wordAt bs 0 / 2 ^ 16 ≠ 0 || wordAt bs 12 ≠ 0 then (s, 1)
    else if !h.sys || splitBusy h || s.otherSplit h n dest then (s, 2)
    else
      let e := (dirEntry h.dir m).getD (0, 0)
      if 1024 ≤ h.dir.length && m ≠ e.1 then (s, 3)
      else if e.2 ≠ Config.fabricId then (s, 4)
      else match s.peers.find? fun p => p.fabric == dest && p.groups.contains h.group with
        | none => (s, 5)
        | some p =>
          if dest = Config.fabricId then (s, 5)
          else if !(p.halls.contains (n, h.homef)) || p.splitting.contains n then (s, 6)
          else
            let sp : Split :=
              { m := m, hi := rangeHi h.dir m, dest := dest, source := Config.fabricId, isSrc := true, isDst := false, phase := .copy }
            (s.copyRange n h sp, 0)

def execSplit (d a : BitVec 5) (s : State) : Host.Outcome State Fault Refusal :=
  s.performPriv (.split d a) [.s a.toNat, .d d.toNat] fun t =>
    match t.readRecord (t.rS a.toNat).toNat 16 with
    | .stop r => r
    | .ok bs =>
      let r := t.splitStart bs
      .ok (r.1.wS d.toNat (BitVec.ofNat 32 r.2))

def Phase.code : Phase → Nat
  | .copy => 1
  | .flip => 2
  | .drain => 3
  | .done => 4

def execSplst (d a : BitVec 5) (s : State) : Host.Outcome State Fault Refusal :=
  s.performPriv (.splst d a) [.s a.toNat, .d d.toNat] fun t =>
    let v := match (t.hallFor t.myPart (fieldOf (t.rS a.toNat) 0 16)).bind Hall.split with
      | some sp => sp.phase.code + (if sp.isSrc then 8 else 0) + (if sp.isDst then 16 else 0)
      | none => 0
    .ok (t.wS d.toNat (BitVec.ofNat 32 v))

/-! ### Events of a split (R287-R289) -/

def State.modSplit (s : State) (hall : Nat) (f : Split → Split) : State :=
  match s.hall? hall with
  | some h => match h.split with
    | some sp => s.putHall hall { h with split := some (f sp) }
    | none => s
  | none => s

/-- The destination tells the source that it has applied a change, or none so far (R287). -/
def State.applied (s : State) (hall : Nat) (one : Nat) : State :=
  match (s.hall? hall).bind Hall.split with
  | some sp =>
    let s1 := s.modSplit hall fun x => { x with changes := x.changes + one }
    { s1 with out := s1.out ++ [.peer sp.source (.splitAck hall (sp.changes + one))] }
  | none => s

/-- MIRRORED_CHANGE: this package becomes the destination of a split, or applies an entry, a waiter or a removal of the
source, in order. -/
def execMirroredChange (act : Nat) (s : State) : Host.Outcome State Fault Refusal :=
  .next (match s.ready? act with
    | some (.splitMsg hall .copy m hi source) => match s.hall? hall with
      | none => s.dropAct act
      | some h => ((s.dropAct act).putHall hall
          { h with
            split := some { m := m, hi := hi, dest := Config.fabricId, source := source, isSrc := false, isDst := true, phase := .copy }
            past := h.pastWith m hi }).applied hall 0
    | some (.mirrorPut hall t) => match s.hall? hall with
      | none => s.dropAct act
      | some h => ((s.dropAct act).modSlice (s.homeSlice hall h (tupleKey t)) fun x =>
          { x with tuples := x.tuples ++ [{ t with seq := x.seq }], seq := x.seq + 1 }).applied hall 1
    | some (.mirrorWait hall w) => match s.hall? hall with
      | none => s.dropAct act
      | some h => ((s.dropAct act).modSlice (s.homeSlice hall h w.tmpl) fun x => { x with waiters := x.waiters ++ [w] }).applied hall 1
    | some (.mirrorDel hall slice seq) =>
      { s.dropAct act with slices := s.slices.mapVals fun _ x =>
          { x with tuples := x.tuples.filter fun t => !(t.hall == hall && t.src == some (slice, seq)) } }.applied hall 1
    | some (.mirrorGone hall fabric no) =>
      { s.dropAct act with slices := s.slices.mapVals fun _ x =>
          { x with waiters := x.waiters.filter fun w => !(w.hall == hall && w.slot.isNone && w.fabric == fabric && w.no == no) } }.applied hall 1
    | _ => s)

/-- The directory with the moving range's entry divided at M or its owner changed (R272). -/
def moveEntry (dir : List (Nat × Nat)) (m dest : Nat) : List (Nat × Nat) :=
  if dir.any fun e => e.1 == m then dir.map fun e => if e.1 = m then (m, dest) else e
  else (dir.filter fun e => e.1 < m) ++ [(m, dest)] ++ (dir.filter fun e => m < e.1)

/-- Changes of a hall from the source of its split that this package has not applied. -/
def State.mirroring (s : State) (hall : Nat) : Bool := s.acts.any fun a => match a.2.kind with
  | .mirrorPut n _ => n == hall
  | .mirrorWait n _ => n == hall
  | .mirrorDel n _ _ => n == hall
  | .mirrorGone n _ _ => n == hall
  | .splitMsg n .copy _ _ _ => n == hall
  | _ => false

/-- What the source of a split has told this package about a phase. -/
def State.splitMark (s : State) (hall : Nat) (phase : Phase) : Option Nat :=
  (s.acts.find? fun a => (match a.2.kind with
    | .splitMsg n p _ _ _ => n == hall && p == phase
    | _ => false) && (s.ready? a.1).isSome).map Prod.fst

/-- The moving range leaves the source: the destination owns its entries and waiters from here on (R287-R288). A waiter of
this package's own threads stands in its list of operations away. -/
def State.leaveRange (s : State) (hall : Nat) (h : Hall) (sp : Split) : State :=
  let gone : GReq → Bool := fun r => r.hall == hall && sp.covers h.homef r.tmpl
  let mine := (s.slices.map fun x => x.2.waiters.filter fun r => gone r && r.slot.isSome).flatten
  let s1 := mine.foldl (fun u r => u.modPkg fun g => { g with away := g.away.put r.no { req := r, home := sp.dest, accepted := true, waits := r.mode == .cont } }) s
  { s1 with slices := s1.slices.mapVals fun _ x =>
      { x with
        tuples := x.tuples.filter fun t => !(t.hall == hall && sp.covers h.homef (tupleKey t))
        waiters := x.waiters.filter fun r => !gone r } }

/-- The destination has told the source that it has applied so many changes of a hall. -/
def State.ackedChanges (s : State) (hall n : Nat) : Bool := s.acts.any fun a => (match a.2.kind with
  | .splitAck k m => k == hall && m == n
  | _ => false) && (s.ready? a.1).isSome

/-- What the destination has told the source about its changes is used up. -/
def State.dropAcks (s : State) (hall : Nat) : State :=
  { s with acts := s.acts.filter fun a => match a.2.kind with
      | .splitAck k _ => k != hall
      | _ => true }

/-- SPLIT_FLIP: COPY ends once the destination has applied every change, as the source hears; the new entry is broadcast. -/
def execSplitFlip (hall : Nat) (s : State) : Host.Outcome State Fault Refusal :=
  .next (match s.hall? hall with
    | some h => match h.split with
      | some sp =>
        if sp.phase ≠ .copy then s
        else
          let h1 := { h with dir := moveEntry h.dir sp.m sp.dest, split := some { sp with phase := .flip }, moving := some (sp.m, sp.hi, sp.source) }
          if sp.isSrc && !s.ackedChanges hall sp.changes then s
          else if sp.isSrc then
            let others := (s.peers.filter fun p => p.groups.contains h.group).map Peer.fabric
            let s1 := ((s.leaveRange hall h sp).putHall hall h1).dropAcks hall
            { s1 with out := s1.out ++ .peer sp.dest (.splitMsg hall .flip sp.m sp.hi sp.source)
                :: others.map fun f => .peer f (.rangeEntry hall sp.m sp.hi sp.dest sp.source) }
          else match s.splitMark hall .flip with
          | some a => if s.mirroring hall then s else (s.dropAct a).putHall hall h1
          | none => s
      | none => s
    | none => s)

/-- RANGE_ENTRY_ACK: a package has received the new entry. This package's interfaces hold new operations on the range back,
and it tells the source; the source counts the acknowledgement of another one. -/
def execRangeEntryAck (hall fabric : Nat) (s : State) : Host.Outcome State Fault Refusal :=
  .next (if fabric = Config.fabricId then
      match s.acts.find? fun a => (match a.2.kind with
        | .rangeEntry n _ _ _ _ => n == hall
        | _ => false) && (s.ready? a.1).isSome with
      | some (act, { kind := .rangeEntry _ m hi dest source, flows := _ }) =>
        let s1 := s.dropAct act
        let s2 := match s1.hall? hall with
          | some h => s1.putHall hall { h with dir := moveEntry h.dir m dest, moving := some (m, hi, source) }
          | none => s1
        { s2 with out := s2.out ++ [.rangeAck source hall] }
      | _ => s
    else s.modSplit hall fun sp => if sp.phase = .flip then { sp with acks := insertNat fabric sp.acks } else sp)

/-- SPLIT_DRAIN: every package of the group has acknowledged; the source forwards what it held, and then an end marker. -/
def execSplitDrain (hall : Nat) (s : State) : Host.Outcome State Fault Refusal :=
  .next (match s.hall? hall with
    | some h => match h.split with
      | some sp =>
        let need := (s.peers.filter fun p => p.groups.contains h.group).map Peer.fabric
        let drained := { h with split := some { sp with phase := .drain, held := [] } }
        if sp.phase ≠ .flip then s
        else if sp.isSrc then
          let waits : Bool := sp.held.any fun id => match s.acts.look id with
            | some { kind := .gal r _ _, flows := _ } => s.sourceBlocked r
            | _ => false
          if need.all (fun f => sp.acks.contains f) && !waits then
            let tell : Phase → State → State := fun p u => { u with out := u.out ++ [.peer sp.dest (.splitMsg hall p sp.m sp.hi sp.source)] }
            let s1 := sp.held.foldl (fun s id => match s.acts.look id with
              | some { kind := .gal r _ _, flows := _ } => (s.dropAct id).sendAway r sp.dest true
              | _ => s) (tell .drain (s.putHall hall drained))
            tell .done s1
          else s
        else match s.splitMark hall .drain with
        | some a => (s.dropAct a).putHall hall drained
        | none => s
      | none => s
    | none => s)

/-- SPLIT_DONE: the source has answered what was sent to it before the acknowledgements, or the destination has served what
was forwarded and then the end marker. -/
def execSplitDone (hall : Nat) (s : State) : Host.Outcome State Fault Refusal :=
  .next (match s.hall? hall with
    | some h => match h.split with
      | some sp =>
        let late : Bool := s.acts.any fun a => match a.2.kind with
          | .gal r home _ => home == Config.fabricId && r.hall == hall && sp.covers h.homef r.tmpl && (sp.isSrc || r.fwd)
          | _ => false
        let done : State → State := fun u => u.modSplit hall fun x => { x with phase := .done, held := [] }
        if sp.phase ≠ .drain || late then s
        else if sp.isSrc then done s
        else match s.splitMark hall .done with
        | some a => done (s.dropAct a)
        | none => s
      | none => s
    | none => s)

end Sys2Proof.Machine
end

