-- ==== Sys2Proof/Machine/Sketch.lean ====
section
/-!
DEFINITION. Sketch: count sketches (R313-R325): slots, hashing, and the sketch instructions.
-/

namespace Sys2Proof.Machine

open Sys2Proof

/-! ### Hashing and values (R315, R317, R320) -/

/-- The multiplier of a row. -/
def skMul (j : Nat) : Nat :=
  [0xB5A31C6F, 0x7C19E4D3, 0xD26B8F15, 0x4E97A33B, 0xA1F56C27, 0x63D80B99, 0xF04CD7A1].getD j 0

/-- The bucket of an index in a row, and whether its sign is negative. -/
def Sketch.hash (k : Sketch) (j : Nat) (i : Word) : Nat × Bool :=
  let p := (i ^^^ k.salt).toNat * skMul j % 2 ^ 32
  (p / 2 ^ (32 - k.log2w), p / 2 ^ (31 - k.log2w) % 2 == 1)

/-- The address of a counter. -/
def Sketch.counter (k : Sketch) (j b : Nat) : Nat := k.base + 4 * (j * 2 ^ k.log2w + b)

def Sketch.count (k : Sketch) : Nat := k.depth * 2 ^ k.log2w

def satInt32 (v : Int) : Int := max (-2 ^ 31) (min v (2 ^ 31 - 1))

/-- The fixed-point image of a value, with whether it clamped; none for a NaN. -/
def Sketch.fixed (k : Sketch) (bits : Nat) : Option (Int × Bool) :=
  match f32.val bits with
  | .nan => none
  | .inf neg => some (if neg then -2 ^ 31 else 2 ^ 31 - 1, true)
  | .fin neg m e =>
    let q := (roundAt m (e - k.scale) false 0 false).1
    let v : Int := if neg then -(q : Int) else q
    some (satInt32 v, satInt32 v != v)

/-! ### Counters as the slice engines reach them (R324) -/

inductive SkPlace where
  | at (s : State) (l : Loc)
  | absent
  | refused (s : State) (cause : Nat)

/-- A counter or status word through a storey's translation: its page must be stack-class, readable and writable. A page
with an entry in the miss-pending table waits for it. -/
def State.skPlace (s : State) (st part va : Nat) (write : Bool) : SkPlace :=
  if (s.pendingPage st (va / 65536)).isSome then .absent
  else match s.walk st part va with
  | .absent => .absent
  | .malformed => .refused (s.walkTouch st part va) 6
  | .leaf pte e block =>
    let s1 := s.walkTouch st part va
    if pteClass e ≠ .stack || !s.pteAllows part e .atomic then .refused s1 6
    else
      let l := Loc.phys .stack ((tlbOf part (va / 65536) e block).phys va) (fld e 52 12)
      if s.locFenced l then .refused s1 7 else .at (s1.touchPte st part pte e write) l

/-- The stall of a slice engine at a word: a page that is not present is pushed to the fault buffer. -/
def State.skStall (s : State) (core part va : Nat) : State :=
  match s.skPlace (storeyOf core) part va true with
  | .absent => s.pageFaulted (storeyOf core) (va / 65536) .atomic (flightOf core)
  | _ => s

/-- One access of a slice engine: done, stalled at a page that is not present or at a page that migrates (R185), or failed
with a cause (R324). -/
inductive SkRes where
  | ok (s : State) (v : Word)
  | absent
  | refused (s : State) (cause : Nat)

/-- One atomic access to a counter or status word: its value before. The word's line leaves the issuing core's cache. -/
def State.skAccess (s : State) (core part va : Nat) (f : Option (Word → Word)) : SkRes :=
  match s.skPlace (storeyOf core) part va f.isSome with
  | .absent => .absent
  | .refused s1 c => .refused s1 c
  | .at s1 l =>
    if f.isSome && s.migrationHolds l then .absent
    else
    let v := s1.wordAtLoc part l
    let s2 := match l with
      | .phys cls pa _ => s1.dropPhys core cls (pa / 256)
      | _ => s1
    match f with
    | none => .ok (s2.reachEng (storeyOf core) part 0 l) v
    | some g => .ok ((s2.countAt (storeyOf core) part l).writeLoc part 0 l (leBytes 4 (g v).toNat)) v

/-- A counter after an exact addition, clamped. -/
def skSum (x : Word) (n : Int) : Word := BitVec.ofInt 32 (satInt32 (x.toInt + n))
def skClamps (x : Word) (n : Int) : Bool := satInt32 (x.toInt + n) != x.toInt + n

/-! ### The updates of an SKUPD (R320) -/

/-- The counter updates of 16 indices and values, in ascending lane order, and whether a conversion clamped. -/
def Sketch.updates (k : Sketch) (idx val : VWord) : List (Nat × Int) × Bool :=
  (List.range 16).foldl (fun acc m =>
    match k.fixed (vlane val m) with
    | none => acc
    | some (n, c) =>
      if n = 0 then (acc.1, acc.2 || c)
      else (acc.1 ++ (List.range k.depth).map (fun j =>
          let h := k.hash j (BitVec.ofNat 32 (vlane idx m))
          (k.counter j h.1, if h.2 then -n else n)), acc.2 || c)) ([], false)

/-- The counters that an SKUPD still has to change. -/
def SkOp.pending : SkOp → List Nat
  | .upd _ todo => todo.map Prod.fst
  | _ => []

/-- Where a counter of a core's thread lies. -/
def State.counterLoc (s : State) (core va : Nat) : Option Loc :=
  match s.walk (storeyOf core) ((s.partOf core).getD 16) va with
  | .leaf _ e block => some (.phys (pteClass e) ((tlbOf 0 (va / 65536) e block).phys va) (fld e 52 12))
  | _ => none

/-- An older store of the thread to a counter, or an older sketch operation's access to it, has not been performed (R218,
R228). -/
def State.counterBehind (s : State) (act id va : Nat) : Bool :=
  let at_ : List Put → Bool := fun ps => (s.counterLoc (s.coreOfAny id) va).any fun c => ps.any fun p => locCovers p.loc p.bytes.length c
  s.acts.any fun a => decide (a.1 < act) && match a.2.kind with
    | .store i _ _ ps => i == id && at_ ps
    | .bounced (.store i _ _ ps) => i == id && at_ ps
    | .sketch i _ op _ _ => i == id && op.pending.contains va
    | _ => false

/-- The cause that an operation keeps: that of its first failed access. -/
def firstCause (old new : Nat) : Nat := if old = 0 then new else old

def insertInt (x : Int) : List Int → List Int
  | [] => [x]
  | y :: r => if x ≤ y then x :: y :: r else y :: insertInt x r

/-- The median of an odd number of values. -/
def median (l : List Int) : Int := (l.foldl (fun acc x => insertInt x acc) []).getD (l.length / 2) 0

/-- Lane `m` of an SKQRY's result: the estimate, or a NaN when a counter read was refused or fenced (R321). -/
def Sketch.estimate (k : Sketch) (got : List (Option Int)) (m : Nat) : Nat :=
  let es := (got.drop (m * k.depth)).take k.depth
  if es.all Option.isSome then (f32.ofDy ⟨median (es.map fun e => e.getD 0), k.scale⟩ false).1 else 0x7FC00000

/-- The next counter update of an SKUPD, chosen among those that may come next. The lane order of one counter is kept; the
choice among counters is free (log 9, DESIGN CHOICE). -/
def State.skUpdPick (s : State) (todo : List (Nat × Int)) : Nat × Int :=
  let x := todo.getD ((s.draw todo.length).1) (0, 0)
  (todo.find? fun y => y.1 == x.1).getD x

/-- The status OR that ends an operation: SKSAT and SKERR as its accesses met them (R316). -/
def skBits (sat : Bool) (cause : Nat) : Word := (if sat then 1 else 0) ||| (if cause = 0 then 0 else 2)

/-- The end of a sketch operation whose accesses are performed, after its status OR, whose own failure is `c`. -/
def State.skEnd (s : State) (id : Nat) (k : Sketch) (op : SkOp) (cause c : Nat) : State :=
  match op with
  | .upd tag _ =>
    (s.modAny id fun t => { t with unack := t.unack - 1 }).tagDone id tag (firstCause cause c != 0) (firstCause cause c)
  | .qry vd _ got => s.giveTo id fun u => u.keepFill (32 + vd) (u.wV vd (ofLanes 32 ((List.range 16).map (k.estimate got))))
  | .add d _ _ _ => s.giveTo id fun u => u.keepFill d (u.wS d (if firstCause cause c = 0 then 0 else 4))
  | .clr _ => s.giveTo id fun u => u

/-- One access of a sketch operation, as an event of its own (R325): the next counter, for an SKUPD one of `may`, or the
status word once every counter is done. A page that is not present stalls the engine and is pushed to the fault buffer. -/
def State.skStep (s : State) (act id : Nat) (k : Sketch) (op : SkOp) (may : List (Nat × Int)) (sat : Bool) (cause : Nat) : State :=
  let core := s.coreOfAny id
  let part := (s.partOf core).getD 16
  let stall : Nat → State := s.skStall core part
  let next : State → SkOp → Bool → Nat → State := fun u o b c => u.setAct act (.sketch id k o b c)
  let close : Option (Word → Word) → State := fun f => match f with
    | none => (s.dropAct act).skEnd id k op cause 0
    | some g => match s.skAccess core part k.stat (some g) with
      | .absent => stall k.stat
      | .refused u c => (u.dropAct act).skEnd id k op cause c
      | .ok u _ => (u.dropAct act).skEnd id k op cause 0
  let orBits : State := close (if skBits sat cause = 0 then none else some fun w => w ||| skBits sat cause)
  match op with
  | .upd tag (x :: xs) =>
    let y := s.skUpdPick may
    let s1 := { s with draws := s.draws + 1 }
    let rest := (x :: xs).erase y
    match s1.skAccess core part y.1 (some fun w => skSum w y.2) with
    | .absent => stall y.1
    | .refused u c => next u (.upd tag rest) sat (firstCause cause c)
    | .ok u w => next u (.upd tag rest) (sat || skClamps w y.2) cause
  | .qry vd ((va, neg) :: r) got =>
    match s.skAccess core part va none with
    | .absent => stall va
    | .refused u c => next u (.qry vd r (got ++ [none])) sat (firstCause cause c)
    | .ok u w => next u (.qry vd r (got ++ [some (if neg then -w.toInt else w.toInt)])) sat cause
  | .add d src n none =>
    if k.count ≤ n then orBits
    else match s.skAccess core part (src.base + 4 * n) none with
    | .absent => stall (src.base + 4 * n)
    | .refused u c => next u (.add d src (n + 1) none) sat (firstCause cause c)
    | .ok u v => next u (.add d src n (some v)) sat cause
  | .add d src n (some v) =>
    match s.skAccess core part (k.base + 4 * n) (some fun w => skSum w v.toInt) with
    | .absent => stall (k.base + 4 * n)
    | .refused u c => next u (.add d src (n + 1) none) sat (firstCause cause c)
    | .ok u w => next u (.add d src (n + 1) none) (sat || skClamps w v.toInt) cause
  | .clr n =>
    if k.count ≤ n then close (some fun w => (w &&& ~~~(3 : Word)) ||| skBits false cause)
    else match s.skAccess core part (k.base + 4 * n) (some fun _ => 0) with
    | .absent => stall (k.base + 4 * n)
    | .refused u c => next u (.clr (n + 1)) sat (firstCause cause c)
    | .ok u _ => next u (.clr (n + 1)) sat cause
  | _ => orBits

/-- The word that the next access of an operation reaches; an SKUPD chooses among its own. -/
def Sketch.nextAddr (k : Sketch) : SkOp → Nat
  | .upd _ _ => k.stat
  | .qry _ todo _ => ((todo.head?).map Prod.fst).getD k.stat
  | .add _ src n got => if k.count ≤ n then k.stat else if got.isNone then src.base + 4 * n else k.base + 4 * n
  | .clr n => if k.count ≤ n then k.stat else k.base + 4 * n

/-- The next access to a word is free to be made: it comes behind the thread's older accesses to the same location (R218)
and behind its core's older requests in the class (R326). -/
def State.skFree (s : State) (act id va : Nat) : Bool :=
  !s.counterBehind act id va && s.inOrder act (s.coreOfAny id) ((s.partOf (s.coreOfAny id)).getD 16) [BitVec.ofNat 64 va]

/-- SKUPD_COMPLETE: the slice engines make the next access of a sketch operation, and its last one completes it. -/
def execSkupdComplete (act : Nat) (s : State) : Host.Outcome State Fault Refusal :=
  .next (match s.ready? act with
    | some (.sketch id k op sat cause) =>
      let may := match op with
        | .upd _ todo => todo.filter fun u => s.skFree act id u.1
        | _ => []
      if op.pending.isEmpty then (if s.skFree act id (k.nextAddr op) then s.skStep act id k op [] sat cause else s)
      else if may.isEmpty then s
      else s.skStep act id k op may sat cause
    | _ => s)

/-! ### Instructions (R318-R323) -/

def execSkset (n : BitVec 3) (a : BitVec 5) (s : State) : Host.Outcome State Fault Refusal :=
  s.perform [.s a.toNat] fun t =>
    match t.readRecord (t.rS a.toNat).toNat 32 with
    | .stop r => r
    | .ok bs => match sketchDesc bs with
      | none => .trap 4 (t.segAddr 0 (t.rS a.toNat).toNat)
      | some none => .ok (t.modMe fun x => { x with sketches := x.sketches.del n.toNat })
      | some (some k) => .ok (t.modMe fun x => { x with sketches := x.sketches.put n.toNat k })

/-- Performs an instruction on an attached slot; a detached one traps SEG_RIGHTS (R318). -/
def State.withSketch (s : State) (n : BitVec 3) (f : Sketch → Res) : Res :=
  match s.me.sketches.look n.toNat with
  | none => .trap 4 (BitVec.ofNat 64 n.toNat)
  | some k => f k

/-- The slice engines receive a sketch operation; the stores that the core still combines for the thread go first (log 38,
DEDUCED). -/
def State.skSend (s : State) (k : Sketch) (op : SkOp) (sat : Bool) : State :=
  (s.flushWcb s.myCore fun e => e.slot == s.cur).postFree (.sketch s.cur k op sat 0)

def execSkupd (n : BitVec 3) (d : BitVec 5) (va vb : BitVec 4) (s : State) : Host.Outcome State Fault Refusal :=
  s.perform [.s d.toNat, .v va.toNat, .v vb.toNat] fun t => t.withSketch n fun k =>
    let tag := fieldOf (t.rS d.toNat) 0 6
    match t.unackWait with
    | some w => .park w
    | none =>
      if 255 ≤ (t.me.tagOf tag).inflight then .park (.tagRoom tag)
      else
        let ups := k.updates (t.rV va.toNat) (t.rV vb.toNat)
        .ok (((t.tagIssue t.cur tag).addUnack t.cur).skSend k (.upd tag ups.1) ups.2)

/-- The thread waits until the slice engines have completed its operation (log 38, DEDUCED). -/
def State.skHold (s : State) (k : Sketch) (op : SkOp) : Res :=
  .hold (s.skSend k op false) (.reply (s.skSend k op false).nextAct.pred)

def execSkqry (n : BitVec 3) (vd va : BitVec 4) (s : State) : Host.Outcome State Fault Refusal :=
  s.perform [.v va.toNat] fun t => t.withSketch n fun k =>
    t.skHold k (.qry vd.toNat ((List.range 16).map (fun m => (List.range k.depth).map fun j =>
      let h := k.hash j (BitVec.ofNat 32 (vlane (t.rV va.toNat) m))
      (k.counter j h.1, h.2))).flatten [])

def execSkadd (n : BitVec 3) (d a : BitVec 5) (s : State) : Host.Outcome State Fault Refusal :=
  s.perform [.s a.toNat, .d d.toNat] fun u => u.withSketch n fun t =>
    let fin : Word → Res := fun c => .ok (u.wS d.toNat c)
    let src := (u.rS a.toNat).toNat
    match (if src ≤ 7 then u.me.sketches.look src else none) with
    | none => fin 2
    | some k =>
      if t.depth ≠ k.depth || t.log2w ≠ k.log2w || t.salt ≠ k.salt || t.scale ≠ k.scale then fin 1
      else if t.base ≠ k.base && t.base < k.base + 4 * k.count && k.base < t.base + 4 * t.count then fin 3
      else match u.relWait with
      | some _ => .park .sketchZero
      | none => u.skHold t (.add d.toNat k 0 none)

def execSkclr (n : BitVec 3) (s : State) : Host.Outcome State Fault Refusal :=
  s.perform [] fun u => u.withSketch n fun k =>
    match u.relWait with
    | some _ => .park .sketchZero
    | none => u.skHold k (.clr 0)

end Sys2Proof.Machine
end

