-- ==== Sys2Proof/Machine/Life.lean ====
section
/-!
DEFINITION. Life: how threads end: shadow granules, the names of threads in pending acts, cancellation, failure of
a task (R91-R92, R391), EXIT and retirement (R152).
-/

namespace Sys2Proof.Machine

open Sys2Proof

/-! ### Shadow granules (R99, R113-R114) -/

def ThreadKind.taskNo : ThreadKind → Option Nat
  | .composing t => some t
  | .impression t _ _ _ _ => some t
  | _ => none

/-- The live threads of a task: by SLOTID those in slots, by image number those pre-empted. -/
def State.threadsOf (s : State) (n : Nat) : List Nat := (s.threads.filter fun t => t.2.kind.taskNo == some n).map Prod.fst
def State.imagesOfTask (s : State) (n : Nat) : List Nat :=
  (s.images.filter fun t => t.2.thread.kind.taskNo == some n).map Prod.fst

/-- Shadow granules that a task holds on a core: owned ones of its threads, and those lent to its nested formes. -/
def State.shadowsInUse (s : State) (core n : Nat) : Nat :=
  let owned : Thread → Nat := fun t => t.own.countP fun g => match g.2 with
    | .owned _ => true
    | .lent _ _ => false
  let a := s.threads.foldl (fun acc t => if t.2.kind.taskNo == some n && coreOf t.1 == core then acc + owned t.2 else acc) 0
  let b := s.images.foldl (fun acc t =>
    if t.2.thread.kind.taskNo == some n && coreOf t.2.slot == core then acc + owned t.2.thread else acc) 0
  (s.core core).formes.foldl (fun acc f => if f.2.task == n then acc + f.2.lent.length else acc) (a + b)

/-- Frees a shadow granule of a task that still holds `used` others on the core: its launch forme's reservation takes
it back up to SHNEED, else it is free. -/
def State.freeShadow (s : State) (core n g used : Nat) : State :=
  let need := ((s.task? n).map fun t => t.hdr.shNeed).getD 0
  s.modCore core fun c => match c.formes.look (formeKey n) with
    | some f =>
      if f.reserved.length + used < need then { c with formes := c.formes.put (formeKey n) { f with reserved := f.reserved ++ [g] } }
      else { c with taken := c.taken.filter fun x => x != g }
    | none => { c with taken := c.taken.filter fun x => x != g }

/-- Frees the shadow granules that a thread owns. -/
def State.freeOwn (s : State) (id : Nat) : State :=
  let t := (s.anyThr? id).getD {}
  match t.kind.taskNo with
  | none => s
  | some n => t.own.foldl (fun s g => match g.2 with
      | .owned x => (s.freeShadow (s.coreOfAny id) n x (s.shadowsInUse (s.coreOfAny id) n - 1)).modAny id fun t => { t with own := t.own.del g.1 }
      | .lent _ _ => s) s

/-! ### Names of threads in pending acts -/

def swapId (o n i : Nat) : Nat := if i = o then n else i
def GReq.rename (o n : Nat) (r : GReq) : GReq := { r with slot := r.slot.map (swapId o n) }
def CopyOp.rename (o n : Nat) (c : CopyOp) : CopyOp := { c with slot := swapId o n c.slot }

/-- The name of a thread changes in an act: the thread was pre-empted, has resumed or has ended. -/
def ActKind.rename (o n : Nat) : ActKind → ActKind
  | .load i a b c d e => .load (swapId o n i) a b c d e
  | .scHold i a b c d e f g h j => .scHold (swapId o n i) a b c d e f g h j
  | .store i a b c => .store (swapId o n i) a b c
  | .amo i a b c d e f g h j => .amo (swapId o n i) a b c d e f g h j
  | .decEvent i a b c => .decEvent (i.map (swapId o n)) a b c
  | .feclr i a b c => .feclr (swapId o n i) a b c
  | .sync r a b => .sync { r with slot := swapId o n r.slot } a b
  | .reply i a b c d e f g => .reply (swapId o n i) a b c d e f g
  | .ack i => .ack (swapId o n i)
  | .scWait w i a b c d e => .scWait w (swapId o n i) a b c d e
  | .fill i a b c d e f => .fill (i.map (swapId o n)) a b c d e f
  | .msg i a b => .msg (i.map (swapId o n)) a b
  | .dec i a b c d => .dec (i.map (swapId o n)) a b c d
  | .token a b => .token a b
  | .wake a => .wake a
  | .rankReport a b c d e f => .rankReport a b c d e f
  | .copy c => .copy (c.rename o n)
  | .near x => .near { x with slot := swapId o n x.slot }
  | .sketch i a b c d => .sketch (swapId o n i) a b c d
  | .watch i a b c d => .watch (swapId o n i) a b c d
  | .trigger i a b f d => .trigger (swapId o n i) a b (match f with
      | .copy c => .copy (c.rename o n)
      | .dec x y => .dec x y) d
  | .handoff a b c d e f => .handoff a b c d e f
  | .putAnswer i a b c d => .putAnswer (swapId o n i) a b c d
  | .peerAnswer a b => .peerAnswer a b
  | .gal r a b => .gal (r.rename o n) a b
  | .delivery r a b c d => .delivery (r.rename o n) a b c (d.map (GReq.rename o n))
  | .galAnswer r a b => .galAnswer (r.rename o n) a b
  | .retry r a b => .retry (r.rename o n) a b
  | .redirect r f => .redirect (r.rename o n) f
  | .mirrorPut a b => .mirrorPut a b
  | .mirrorWait a r => .mirrorWait a r
  | .mirrorDel a b c => .mirrorDel a b c
  | .mirrorGone a b c => .mirrorGone a b c
  | .splitMsg a b c d e => .splitMsg a b c d e
  | .splitAck a b => .splitAck a b
  | .rangeEntry a b c d e => .rangeEntry a b c d e
  | .srcNotice a b c => .srcNotice a b c
  | .arrival i a b => .arrival (swapId o n i) a b
  | .landAck i a b c => .landAck (swapId o n i) a b c
  | .flip a b c d => .flip a b c d
  | .collIn a b c d e => .collIn a b c d { e with slot := e.slot.map (swapId o n) }
  | .collDown a b c => .collDown a b c
  | .collPeer a b c d => .collPeer a b c d
  | .collOut a b c d e => .collOut a b c d e
  | .collRun a b c => .collRun a b c
  | .collResult i a b => .collResult (swapId o n i) a b
  | .packet a b c d => .packet a b c d
  | .away a b c d e f => .away a b c d e f
  | .remap i a b c d e => .remap (swapId o n i) a b c d e
  | .remapCfg i a b c d e => .remapCfg (swapId o n i) a b c d e
  | .bounced k => .bounced (k.rename o n)

def CollNode.rename (o n : Nat) (x : CollNode) : CollNode :=
  { x with
    locals := x.locals.map fun c => { c with slot := c.slot.map (swapId o n) }
    waiting := x.waiting.map fun l => (l.1.map (swapId o n), l.2) }

/-- Renames a thread wherever the part holds its name. -/
def State.rename (s : State) (o n : Nat) : State :=
  let queue : List SyncReq → List SyncReq := fun l => l.map fun r => { r with slot := swapId o n r.slot }
  { s with
    acts := s.acts.mapVals fun _ a =>
      { a with kind := a.kind.rename o n, flows := a.flows.map fun f => if f.1 = 4 && f.2.1 = o then (4, n, f.2.2) else f }
    slices := s.slices.mapVals fun _ x =>
      { x with
        waiters := x.waiters.map (GReq.rename o n)
        retry := x.retry.map fun w => if w = (Config.fabricId, o) then (Config.fabricId, n) else w }
    storeys := s.storeys.mapVals fun _ x => { x with nodes := x.nodes.mapVals fun _ c => c.rename o n }
    cores := s.cores.mapVals fun _ c =>
      { c with
        wcb := c.wcb.map fun e => { e with slot := swapId o n e.slot }
        subs := c.subs.map fun w => { w with parent := swapId o n w.parent }
        formes := c.formes.mapVals fun _ f => { f with parent := f.parent.map (swapId o n) } }
    memory := { s.memory with syncQ := s.memory.syncQ.mapVals fun _ q => { q with full := queue q.full, empty := queue q.empty } }
    pkg := { s.pkg with
      away := s.pkg.away.mapVals fun _ x => { x with req := x.req.rename o n }
      engines := s.pkg.engines.mapVals fun _ e => e.mapVals fun _ c => { c.rename o n with waiting := c.waiting } } }

/-- A pre-emption of a thread that has left its slot waits no more (R394). -/
def State.noVictim (s : State) (id : Nat) : State :=
  if ((s.core (coreOf id)).victims.look id).isSome then
    s.modCore (coreOf id) fun c => { c with victims := c.victims.del id }
  else s

/-- Frees a slot: what is still pending for its thread finds none. -/
def State.freeSlot (s : State) (id : Nat) : State :=
  { (s.rename id (deadName id (s.thr id).kind.taskNo)).noVictim id with threads := s.threads.del id }

/-! ### Requests that are withdrawn (R194, R391, R395) -/

/-- The synchronising request that a parked thread has waiting at its word or on its way, with its pc. -/
def State.syncPending (s : State) (id : Nat) : Option Word :=
  let mine : SyncReq → Bool := fun r => r.slot == id && !r.remote
  match (s.memory.syncQ.map fun q => q.2.full ++ q.2.empty).flatten.find? mine with
  | some r => some r.pc
  | none => (s.acts.filterMap fun a => match a.2.kind with
      | .sync r _ _ => if mine r then some r.pc else none
      | _ => none).head?

/-- Withdraws it: the instruction issues again. -/
def State.withdrawSync (s : State) (id : Nat) : State :=
  match s.syncPending id with
  | none => s
  | some pc =>
    let keep : SyncReq → Bool := fun r => !(r.slot == id && !r.remote)
    let clean : SyncQ → SyncQ := fun q => { q with full := q.full.filter keep, empty := q.empty.filter keep }
    ({ s with
      memory := { s.memory with
        syncQ := (s.memory.syncQ.mapVals fun _ q => clean q).filter fun q => !(q.2.full.isEmpty && q.2.empty.isEmpty) }
      acts := s.acts.filter fun a => match a.2.kind with
        | .sync r _ _ => keep r
        | _ => true }).modThr id fun t => { t with pc := pc, park := none }

/-- Watches of a home that are given up are seen from the next cycle on (R124). -/
def State.freeWatches (s : State) : State :=
  { s with threads := s.threads.mapVals fun _ t => match t.park with
      | some (.watchRoom _) => { t with early := max t.early (s.cycle + 1) }
      | _ => t }

/-- The wait of a WAITC ends without effect. -/
def State.withdrawWatch (s : State) (id : Nat) : State :=
  let mine : ActKind → Bool := fun k => match k with
    | .watch i _ _ _ _ => i == id
    | _ => false
  if s.acts.any fun a => mine a.2.kind then { s with acts := s.acts.filter fun a => !mine a.2.kind }.freeWatches else s

/-- Waiters in wait mode and triggers that have not fired go, as at EXIT (log 55, DEDUCED): those at homes of this package,
those on their way or to be issued again, and those that a split brings here; homes on other packages are told. -/
def State.withdrawWaiters (s : State) (id : Nat) : State :=
  let mine : GReq → Bool := fun r => r.slot == some id && r.op.gets && r.mode == .wait
  let sent := s.pkg.away.filter fun a => mine a.2.req
  let back : GReq → Bool := fun r => mine r || (r.slot.isNone && r.fabric == Config.fabricId && (sent.any fun a => a.1 == r.no))
  let gone : ActKind → Bool := fun k => match k with
    | .gal r _ _ => mine r
    | .retry r _ _ => mine r
    | .redirect r _ => mine r
    | .mirrorWait _ r => back r
    | .trigger i _ _ _ none => i == id
    | _ => false
  let s0 := s.sendCancels true (sent.map fun a => (a.2.req, a.2.home, 0))
  let s1 := (s0.slices.map fun x => x.2.waiters.filter mine).flatten.foldl
    (fun u r => u.mirror r.hall r.tmpl (.mirrorGone r.hall r.fabric r.no)) s0
  { s1 with
    slices := s1.slices.mapVals fun _ x => { x with waiters := x.waiters.filter fun r => !back r }
    acts := s1.acts.filter fun a => match a.2.kind with
      | .bounced k => !gone k
      | k => !gone k }.freeWatches

/-- Unfired triggers go at EXIT, and each gives up its tag count (R212). -/
def State.withdrawTriggers (s : State) (id : Nat) : State :=
  s.acts.foldl (fun s a => match a.2.kind with
    | .trigger i _ _ fire none =>
      if i ≠ id then s
      else match fire with
        | .copy c => (s.dropAct a.1).modTag id c.tag fun g => { g with inflight := g.inflight - 1 }
        | .dec _ _ => s.dropAct a.1
    | _ => s) (if s.acts.any fun a => match a.2.kind with
      | .trigger i _ _ _ none => i == id
      | _ => false then s.freeWatches else s)

/-- A copy of the thread that writes its own core's TCM. -/
def CopyOp.intoTcm (c : CopyOp) (core : Nat) : Bool := c.rows.any fun r => spaceOf r.1 == 1 && addrCore r.1 == core

/-- The state defers pre-emption (R395). -/
def State.defers (s : State) (id : Nat) : Bool :=
  let t := s.thr id
  (match t.park with
    | some (.reply _) => (s.syncPending id).isNone
    | some .answer => true
    | some .deferred => true
    | some .sketchZero => true
    | _ => false)
  || decide (s.cycle < t.copying)
  || (((s.core (coreOf id)).mx.queue ++ (s.core (coreOf id)).mx.late).any fun e => e.slot == id)
  || s.acts.any fun a => match a.2.kind with
    | .copy c => c.slot == id && c.intoTcm (coreOf id)
    | _ => false

/-! ### Retirement (R152) and sub-impressions (R112-R113) -/

/-- A sub-impression of a nested forme has retired. -/
def State.subDone (s : State) (core f : Nat) : State :=
  s.modCore core fun c => match c.formes.look f with
    | some x => if x.parent.isSome then { c with formes := c.formes.put f { x with left := x.left - 1 } } else c
    | none => c

/-- Frees the slot of a thread of a task, with its shadow granules; the forme it read counts it no more. -/
def State.dropThread (s : State) (id : Nat) : State :=
  let t := s.thr id
  let s1 := (s.freeOwn id).freeSlot id
  match t.kind with
  | .impression _ f _ _ _ => s1.subDone (coreOf id) f
  | _ => s1

/-- A cancelled thread stops (R391): its requests are withdrawn and nothing is reported. -/
def State.killThread (s : State) (id : Nat) : State := (((s.withdrawSync id).withdrawWatch id).withdrawWaiters id).dropThread id

def State.stopThread (s : State) (id : Nat) : State :=
  if s.defers id then s.modThr id fun t => { t with cancelled := true } else s.killThread id

/-- An image that is not restored (R391, R403): its blocks are freed. -/
def State.dropImage (s : State) (k : Nat) : State :=
  match s.images.look k with
  | none => s
  | some im =>
    let id := imageBase + k
    let s1 := ((s.withdrawWaiters id).freeOwn id).rename id (deadName im.slot im.thread.kind.taskNo)
    let s2 := { s1 with images := s1.images.del k }
    match im.thread.kind with
    | .impression _ f _ _ _ => s2.subDone (coreOf im.slot) f
    | _ => s2

/-- Drops queued sub-items: no sub-impression of them will be left to retire. -/
def State.dropSubsWhere (s : State) (p : Nat → SubWork → Bool) : State :=
  { s with cores := s.cores.mapVals fun core c =>
      let formes := (c.subs.filter (p core)).foldl (fun fs w => match fs.look w.forme with
        | some f => fs.put w.forme { f with left := f.left - (w.count - w.next) }
        | none => fs) c.formes
      { c with subs := c.subs.filter fun w => !p core w, formes := formes } }

/-- Drops the queued sub-items of a task. -/
def State.dropSubs (s : State) (n : Nat) : State := s.dropSubsWhere fun _ w => w.task == n

/-- Cancels what a task runs: its threads, its images and its sub-items. -/
def State.cancelWork (s : State) (n : Nat) : State :=
  let s1 := (s.imagesOfTask n).foldl State.dropImage (s.dropSubs n)
  (s1.threadsOf n).foldl State.stopThread s1

/-! ### Failure (R91-R92, R389) -/

/-- A task fails or is cancelled: its queue is frozen, its first status and failure are kept, whatever comes later, and
ERRPOL decides about what runs (log 39, DESIGN CHOICE). -/
def State.failTask (s : State) (n status : Nat) (f : Option Failure) : State :=
  match s.task? n with
  | none => s
  | some t =>
    let s1 := s.modTask n fun t =>
      { t with frozen := true, status := if t.status = 0 then status else t.status
               fail := match t.fail with
                | none => f
                | some x => some x }
    if t.record.finish then s1 else s1.cancelWork n

/-- The item index that a failure reports. -/
def Thread.itemNo (t : Thread) : Word := match t.kind with
  | .impression _ _ item _ _ => BitVec.ofNat 32 item
  | _ => 0xFFFFFFFF

/-- A thread that has issued EXIT retires. -/
def State.retire (s : State) (id : Nat) : State :=
  let t := s.thr id
  let t1 : Thread := match t.fencedTrap with
    | some a => { t with sys := { t.sys.trapped 7 a t.pc with tstatus := t.sys.tstatus ||| 4 } }
    | none => if t.watchdogTrap then { t with sys := { t.sys.trapped 16 0 t.pc with tstatus := t.sys.tstatus ||| 4 } } else t
  let err := t1.sys.tstatus.getLsbD 2
  let f : Failure := ⟨t1.itemNo, t1.sys.tcause, t1.sys.tval, t1.sys.tpc, BitVec.ofNat 32 id⟩
  let s1 := s.dropThread id
  let failed : Nat → State := fun n => s1.failTask n (if t1.sys.tcause = 7 then 6 else 2) (some f)
  match t.kind with
  | .composing n =>
    let s2 := if err then failed n else s1.failTask n 1 none
    s2.modTask n fun k => { k with composed := true }
  | .impression n _ _ _ depth =>
    if err then (failed n).modTask n fun k => if depth = 0 then { k with erred := k.erred + 1 } else k
    else if depth = 0 then s1.modTask n fun k => { k with ran := k.ran + 1 } else s1
  | _ => s1

/-- The steps of EXIT as far as they can go: it waits for nested formes, withdraws its waiters in wait mode, waits
until the thread is quiet, and retires. -/
def State.exitStep (s : State) (id : Nat) : State :=
  let t := s.thr id
  if !t.nested.isEmpty then s.modThr id fun t => { t with park := some .join }
  else
    let w := s.outstanding id fun r => r.mode == .wait
    let s1 := if s.cancelling id then s else s.sendCancels true w
    let s2 := (s1.withdrawTriggers id).flushWcb (coreOf id) fun e => e.slot == id
    if s2.quiet id (s2.thr id) && w.isEmpty then (s2.flushWcb (coreOf id) fun _ => true).retire id
    else s2.modThr id fun t => { t with park := some .quiet }

def execExit (s : State) : Host.Outcome State Fault Refusal :=
  s.perform [] fun t => .gone ((t.modMe fun x => { x with exiting := true }).exitStep t.cur)

end Sys2Proof.Machine
end

