-- ==== Sys2Proof/Machine/Forme.lean ====
section
/-!
DEFINITION. Forme: the forme area and its granules (R97-R99), formes and their distribution (R100-R103), FREEZE,
template stores (R110), NEST (R111), FINFO (R116), release of formes (R113-R114).
-/

namespace Sys2Proof.Machine

open Sys2Proof

/-! ### The runtime's segments of a task's threads (R25, R104; log 18, DESIGN CHOICE) -/

/-- sg0 that the runtime gives a task's threads on a core. -/
def State.userSg0 (s : State) (core : Nat) : Seg :=
  (s.core core).userSg0.getD
    { base := BitVec.ofNat 64 (localAddr core 0x1000), limit := 0x6F000, rights := BitVec.ofNat 16 (rgtR + rgtW), scope := .pkg }

/-- Segment registers of a task's threads on a core: its sg0 where the forme's is the runtime's on the home core. -/
def State.segsOn (s : State) (home core : Nat) (segs : Tab Seg) : Tab Seg :=
  if segs.lookD 0 {} = s.userSg0 home then segs.put 0 (s.userSg0 core) else segs

/-! ### Core sets (R79) -/

def Record.has (r : Record) (core : Nat) : Bool :=
  decide (core < 8192) && r.smask.getLsbD (storeyOf core) && r.fmask.getLsbD (flightOf core % 4)
def Record.cores (r : Record) : List Nat := (List.range 8192).filter r.has
def Record.home (r : Record) : Nat := (leastBelow 8192 r.has).getD 0

/-! ### Granules -/

def Header.tplGranules (h : Header) : Nat := (h.tplSz + 255) / 256
/-- Granules that a core sets aside for a launch's forme (R99). -/
def Header.formeNeed (h : Header) : Nat := 6 + h.tplGranules + h.shNeed

/-- Takes free granules of a core. -/
def Core.takeFree (c : Core) (n : Nat) : Option (List Nat × Core) :=
  let gs := c.freeGranules.take n
  if gs.length < n then none else some (gs, { c with taken := gs.foldl (fun l g => insertNat g l) c.taken })

/-- Allocates a launch's forme on a core: 6 granules of record, the template copy and the reservation. -/
def State.allocForme (s : State) (core n : Nat) (h : Header) (f : Forme) : Option State :=
  match (s.core core).takeFree h.formeNeed with
  | none => none
  | some (gs, c) =>
    let f' := { f with
      record := gs.take 6
      map := ((gs.drop 6).take h.tplGranules).zipIdx.map fun p => (p.2, p.1)
      reserved := gs.drop (6 + h.tplGranules) }
    some (s.modCore core fun _ => { c with formes := c.formes.put (formeKey n) f' })

/-- The local offset of a template offset in a forme's map. -/
def Forme.place (f : Forme) (off : Nat) : Nat := f.map.lookD (off / 256) 0 * 256 + off % 256

/-- Loads a template copy; its words become full (R169). -/
def State.loadTemplate (s : State) (core : Nat) (f : Forme) (bs : List Byte) : State :=
  (List.range ((bs.length + 3) / 4)).foldl (fun s w =>
    let o := f.place (4 * w)
    (s.modMemory fun m => { m with sram := m.sram.setMany (sramAddr core o) ((bs.drop (4 * w)).take 4) }).setWordFull core o true) s

/-- The bytes of a core's template copy as it stands. -/
def State.readTemplate (s : State) (core : Nat) (f : Forme) (size : Nat) : List Byte :=
  ((List.range (size / 4)).map fun w => s.sramRead core (f.place (4 * w)) 4).flatten

/-! ### Views -/

/-- Every register as a thread sees it, with presence. -/
def State.viewRegs (s : State) (id : Nat) : Regs :=
  { s := ((List.range 31).map fun i => (i + 1, s.sOf id (i + 1))).filter fun p => p.2 != 0
    v := ((List.range 16).map fun i => (i, s.vOf id i)).filter fun p => p.2 != 0
    k := ((List.range 7).map fun i => (i + 1, s.kOf id (i + 1))).filter fun p => p.2 != 0
    sFull := (List.range 32).foldl (fun w i => setBit w i (s.sFullOf id i)) 0
    vFull := (List.range 16).foldl (fun w i => setBit w i (s.vFullOf id i)) 0 }

/-! ### FREEZE (R102) -/

def execFreeze (s : State) : Host.Outcome State Fault Refusal :=
  s.perform [] fun t => match t.me.kind with
    | .composing n =>
      if !t.quiet t.cur t.me then .park .quiet
      else match (t.core t.myCore).formes.look (formeKey n), t.task? n with
      | some f, some k =>
        let f' := { f with regs := t.viewRegs t.cur, segs := t.me.segs, fmt := t.me.fmt, super := t.me.super, complete := true }
        let tpl := t.readTemplate t.myCore f' k.hdr.tplSz
        let t1 := t.sendAll.modCore t.myCore fun c => { c with formes := c.formes.put (formeKey n) f' }
        .gone ((t1.dropThread t.cur).modTask n fun k =>
          { k with forme := some f', image := tpl, compose := .ready, composed := true })
      | _, _ => .gone (t.dropThread t.cur)
    | _ => .trap 1 (wordOf .freeze)

/-! ### Template stores (R110) -/

/-- The granule map that a thread's forme gives, with the template size. -/
def State.formeHere (s : State) : Option (Forme × Nat) :=
  match s.window s.cur with
  | some (f, _, sz) => ((s.core s.myCore).formes.look f).map fun x => (x, sz)
  | none => none

def State.templateStore (s : State) (a : Word) (bs : List Byte) : Res :=
  let off := a.toNat
  match s.formeHere with
  | none => .trap 3 (a.zeroExtend 64)
  | some (f, sz) =>
    if sz ≤ off then .trap 3 (a.zeroExtend 64)
    else if off % bs.length ≠ 0 then .trap 5 (a.zeroExtend 64)
    else match s.relWait with
    | some w => .park w
    | none =>
      let o := f.place off
      let s1 := s.sendAll.writeLoc s.myPart 0 (.sram s.myCore o) bs
      .ok ((List.range (bs.length / 4)).foldl (fun u i => (u.setWordFull s.myCore (o + 4 * i) true).serve s.myCore (o + 4 * i)) s1)

def execTstw (d a : BitVec 5) (s : State) : Host.Outcome State Fault Refusal :=
  s.perform [.s d.toNat, .s a.toNat] fun t => t.templateStore (t.rS a.toNat) (leBytes 4 (t.rS d.toNat).toNat)

def execTstv (vd : BitVec 4) (a : BitVec 5) (s : State) : Host.Outcome State Fault Refusal :=
  s.perform [.v vd.toNat, .s a.toNat] fun t => t.templateStore (t.rS a.toNat) (vbytes (t.rV vd.toNat))

/-! ### NEST (R111) -/

/-- The least odd number that names no nested forme of a core. -/
def Core.nestKey (c : Core) : Nat := 2 * (c.formes.fresh / 2 + 1) + 1

/-- The nested forme of a thread, and the thread with its granules lent to it. -/
def State.nestForme (s : State) (n item depth : Nat) (count : Nat) (entry : Word) : Option State :=
  match (s.core s.myCore).takeFree 6 with
  | none => none
  | some (gs, c) =>
    let key := c.nestKey
    let granules := ((s.task? n).map fun t => t.hdr.tplGranules).getD 0
    let owned := s.me.own.filterMap fun g => match g.2 with
      | .owned x => some (g.1, x)
      | .lent _ _ => none
    let nf : Forme :=
      { task := n, parent := some s.cur, regs := s.viewRegs s.cur, segs := s.me.segs, fmt := s.me.fmt, super := s.me.super
        record := gs, map := (List.range granules).map (fun g => (g, s.granuleMap s.cur g)), lent := owned, left := count }
    let w : SubWork := ⟨key, n, s.cur, item, 0, count, depth + 1, entry⟩
    let s1 := s.modCore s.myCore fun _ => { c with formes := c.formes.put key nf, subs := c.subs ++ [w] }
    some (s1.modMe fun t => { t with
      nested := t.nested ++ [key]
      own := t.own.map fun g => match g.2 with
        | .owned x => (g.1, .lent x key)
        | .lent x y => (g.1, .lent x y) })

def execNest (a b : BitVec 5) (s : State) : Host.Outcome State Fault Refusal :=
  s.perform [.s a.toNat, .s b.toNat] fun t => match t.me.kind with
    | .impression n _ item _ depth =>
      let entry := t.rS b.toNat
      let count := (t.rS a.toNat).toNat
      if depth = 3 then .trap 15 (wordOf (.nest a b))
      else if entry.toNat % 4 ≠ 0 then .trap 5 (entry.zeroExtend 64)
      else if count = 0 then .ok t
      else match t.sendAll.nestForme n item depth count entry with
      | none => .trap 10 0
      | some u => match t.relWait with
        | some w => .park w
        | none => .ok (u.delay 32)
    | _ => .trap 1 (wordOf (.nest a b))

/-! ### FINFO (R116) -/

/-- Live impressions of a forme on a core, pre-empted ones with them. -/
def State.liveOf (s : State) (core f : Nat) : Nat :=
  let reads : ThreadKind → Bool := fun k => match k with
    | .impression _ g _ _ _ => g == f
    | _ => false
  (s.threads.countP fun t => coreOf t.1 == core && reads t.2.kind)
    + s.images.countP fun t => coreOf t.2.slot == core && reads t.2.thread.kind

def State.formeInfo (s : State) (sel : Nat) : Word :=
  let c := s.core s.myCore
  let t := s.me
  match t.kind with
  | .impression n f item sub depth =>
    match sel with
    | 0 => BitVec.ofNat 32 item
    | 1 => BitVec.ofNat 32 sub
    | 2 => BitVec.ofNat 32 depth
    | 3 => t.regs.sownWord
    | 4 => t.regs.vkownWord
    | 5 => BitVec.ofNat 32 (t.own.countP fun g => match g.2 with
        | .owned _ => true
        | .lent _ _ => false)
    | 6 => BitVec.ofNat 32 (c.freeGranules.length + ((c.formes.look (formeKey n)).map fun x => x.reserved.length).getD 0)
    | _ => BitVec.ofNat 32 (s.liveOf s.myCore f)
  | _ =>
    match sel with
    | 3 => 0xFFFFFFFF
    | 4 => 0x00FEFFFF
    | 6 => BitVec.ofNat 32 c.freeGranules.length
    | _ => 0

def execFinfo (d : BitVec 5) (sel : BitVec 3) (s : State) : Host.Outcome State Fault Refusal :=
  s.alu d.toNat [] fun t => t.formeInfo sel.toNat

/-! ### Distribution and release (R103, R113-R114) -/

/-- FORME_COPY_RECEIVED: a core of the set takes its copy once its area has room. -/
def execFormeCopyReceived (core task : Nat) (s : State) : Host.Outcome State Fault Refusal :=
  .next (match s.task? task with
    | some k => match k.forme with
      | some f =>
        if !k.record.has core || k.gone.contains core || ((s.core core).formes.look (formeKey task)).isSome || s.coreFenced core || s.coreWiping core then s
        else
          let copy : Forme := { f with segs := s.segsOn k.record.home core f.segs, lent := [], complete := true }
          match s.allocForme core task k.hdr copy with
          | none => if (s.core core).shSize < k.hdr.formeNeed then s.modTask task fun k => { k with gone := insertNat core k.gone } else s
          | some s1 => s1.loadTemplate core ((s1.core core).formes.lookD (formeKey task) copy) k.image
      | none => s
    | none => s)

/-- Returns all the granules of a forme. -/
def State.releaseForme (s : State) (core key : Nat) : State :=
  s.modCore core fun c => match c.formes.look key with
    | some f =>
      let gs := f.record ++ f.reserved ++ (if f.parent.isSome then [] else f.map.map Prod.snd)
      { c with formes := c.formes.del key, taken := c.taken.filter fun g => !gs.contains g }
    | none => c

/-- The item of a FLAT launch that a core stamps next (R95), counted from the first of the launch. -/
def Task.flatItem (t : Task) (core : Nat) : Nat :=
  let set := t.record.cores
  let c := set.length
  t.rank * c + set.findIdx (· == core) + t.perCore.lookD core 0 * (t.nranks * c)

/-- The next item that the share gives a core. -/
def Task.nextItem (t : Task) (core : Nat) : Option Nat :=
  if t.frozen then none
  else if t.record.flat then
    let i := t.flatItem core
    if i < t.record.itemCnt then some (t.record.itemBase + i) else none
  else if t.next < t.count then some (t.first + t.next) else none

/-- No impression of the task is running, parked, pre-empted or queued on a core. -/
def State.coreIdleFor (s : State) (core n : Nat) : Bool :=
  !((s.threads.any fun t => coreOf t.1 == core && t.2.kind.taskNo == some n)
    || (s.images.any fun t => coreOf t.2.slot == core && t.2.thread.kind.taskNo == some n)
    || (s.core core).subs.any fun w => w.task == n)

/-- FORME_RELEASE: no more items, no impression (R114). -/
def execFormeRelease (core task : Nat) (s : State) : Host.Outcome State Fault Refusal :=
  .next (match s.task? task with
    | some k =>
      if ((s.core core).formes.look (formeKey task)).isSome && k.compose == .ready && (k.nextItem core).isNone
          && s.coreIdleFor core task then
        (s.releaseForme core (formeKey task)).modTask task fun k => { k with gone := insertNat core k.gone }
      else s
    | none => if ((s.core core).formes.look (formeKey task)).isSome && s.coreIdleFor core task
      then s.releaseForme core (formeKey task) else s)

/-- NESTED_FORME_RELEASE: the last sub-impression has retired; a granule still lent is the parent's again, and one
that the parent has copied since is freed (R113). -/
def execNestedFormeRelease (core forme : Nat) (s : State) : Host.Outcome State Fault Refusal :=
  .next (match (s.core core).formes.look forme with
    | some f => match f.parent with
      | some id =>
        if f.left ≠ 0 then s
        else
          let t := (s.anyThr? id).getD {}
          let s1 := s.releaseForme core forme
          let s2 := f.lent.foldl (fun s g =>
            if t.own.look g.1 = some (.lent g.2 forme) then s.modAny id fun t => { t with own := t.own.put g.1 (.owned g.2) }
            else s.freeShadow core f.task g.2 (s.shadowsInUse core f.task)) s1
          s2.modAny id fun t => { t with nested := t.nested.filter fun x => x != forme }
      | none => s
    | none => s)

end Sys2Proof.Machine
end

