-- ==== Sys2Proof/Machine/Fence.lean ====
section
/-!
DEFINITION. Fence: cancellation of tasks by the part, interrupts to the host (R76), a TDI's move to ERROR (R64),
fencing and its log (R404-R407), wiping (R421).
-/

namespace Sys2Proof.Machine

open Sys2Proof

/-- A task ends as CANCELLED (R92). -/
def State.cancelTask (s : State) (n : Nat) : State := s.failTask n 1 none

/-- Signals an MSI-X vector: function 0 is PF0, function n is VFn. A masked vector holds one pending message. -/
def State.msix (s : State) (fn vector : Nat) : State :=
  if fn = 0 then
    if s.pkg.pfMasked.getLsbD vector then s.modPkg fun g => { g with pfPending := setBit g.pfPending vector true }
    else { s with out := s.out ++ [.msix 0 vector] }
  else if (s.part (fn - 1)).msixMasked.getLsbD vector then
    s.modPart (fn - 1) fun p => { p with msixPending := setBit p.msixPending vector true }
  else { s with out := s.out ++ [.msix fn vector] }

def State.tasksOfPart (s : State) (p : Nat) : List Nat := (s.pkg.tasks.filter fun t => t.2.part == p).map Prod.fst

/-- A TDI moves to ERROR: the partition's tasks are cancelled and the host is told (R64). -/
def State.toError (s : State) (p : Nat) : State :=
  if (s.part p).tdi = .error then s
  else (((s.tasksOfPart p).foldl State.cancelTask s).modPart p fun x => { x with tdi := .error }).msix (p + 1) 1

/-! ### Dirty sectors (R63, R173) -/

/-- Discards dirty sectors: the stack holds again what it held before them. -/
def State.discardDirty (s : State) (p : Nat → Dirty → Bool) : State :=
  let gone := s.memory.dirty.filter fun d => p d.1 d.2
  gone.foldl (fun s d => s.modMemory fun m => { m with
    stack := m.stack.setMany (d.1 * 256) d.2.below
    keyTag := match d.2.tag with
      | some t => m.keyTag.put (sectorNo .stack (d.1 * 256)) t
      | none => m.keyTag.del (sectorNo .stack (d.1 * 256))
    dirty := m.dirty.del d.1 }) s

/-- The slices give lines up without writing them back: what is dirty in them is lost (R406, R421). -/
def State.loseLines (s : State) (slice : Nat → Bool) (part : Nat → Bool) : State :=
  let s1 := s.discardDirty fun n d => slice (s.sliceOf (n * 256)) && part d.part
  { s1 with slices := s1.slices.mapVals fun n x => if slice n then { x with lines := x.lines.filter fun l => !part l.part } else x }

/-! ### Fencing (R404-R407) -/

/-- A word of the fence log (R407). -/
def flogWord (e : Nat × Nat × Nat) : Word :=
  BitVec.ofNat 32 (2 ^ 31 + e.1 % 8 * 2 ^ 28 + e.2.2 % 4 * 2 ^ 26 + e.2.1 % 8192)

/-- Inserts a fence after those of a lower kind, then of a lower unit. -/
def flogInsert (e : Nat × Nat × Nat) : List (Nat × Nat × Nat) → List (Nat × Nat × Nat)
  | [] => [e]
  | x :: r => if e.1 < x.1 || (e.1 == x.1 && decide (e.2.1 < x.2.1)) then e :: x :: r else x :: flogInsert e r

/-- The entry of the fence log; the fences of one cycle stand in ascending kind, then unit. -/
def State.logFence (s : State) (kind reason unit : Nat) : State :=
  let old := if s.pkg.flogCycle = s.cycle then s.pkg.flogNow else []
  let now := flogInsert (kind, unit, reason) old
  let first := s.pkg.flogCnt - old.length
  s.modPkg fun g => { g with
    flog := now.zipIdx.foldl (fun f e => f.put ((first + e.2) % 16) (flogWord e.1)) g.flog
    flogCnt := g.flogCnt + 1
    flogNow := now
    flogCycle := s.cycle }

/-- The tasks that have a thread on a core, running, pre-empted or queued as a sub-item. -/
def State.tasksOn (s : State) (core : Nat) : List Nat :=
  (((s.threads.filter fun t => coreOf t.1 == core).filterMap fun t => t.2.kind.taskNo)
    ++ ((s.images.filter fun im => coreOf im.2.slot == core).filterMap fun im => im.2.thread.kind.taskNo)
    ++ (s.core core).subs.map fun w => w.task).dedup

/-- Cancels every thread of a core, running, pre-empted or queued as a sub-item; each task with a thread there fails with a
status. -/
def State.stopCore (s : State) (core status : Nat) : State :=
  let s1 := (s.tasksOn core).foldl (fun s n => s.failTask n status none) s
  let s2 := ((s1.images.filter fun im => coreOf im.2.slot == core).map Prod.fst).foldl State.dropImage s1
  (s2.threads.filter fun t => coreOf t.1 == core).foldl (fun s t => s.stopThread t.1)
    (s2.dropSubsWhere fun c _ => c == core)

/-- The slice that takes over from a fenced one (R275). -/
def State.nextSlice (s : State) (n : Nat) : Nat :=
  (((List.range 15).map fun i => (n + i + 1) % 16).find? fun k => !s.isFenced 2 k).getD n

/-- The Gallery of a fenced slice: HSLOT names the next unfenced slice, tuples and waiters are lost, and each waiting
requester is answered FENCED (R275). -/
def State.fenceGallery (s : State) (n : Nat) : State :=
  let heir := s.nextSlice n
  let slots := (List.range 16).map fun i => (i, if s.hslot i = n then heir else s.hslot i)
  let s1 := s.modPkg fun g => { g with hslot := slots }
  let ws := (s.slice n).waiters
  let s2 := (s.slice n).tuples.foldl (fun u t => u.mirror t.hall (tupleKey t) (.mirrorDel t.hall n t.seq)) s1
  let s3 := s2.modSlice n fun x => { x with tuples := [], waiters := [] }
  ws.foldl (fun s r => (s.mirror r.hall r.tmpl (.mirrorGone r.hall r.fabric r.no)).answerWaiter r n stFENCED) s3

/-- The operations of this package that are on their way to a home behind a fenced Ethernet port are answered FENCED; a cancel
there withdraws nothing (R351). -/
def State.fenceAway (s : State) (port : Nat) : State :=
  (s.pkg.away.filter fun a => flowPort a.2.home == port).foldl (fun u a =>
    u.postFree (.peerAnswer a.1 (if a.2.req.op = .cancel then .withdrawn 0 else .status stFENCED 0))) s

/-- Fences a function: 0 core, 1 flight, 2 slice, 3 pool link, 4 Ethernet port, 5 host link, 6 pool sector (logged
only). -/
def State.fence (s : State) (kind reason unit : Nat) : State :=
  if s.isFenced kind unit then s
  else
    let s1 := s.logFence kind reason unit
    let s2 := if kind = 6 then s1 else s1.modPkg fun g => { g with fences := g.fences ++ [{ kind := kind, unit := unit }] }
    match kind with
    | 0 => s2.stopCore unit 6
    | 1 => (List.range 16).foldl (fun s i => s.stopCore (unit * 16 + i) 6) s2
    | 2 =>
      let lost : Nat → Dirty → Bool := fun n _ => s.sliceOf (n * 256) == unit
      let parts := ((s.memory.dirty.filter fun d => lost d.1 d.2).map fun d => d.2.part).dedup
      let s3 := (s2.fenceGallery unit).loseLines (fun n => n == unit) fun _ => true
      parts.foldl (fun s p => if (s.part p).tdi = .run then (s.tasksOfPart p).foldl (fun s n => s.failTask n 6 none) s else s) s3
    | 4 => s2.fenceAway unit
    | 5 => (List.range 16).foldl State.toError s2
    | _ => s2

/-! ### Wiping (R421) -/

/-- Removes every thread and image of a set of cores, with their pending names. -/
def State.clearThreads (s : State) (p : Nat → Bool) : State :=
  let s1 := (s.threads.keys.filter fun id => p (coreOf id)).foldl State.freeSlot s
  { s1 with images := s1.images.filter fun im => !p (coreOf im.2.slot) }

/-- Wipes a core: local memory, registers, matrix engine, formes, message queue and run list. -/
def State.wipeCore (s : State) (core : Nat) : State :=
  let s1 := (s.dropHandoffs core).clearThreads fun c => c == core
  { s1.sramClear core 0 0x80000 with
    cores := s1.cores.del core
    memory := { (s1.sramClear core 0 0x80000).memory with
      syncQ := s1.memory.syncQ.filter fun q => q.1 < wordNo core 0 || wordNo core 0x80000 ≤ q.1 } }

/-- Wipes a storey's cores, with the lines that their cache portions hold; the storey accepts no request until the
wipe completes (R422). Its own registers and its flights' are no item of R421 (log 47, DEDUCED). -/
def State.wipeStorey (s : State) (st : Nat) : State :=
  ((List.range 64).foldl (fun s i => s.wipeCore (st * 64 + i)) s).modStorey st fun x => { x with wiping := true }

/-- Drops the changes of landings that no core has seen yet. -/
def State.dropFlips (s : State) (p : Nat → Bool) : State :=
  { s with acts := s.acts.filter fun a => match a.2.kind with
      | .flip n _ _ _ => !p n
      | _ => true }

/-- Wipes what the partition's slices, landings, groups and remap unit hold. Of the function's aperture the staging slots
and BUSY are cleared, and CWIN and APSTAT kept (log 66, DESIGN CHOICE). -/
def State.wipePart (s : State) (p : Nat) : State :=
  let mine : Nat → Bool := fun hall => (s.hall? hall).any fun h => h.part == p
  let s1 := { s with
    slices := s.slices.mapVals fun _ x => { x with
      tuples := x.tuples.filter fun t => !mine t.hall
      waiters := x.waiters.filter fun w => !mine w.hall
      heap := x.heap.filter fun h => !mine h.1 }
    storeys := s.storeys.mapVals fun _ x =>
      { x with nodes := x.nodes.filter fun n => !((n.2.entry.map CollEntry.part) == some p) } }
  let s2 := (s1.dropFlips fun n => (s.pkg.landings.lookD n {}).part == p).modPkg fun g => { g with
    landings := g.landings.mapVals fun _ l => if l.v && l.part == p then { v := l.v, part := l.part } else l
    engines := g.engines.mapVals fun _ e => e.filter fun n => !((n.2.entry.map CollEntry.part) == some p) }
  (s2.modPart p fun x => { x with remap := {}, staging := [], busy := 0 }).loseLines (fun _ => true) fun q => q == p

end Sys2Proof.Machine
end

