-- ==== Sys2Proof/Machine/SysRegs.lean ====
section
/-!
DEFINITION. SysRegs: the registers of the system window (R165): the fault-service registers and the walk
(R181-R183), the save area (R396), landings (R331-R332), interleave domains (R175-R177), migration (R184-R185), and
the package's own registers (R274, R407, R418, R420, R424).
-/

namespace Sys2Proof.Machine

open Sys2Proof

/-! ### Fault service (R183) -/

/-- The FBPOP word of an entry. -/
def Pending.popWord (p : Pending) : Word :=
  let kind := match p.acc with
    | .read => 0
    | .write => 1
    | .fetch => 2
    | .atomic => 3
  BitVec.ofNat 32 (2 ^ 31 + kind * 2 ^ 29 + p.flight % 4 * 2 ^ 27)

/-- A read of FBPOP pops the oldest entry and writes its page to FSVA. -/
def State.fbpop (s : State) (st : Nat) : Word × State :=
  match (s.storey st).buffer with
  | [] => (0, s)
  | p :: r => (p.popWord, s.modStorey st fun x => { x with buffer := r, fsva := BitVec.ofNat 32 p.page })

def State.dropClear (s : State) (st : Nat) : State := s.modStorey st fun x => { x with drop := false, ndrop := 0 }

/-- The cores with a thread parked on a FAULTED page of a storey, of its own access or of a trap's descriptor. -/
def State.replayCores (s : State) (st : Nat) : List Nat :=
  let hit : Nat → Nat → Bool := fun st' pg => st' == st && (s.storey st).pending.any fun p => p.faulted && p.page == pg
  (s.threads.filterMap fun t => match t.2.park with
    | some (.page st' pg _ _) => if hit st' pg then some (coreOf t.1) else none
    | some (.descPage st' pg) => if hit st' pg then some (coreOf t.1) else none
    | _ => none).dedup

/-- REPLAY_ALL frees the FAULTED entries; the threads parked on them issue again (log 22, DEDUCED), which is an acquire at
package scope (R222). -/
def State.replayAll (s : State) (st : Nat) : State :=
  (s.replayCores st).foldl (fun s c => s.acquire c .pkg)
    (s.modStorey st fun x => { x with pending := x.pending.filter fun p => !p.faulted })

/-- Removes translations from a storey's L2 TLB and from the L1 TLBs of its flights. -/
def State.dropTlb (s : State) (st : Nat) (p : TlbEntry → Bool) : State :=
  (List.range 4).foldl (fun s i => s.modFlight (st * 4 + i) fun f => { f with tlb := f.tlb.filter fun e => !p e })
    (s.modStorey st fun x => { x with tlb := x.tlb.filter fun e => !p e })

def State.invalVa (s : State) (st : Nat) : State := s.dropTlb st fun e => e.covers (s.storey st).fsva.toNat
def State.invalAll (s : State) (st : Nat) : State := s.dropTlb st fun _ => true

def State.fscmd (s : State) (st : Nat) (v : Word) : State :=
  match fieldOf v 0 2 with
  | 1 => s.replayAll st
  | 2 => s.invalVa st
  | 3 => s.invalAll st
  | _ => s

/-! ### The end of a walk (R181) -/

/-- The threads parked on a page of a storey: each with its access and address. -/
def State.joined (s : State) (st page : Nat) : List (Nat × Access × Nat) :=
  s.threads.filterMap fun t => match t.2.park with
    | some (.page st' pg acc va) => if st' = st && pg = page then some (t.1, acc, va) else none
    | _ => none

/-- WALK_COMPLETE's effect on a walking entry. -/
def State.walkDone (s : State) (st page : Nat) (p : Pending) : State :=
  let part := (s.partOfStorey st).getD 16
  let js := s.joined st page
  let found := s.walk st part (page * 65536)
  let s := s.walkTouch st part (page * 65536)
  match found with
  | .absent =>
    (s.modStorey st fun x => { x with pending := x.pending.map fun q => if q.page = page then { q with faulted := true } else q }).faultPush
      st { p with faulted := true }
  | .malformed => js.foldl (fun s j => s.takeTrap j.1 6 (BitVec.ofNat 64 j.2.2) (s.thr j.1).pc) (s.freePending st page)
  | .leaf pte e block =>
    let ok := js.filter fun j => s.pteAllows part e j.2.1
    let bad := js.filter fun j => !s.pteAllows part e j.2.1
    let good := if js.isEmpty then s.pteAllows part e p.acc else !ok.isEmpty
    let w := if js.isEmpty then p.acc.writes else ok.any fun j => j.2.1.writes
    let s1 := if good then
        let s1 := s.touchPte st part pte e w
        let te := tlbOf part page (pteTouched e w) block
        let flights := if js.isEmpty then [st * 4 + p.flight % 4] else (ok.map fun j => flightOf (coreOf j.1)).dedup
        flights.foldl (fun s f => s.fillL1 f te) (s1.fillL2 st te)
      else s
    bad.foldl (fun s j => s.takeTrap j.1 6 (BitVec.ofNat 64 j.2.2) (s.thr j.1).pc) (s1.freePending st page)

def execWalkComplete (storey page : Nat) (s : State) : Host.Outcome State Fault Refusal :=
  .next (match s.pendingPage storey page with
    | some p => if p.faulted then s else s.walkDone storey page p
    | none => s)

def execFbpopRead (storey : Nat) (s : State) : Host.Outcome State Fault Refusal := .next (s.fbpop storey).2
def execFbstatDropClear (storey : Nat) (s : State) : Host.Outcome State Fault Refusal := .next (s.dropClear storey)
def execReplayAll (storey : Nat) (s : State) : Host.Outcome State Fault Refusal := .next (s.replayAll storey)
def execInvalVa (storey : Nat) (s : State) : Host.Outcome State Fault Refusal := .next (s.invalVa storey)
def execInvalAll (storey : Nat) (s : State) : Host.Outcome State Fault Refusal := .next (s.invalAll storey)

/-! ### Landings (R331-R332) -/

def State.landing (s : State) (n : Nat) : Landing := s.pkg.landings.lookD n {}
def State.modLanding (s : State) (n : Nat) (f : Landing → Landing) : State :=
  s.modPkg fun g => { g with landings := g.landings.put n (f (s.landing n)) }

/-- LOWN after a write: the counts are zero and every arrival record of the landing is discarded. -/
def State.lown (s : State) (n : Nat) (v : Word) : State :=
  let s1 := (s.dropFlips fun m => m == n).modLanding n fun _ => { v := v.getLsbD 4, part := fieldOf v 0 4 }
  let clear : Thread → Thread := fun t => { t with arrivals := t.arrivals.del n }
  { s1 with
    threads := s1.threads.mapVals fun _ t => clear t
    images := s1.images.mapVals fun _ im => { im with thread := clear im.thread, dropped := insertNat n im.dropped } }

/-- LCFG after a write by a storey's partition. -/
def State.lcfg (s : State) (st n : Nat) (v : Word) : State :=
  let l := s.landing n
  let c := fieldOf v 0 18
  if l.v && s.partOfStorey st == some l.part && l.arrived == 0 && decide (c ≤ 131072) then s.modLanding n fun l => { l with count := c }
  else s

def execLownWrite (landing : Nat) (value : Word) (s : State) : Host.Outcome State Fault Refusal :=
  .next (if landing < 32 then s.lown landing value else s)
def execLcfgWrite (storey landing : Nat) (value : Word) (s : State) : Host.Outcome State Fault Refusal :=
  .next (if landing < 32 then s.lcfg storey landing value else s)

/-- LSTAT as seen by the cores. -/
def Landing.lstat (l : Landing) : Word := BitVec.ofNat 32 (l.seenGen.toNat % 2 ^ 14 * 2 ^ 18 + l.seenArr % 2 ^ 18)

/-! ### Interleave domains (R176-R177) -/

/-- The physical place of a line, through a change of places. -/
def mapLine (f : Loc → Loc) (cls : PClass) (line : Nat) : Nat :=
  match f (.phys cls (line * 256) 0) with
  | .phys _ pa _ => pa / 256
  | _ => line

def CacheLine.mapLoc (f : Loc → Loc) (l : CacheLine) : CacheLine := { l with phys := mapLine f l.cls l.phys }
def Put.mapLoc (f : Loc → Loc) (p : Put) : Put := { p with loc := f p.loc }
def WcEntry.mapLoc (f : Loc → Loc) (e : WcEntry) : WcEntry :=
  { e with line := mapLine f e.cls e.line, pieces := e.pieces.map (Put.mapLoc f) }
def Piece.mapLoc (f : Loc → Loc) (p : Piece) : Piece :=
  if p.got.isSome then p else { p with loc := f p.loc, fill := p.fill.map (CacheLine.mapLoc f) }

/-- The places of a request, changed. -/
def ActKind.mapLoc (f : Loc → Loc) : ActKind → ActKind
  | .load a b c h ps d => .load a b c h (ps.map (Piece.mapLoc f)) d
  | .store a b h ps => .store a b h (ps.map (Put.mapLoc f))
  | .amo a b c l d e g h i j => .amo a b c (f l) d e g h i j
  | .scHold a b c l d e g h i j => .scHold a b c (f l) d e g h i j
  | .decEvent a b l n => .decEvent a b (f l) n
  | .watch a l b c d => .watch a (f l) b c d
  | .trigger a l b c d => .trigger a (f l) b c d
  | .bounced k => .bounced (k.mapLoc f)
  | k => k

/-- The places that a request reaches. -/
def ActKind.locs : ActKind → List Loc
  | .load _ _ _ _ ps _ => (ps.filter fun q => q.got.isNone).map Piece.loc
  | .store _ _ _ ps => ps.map Put.loc
  | .amo _ _ _ l _ _ _ _ _ _ => [l]
  | .decEvent _ _ l _ => [l]
  | .bounced k => k.locs
  | _ => []

/-- A request that a slice sends back. -/
def ActKind.sentBack : ActKind → ActKind
  | .bounced k => .bounced k
  | k => .bounced k

/-- Requests in flight with such a place are bounced (R177, R185): a bounced request keeps its place in its flow and
takes one in the flow to its new owner. Lines and stores that the cores hold follow their places. -/
def State.bounce (s : State) (f : Loc → Loc) (p : Loc → Bool) : State :=
  { s with
    acts := s.acts.mapVals fun _ a =>
      let k := a.kind.mapLoc f
      if a.kind.locs.any p then
        { kind := k.sentBack, flows := (a.flows ++ k.locs.map fun l => (0, ((a.flows.headD (0, 0, 0)).2.1), s.unitOf l)).dedup }
      else { a with kind := k }
    cores := s.cores.mapVals fun _ c =>
      { c with cache := c.cache.map (CacheLine.mapLoc f), wcb := c.wcb.map (WcEntry.mapLoc f) } }

/-- A slice no longer caches a line of 1,024 bytes when the configuration of the slices changes. -/
def State.lostTo (s t : State) (line : Nat) : Bool := s.sliceOf (line * 1024) != t.sliceOf (line * 1024)

/-- The slices give up the stack lines that satisfy a condition, dirty sectors written back. -/
def State.releaseLines (s : State) (p : Nat → Bool) : State :=
  let s1 := s.writeBack fun n => p (n / 4)
  { s1 with slices := s1.slices.mapVals fun _ x => { x with lines := x.lines.filter fun l => !(l.cls == .stack && p l.no) } }

/-- The slices with their staged configurations active. -/
def State.switched (s : State) : State :=
  (List.range 16).foldl (fun s n => s.modSlice n fun x => { x with k := x.stagedK, hmask := x.stagedMask }) s

/-- A commit is refused when a staged size exceeds 4 or the slices of a staged domain differ. -/
def State.domainBad (s : State) : Bool :=
  (List.range 16).any fun n =>
    let k := (s.slice n).stagedK
    decide (4 < k) || (List.range (2 ^ min k 4)).any fun i =>
      let m := n / 2 ^ min k 4 * 2 ^ min k 4 + i
      (s.slice m).stagedK != k || (s.slice m).stagedMask != (s.slice n).stagedMask

/-- DOMSW.GO: every slice switches at once, writes back what it no longer owns, and bounces the requests that reach it for
such lines. -/
def State.domainGo (s : State) : State :=
  if s.domainBad then s.modPkg fun g => { g with domErr := true }
  else
    let t := s.switched
    let lost : Loc → Bool := fun l => match l with
      | .phys .stack pa _ => s.lostTo t (pa / 1024)
      | _ => false
    ((t.releaseLines fun n => s.lostTo t n).bounce id lost).modPkg fun g => { g with domErr := false, domGo := true }

def execDomswGo (s : State) : Host.Outcome State Fault Refusal := .next s.domainGo
def execDomainSwitchDone (s : State) : Host.Outcome State Fault Refusal := .next (s.modPkg fun g => { g with domGo := false })

/-- A slice's staged configuration. -/
def State.stage (s : State) (n off : Nat) (v : Word) : State :=
  if off = 0x100 then s.modSlice n fun x => { x with stagedK := fieldOf v 0 3 }
  else if off = 0x104 then s.modSlice n fun x => { x with stagedMask := fieldOf v 0 26 }
  else s

def execDomainConfigStage (slice off : Nat) (value : Word) (s : State) : Host.Outcome State Fault Refusal :=
  .next (if slice < 16 then s.stage slice off value else s)

/-- SCMD.WB = 1. -/
def State.startWb (s : State) (n : Nat) : State := s.modSlice n fun x => { x with wb := true }

def execScmdWb (slice : Nat) (s : State) : Host.Outcome State Fault Refusal := .next (if slice < 16 then s.startWb slice else s)
def execScmdWbDone (slice : Nat) (s : State) : Host.Outcome State Fault Refusal :=
  .next (if (s.slice slice).wb then
      let t := s.switched
      (s.writeBack fun n => s.sliceOf (n * 256) == slice && s.lostTo t (n / 4)).modSlice slice fun x => { x with wb := false }
    else s)

/-! ### Hotness and migration (R184-R185) -/

def execHotnessHalving (s : State) : Host.Outcome State Fault Refusal :=
  .next (if s.pkg.hotEpoch < s.cycle / 2 ^ 24 then
      s.modPkg fun g => { g with hotEpoch := g.hotEpoch + 1, hot := g.hot.mapVals fun _ l => l.map (· / 2) }
    else s)

/-- Writes an entry of a page table back. -/
def State.writePte (s : State) (st part pte e : Nat) : State :=
  s.writeLoc part 0 (.phys .stack pte (s.rkey st)) (leBytes 8 e)

/-- MIGRATION_START: the engine sets MIG in a leaf entry of a stack-class page (log 12, DESIGN CHOICE). -/
def execMigrationStart (part page dest : Nat) (s : State) : Host.Outcome State Fault Refusal :=
  .next (let st := s.partStorey part
    match s.walk st part (page * 65536) with
    | .leaf pte e false =>
      if pteClass e = .stack && fld e 6 1 = 0 && !(s.pkg.migrations.any fun m => m.part == part && m.page == page) then
        (s.writePte st part pte (e + 64)).modPkg fun g =>
          { g with migrations := g.migrations ++ [{ part := part, page := page, src := pteTable e / 65536, dest := dest }] }
      else s
    | _ => s)

/-- A place in a page that has moved. -/
def Loc.moved (src dest : Nat) : Loc → Loc
  | .phys .stack pa key => if pa / 65536 = src then .phys .stack (dest * 65536 + pa % 65536) key else .phys .stack pa key
  | l => l

/-- The page's bytes at its new place, with the keys of its sectors and its hotness counters (R184); the slices give up
the lines of both pages. -/
def State.movePage (s : State) (src dest : Nat) : State :=
  let s1 := s.releaseLines fun n => n / 64 == src || n / 64 == dest
  let tag : Tab Nat → Nat → Tab Nat := fun t i => match t.look (2 * (src * 256 + i)) with
    | some k => t.put (2 * (dest * 256 + i)) k
    | none => t.del (2 * (dest * 256 + i))
  let s2 := s1.modMemory fun m => { m with
    stack := m.stack.setMany (dest * 65536) (m.stack.getMany (src * 65536) 65536)
    keyTag := (List.range 256).foldl tag m.keyTag }
  s2.modPkg fun g => { g with hot := (g.hot.put dest (g.hot.lookD src [0, 0, 0, 0])).del src }

/-- The engines copy the next line of a page, or the oldest line that is marked for re-copy (R185). What the line holds
reaches the new page with the flip. -/
def Migration.copyNext (m : Migration) : Migration :=
  if m.copied < 64 then { m with copied := m.copied + 1 }
  else match m.marked with
    | [] => m
    | _ :: r => { m with marked := r, recopies := m.recopies + 1 }

def State.copyLine (s : State) (part page : Nat) : State :=
  s.modPkg fun g => { g with migrations := g.migrations.map fun m =>
    if m.part = part && m.page = page then m.copyNext else m }

/-- MIGRATION_FLIP, once every line is copied and none is marked: the new PA is written, MIG cleared, the page leaves
every TLB of the partition, requests in flight are bounced, and images whose words were held are written. -/
def execMigrationFlip (part page : Nat) (s : State) : Host.Outcome State Fault Refusal :=
  .next (match s.pkg.migrations.find? fun m => m.part == part && m.page == page with
    | none => s
    | some m =>
      let st := s.partStorey part
      let s0 := s.modPkg fun g => { g with migrations := g.migrations.filter fun x => !(x.part == part && x.page == page) }
      if m.copied < 64 || !m.marked.isEmpty then s
      else match s0.walk st part (page * 65536) with
      | .leaf pte e false =>
        let s1 := s0.movePage m.src m.dest
        let e' := e - pteTable e - (if fld e 6 1 = 1 then 64 else 0) + m.dest % 2 ^ 36 * 65536
        let s2 := s1.writePte st part pte e'
        let s3 := (List.range 128).foldl (fun s n =>
          if (s.part part).smask.getLsbD n then s.dropTlb n fun t => t.covers page else s) s2
        let old : Loc → Bool := fun l => match l with
          | .phys .stack pa _ => pa / 65536 == m.src
          | _ => false
        let s4 := s3.bounce (Loc.moved m.src m.dest) old
        ((s4.images.filter fun im => s4.partOf (coreOf im.2.slot) == some part && s4.imageVa im.2 / 65536 == page).map Prod.fst).foldl
          State.syncImage s4
      | _ => s0)

/-! ### Resets of the package (R417-R421) -/

def Life.code : Life → Nat
  | .manufacture => 0
  | .develop => 1
  | .production => 2
  | .return => 3

def State.debugOk (s : State) : Bool := s.pkg.life != .production

/-- A package reset: every item of R421 is wiped, every partition is as after reset, and key slots are erased; what
the stacks and the pool hold stays, and so do the operator's firmware, the failures of pool modules, and the OFF that a thermal
trip leads to (R426). Cycle 0 follows. -/
def State.pkgReset (s : State) (life : Life) (slot0 : Bool) : State :=
  let back := s.discardDirty fun _ _ => true
  let gen : Nat → KeySlot → KeySlot := fun n k => if n = 0 && !slot0 then k else { gen := k.gen + 1 }
  let keys := if slot0 then s.pkg.keys.put 0 (s.pkg.keys.lookD 0 {}) else s.pkg.keys
  { State.reset with
    memory := { State.reset.memory with
      stack := back.memory.stack, pool := s.memory.pool, host := s.memory.host, keyTag := back.memory.keyTag }
    pkg := { State.reset.pkg with
      keys := keys.mapVals gen, life := life, offAt := s.pkg.offAt.map fun c => c - s.cycle
      poolFailed := s.pkg.poolFailed, spdm := { firmware := s.pkg.spdm.firmware } }
    agenda := s.agenda, draws := s.draws, out := s.out, peers := s.peers }

/-- A core whose debug reset has cancelled its threads is wiped once none of them is left (R419). -/
def State.resetEnd (s : State) (core : Nat) : State :=
  if s.threads.any fun t => coreOf t.1 == core then s else s.wipeCore core

/-- A debug reset of a core (R419): its threads are cancelled, and no other starts before the wipe. -/
def State.debugReset (s : State) (core : Nat) : State :=
  if !s.debugOk || 8192 ≤ core then s
  else ((s.stopCore core 1).modCore core fun c => { c with resetting := true }).resetEnd core

/-- A write of RSTCTL. -/
def State.rstctl (s : State) (v : Word) : State :=
  if v.getLsbD 31 then s.pkgReset s.pkg.life false
  else if v.getLsbD 30 then s.debugReset (fieldOf v 0 13) else s

/-! ### Reads and writes (R165) -/

/-- Who reaches a register: a partition, or the configuration path. -/
def State.reaches (s : State) (who : Option Nat) (storey : Nat) : Bool :=
  match who with
  | none => storey < 128
  | some p => decide (storey < 128) && s.partOfStorey storey == some p

def State.readPackage (s : State) (off : Nat) : Word :=
  let g := s.pkg
  if off = 0x100 then BitVec.ofNat 32 ((if g.domErr then 4 else 0) + (if g.domGo then 1 else 0))
  else if 0x200 ≤ off && off < 0x240 then BitVec.ofNat 32 (s.hslot ((off - 0x200) / 4))
  else if off = 0x280 then g.redirects
  else if 0x300 ≤ off && off < 0x380 then
    let l := s.landing ((off - 0x300) / 4)
    BitVec.ofNat 32 ((if l.v then 16 else 0) + l.part)
  else if 0x400 ≤ off && off < 0x440 then g.flog.lookD ((off - 0x400) / 4) 0
  else if off = 0x440 then BitVec.ofNat 32 (min g.flogCnt 255)
  else if off = 0x504 then BitVec.ofNat 32 ((if s.debugOk then 8 else 0) + g.life.code)
  else if off = 0x508 then BitVec.ofNat 32 (g.temp % 256 * 2 ^ 24 + g.thr % 4 * 2 ^ 16 + g.power % 4096)
  else 0

def State.readStorey (s : State) (st off : Nat) : Word :=
  let x := s.storey st
  let landing : Nat → Landing := fun n =>
    if (s.landing n).v && s.partOfStorey st == some (s.landing n).part then s.landing n else {}
  if off = 0x000 then x.fbstat
  else if off = 0x00C then x.fsva
  else if off = 0x010 then BitVec.ofNat 32 x.fsdest
  else if off = 0x018 then x.ptrootL
  else if off = 0x01C then x.ptrootH
  else if off = 0x020 then x.saveL
  else if off = 0x024 then x.saveH
  else if off = 0x028 then BitVec.ofNat 32 x.saveCnt
  else if off = 0x02C then BitVec.ofNat 32 ((if x.saveFlt then 2 ^ 31 else 0) + s.freeBlocks st)
  else if 0x100 ≤ off && off < 0x200 then
    if off % 8 = 0 then BitVec.ofNat 32 (landing ((off - 0x100) / 8)).count else (landing ((off - 0x104) / 8)).lstat
  else 0

def State.readSlice (s : State) (n off : Nat) : Word :=
  let x := s.slice n
  if off = 0x100 then BitVec.ofNat 32 x.k
  else if off = 0x104 then BitVec.ofNat 32 x.hmask
  else if off = 0x108 then Word.ofBool x.wb
  else 0

/-- A read of a register; of FBPOP, it pops. Numbers out of range, and other partitions' storeys, read zero. A flight's one
register, VPOOL, stands at the offset that is its register number (log 60, DEDUCED). -/
def State.readReg (s : State) (who : Option Nat) (kind unit off : Nat) : Word × State :=
  if off % 4 ≠ 0 then (0, s)
  else match kind with
  | 0 => if unit = 0 then (s.readPackage off, s) else (0, s)
  | 1 => if !s.reaches who unit then (0, s) else if off = 0x004 then s.fbpop unit else (s.readStorey unit off, s)
  | 2 => if unit < 16 then (s.readSlice unit off, s) else (0, s)
  | 3 => if s.reaches who (unit / 4) && off = 0x300 then (Word.ofBool (s.flight unit).vpool, s) else (0, s)
  | _ => (0, s)

def State.writePackage (s : State) (off : Nat) (v : Word) : State :=
  if off = 0x100 then
    let s1 := if v.getLsbD 2 then s.modPkg fun g => { g with domErr := false } else s
    if v.getLsbD 0 then s1.domainGo else s1
  else if 0x300 ≤ off && off < 0x380 then s.lown ((off - 0x300) / 4) v
  else if off = 0x500 then s.rstctl v
  else s

def State.writeStorey (s : State) (st off : Nat) (v : Word) : State :=
  let idle := (s.imagesOf st).isEmpty
  let set : (Storey → Storey) → State := fun f => s.modStorey st f
  if off = 0x000 then (if v.getLsbD 8 then s.dropClear st else s)
  else if off = 0x008 then s.fscmd st v
  else if off = 0x00C then set fun x => { x with fsva := v }
  else if off = 0x010 then set fun x => { x with fsdest := fieldOf v 0 13 }
  else if off = 0x018 then set fun x => { x with ptrootL := v &&& 0xFFFF0000 }
  else if off = 0x01C then set fun x => { x with ptrootH := v }
  else if off = 0x020 then (if idle then set fun x => { x with saveL := v &&& 0xFFFFF000 } else s)
  else if off = 0x024 then (if idle then set fun x => { x with saveH := v &&& 0xFFFF } else s)
  else if off = 0x028 then (if idle && fieldOf v 0 17 ≤ 65536 then set fun x => { x with saveCnt := fieldOf v 0 17 } else s)
  else if off = 0x02C then (if v.getLsbD 31 then set fun x => { x with saveFlt := false } else s)
  else if 0x100 ≤ off && off < 0x200 && off % 8 = 0 then s.lcfg st ((off - 0x100) / 8) v
  else s

def State.writeSlice (s : State) (n off : Nat) (v : Word) : State :=
  if off = 0x108 then (if v.getLsbD 0 then s.startWb n else s) else s.stage n off v

/-- A write of a register. Only the configuration path writes slice and package registers. -/
def State.writeReg (s : State) (who : Option Nat) (kind unit off : Nat) (v : Word) : State :=
  if off % 4 ≠ 0 then s
  else match kind with
  | 0 => if unit = 0 && who.isNone then s.writePackage off v else s
  | 1 => if s.reaches who unit then s.writeStorey unit off v else s
  | 2 => if unit < 16 && who.isNone then s.writeSlice unit off v else s
  | 3 => if s.reaches who (unit / 4) && off = 0x300 then s.commitFlight unit 0 v else s
  | _ => s

end Sys2Proof.Machine
end

