-- ==== Sys2Proof/Machine/Task.lean ====
section
/-!
DEFINITION. Task: launch records (R79-R80), code objects (R22-R26), process-group tables (R94), admission
(R82), task counters and event words (R83-R84), completion (R88-R90), failure (R91-R92), FLAT launches (R95), and
SPAWN and DEC (R150-R151).
-/

namespace Sys2Proof.Machine

open Sys2Proof

/-! ### Reading a span of a partition's memory -/

/-- What reading a span of global memory through a core's flight port finds. -/
inductive SpanRes where
  | ok (s : State) (bs : List Byte)
  | absent (s : State) (page : Nat)
  | refused (s : State)
  | fenced (s : State)
  deriving DecidableEq, Repr

def State.readSpan (core part : Nat) : Nat → State → Nat → Nat → List Byte → SpanRes
  | 0, s, _, _, acc => .ok s acc
  | f + 1, s, va, n, acc =>
    if n = 0 then .ok s acc
    else
      let k := min n (65536 - va % 65536)
      match s.readPort core part va k with
      | (.ok s1 l, bs) => if s1.locFenced l then .fenced s1 else State.readSpan core part f s1 (va + k) (n - k) (acc ++ bs)
      | (.absent u, _) => .absent u (va / 65536)
      | (.refused u, _) => .refused u

/-- `n` bytes from a global address. -/
def State.span (s : State) (core part va n : Nat) : SpanRes := State.readSpan core part (n / 65536 + 2) s va n []

/-! ### Launch records (R79-R80) -/

def byteAt (bs : List Byte) (o : Nat) : Nat := ((bs.drop o).headD 0).toNat

def parseRecord (bs : List Byte) : Record :=
  { code := dwordAt bs 0
    args := BitVec.ofNat 64 (dwordAt bs 8)
    itemBase := wordAt bs 0x10
    itemCnt := wordAt bs 0x14
    smask := BitVec.ofNat 128 (leNat ((bs.drop 0x18).take 16))
    fmask := BitVec.ofNat 4 (byteAt bs 0x28)
    prio := byteAt bs 0x2A
    pg := byteAt bs 0x2B % 2 == 1
    flat := byteAt bs 0x2B / 2 % 2 == 1
    finish := byteAt bs 0x2C == 1
    succ := (List.range (byteAt bs 0x2D)).map fun i => dwordAt bs (0x90 + 8 * i)
    stages := (List.range (byteAt bs 0x2E)).map fun i => (byteAt bs (0x50 + 4 * i), byteAt bs (0x51 + 4 * i), byteAt bs (0x52 + 4 * i))
    depCnt := wordAt bs 0x30
    wdog := wordAt bs 0x34
    depAddr := dwordAt bs 0x38
    event := dwordAt bs 0x40
    pgt := dwordAt bs 0x48 }

/-- A global address of an aligned word (R80, R83). -/
def isWordVa (a : Nat) : Bool := a / 2 ^ 48 == 0 && a % 4 == 0

/-- The core and offset of a task counter's address. -/
def counterOf (a : Nat) : Option (Nat × Nat) :=
  if fld a 62 2 = 1 && spaceZeros a && fld a 0 19 % 4 = 0 && fld a 0 19 < 0x1000 then some (fld a 32 13, fld a 0 19) else none

/-- Two used stage-map entries overlap. -/
def stagesBad : List (Nat × Nat × Nat) → Bool
  | [] => false
  | e :: r => decide (e.2.1 < e.1) || (r.any fun f => decide (e.1 ≤ f.2.1) && decide (f.1 ≤ e.2.1)) || stagesBad r

/-- DEPADDR breaks the rules of R79 and R83. -/
def State.depBad (s : State) (r : Record) : Bool :=
  if r.depAddr = 0 then r.depCnt != 0
  else match counterOf r.depAddr with
    | some (core, off) => !r.has core || (s.liveCounter core off).isSome
    | none => !isWordVa r.depAddr

/-- R80 (log 45, DEDUCED). -/
def State.recordBad (s : State) (part : Nat) (bs : List Byte) : Bool :=
  let r := parseRecord bs
  let succBad : Nat → Bool := fun a => a != 0 && match counterOf a with
    | some (core, _) => s.partOf core != some part
    | none => !isWordVa a
  byteAt bs 0x2F != 0 || byteAt bs 0x29 != 0 || byteAt bs 0x28 / 16 != 0 || byteAt bs 0x2B / 4 != 0
    || ((List.range (byteAt bs 0x2E)).any fun i => byteAt bs (0x53 + 4 * i) != 0)
    || r.code / 2 ^ 48 != 0 || r.code % 256 != 0
    || (decide (24 ≤ r.prio) && r.prio != 0xFF)
    || decide (1 < byteAt bs 0x2C) || decide (14 < byteAt bs 0x2D) || decide (16 < byteAt bs 0x2E)
    || stagesBad r.stages
    || r.smask == 0 || r.fmask == 0 || (r.smask &&& ~~~(s.part part).smask) != 0
    || decide (2 ^ 32 < r.itemBase + r.itemCnt)
    || (r.flat && !r.pg)
    || s.depBad r
    || r.succ.any succBad

/-! ### Code objects (R22-R26) -/

/-- One bit of CRC-32C. -/
def crcBit (c : Nat) : Nat := if c % 2 = 1 then Nat.xor (c / 2) 0x82F63B78 else c / 2

def crcByte (c : Nat) (b : Byte) : Nat := (List.range 8).foldl (fun c _ => crcBit c) (Nat.xor c b.toNat)

def crc32c (bs : List Byte) : Nat := Nat.xor (bs.foldl crcByte 0xFFFFFFFF) 0xFFFFFFFF

def alignUp (n a : Nat) : Nat := (n + a - 1) / a * a

/-- Where the parts of an object end: after the template image, the data and the declaration table. -/
def objEnds (h : List Byte) : Nat × Nat × Nat :=
  let e0 := 0x40 + wordAt h 0x08
  let e1 := if wordAt h 0x14 = 0 then e0 else alignUp e0 256 + wordAt h 0x14
  let e2 := if wordAt h 0x1C = 0 then e1 else alignUp e1 64 + wordAt h 0x1C
  let n := byteAt h 0x2C + byteAt h 0x2D + byteAt h 0x2E
  (e1, e2, if n = 0 then e2 else alignUp e2 8 + 8 * n)

/-- The header breaks a rule that its 64 bytes show; a volatile range that ends before it begins is one (log 65,
DESIGN CHOICE). -/
def headerBad (h : List Byte) : Bool :=
  let flags := wordAt h 4 / 65536
  let codesz := wordAt h 0x08
  let tplsz := wordAt h 0x14
  let n := byteAt h 0x2C + byteAt h 0x2D + byteAt h 0x2E
  let (e1, e2, e3) := objEnds h
  let volBad : Nat → Nat → Nat → Nat → Bool := fun lo hi least top =>
    !((lo == 0xFF && hi == 0xFF) || (decide (least ≤ lo) && decide (lo ≤ hi) && decide (hi ≤ top)))
  wordAt h 0 != 0x484B5359 || wordAt h 4 % 65536 != 1 || flags / 4 != 0
    || codesz == 0 || codesz % 4 != 0
    || wordAt h 0x0C % 4 != 0 || decide (codesz ≤ wordAt h 0x0C)
    || (if flags % 2 = 1 then wordAt h 0x10 % 4 != 0 || decide (codesz ≤ wordAt h 0x10) else wordAt h 0x10 != 0)
    || tplsz % 256 != 0 || decide (65536 < tplsz) || (flags / 2 == 0 && tplsz != 0)
    || wordAt h 0x18 != (if tplsz = 0 then 0 else e1 - tplsz)
    || wordAt h 0x20 != (if wordAt h 0x1C = 0 then 0 else e2 - wordAt h 0x1C)
    || volBad (byteAt h 0x24) (byteAt h 0x25) 3 31 || volBad (byteAt h 0x26) (byteAt h 0x27) 0 15
    || decide (2047 < wordAt h 0x28 % 65536) || decide (1 < byteAt h 0x2A) || decide (23 < byteAt h 0x2B)
    || decide (6 < byteAt h 0x2C) || decide (32 < byteAt h 0x2D) || decide (8 < byteAt h 0x2E) || byteAt h 0x2F != 0
    || wordAt h 0x30 != (if n = 0 then 0 else e3 - 8 * n)
    || wordAt h 0x34 != e3 || wordAt h 0x38 != 0

/-- The whole object breaks the CRC or holds padding that is not zero. -/
def objectBad (bs : List Byte) : Bool :=
  let (e1, e2, _) := objEnds bs
  let e0 := 0x40 + wordAt bs 0x08
  let zero : Nat → Nat → Bool := fun lo hi => ((bs.drop lo).take (hi - lo)).all fun b => b == 0
  crc32c (bs.take 0x3C ++ [0, 0, 0, 0] ++ bs.drop 0x40) != wordAt bs 0x3C
    || (wordAt bs 0x14 != 0 && !zero e0 (wordAt bs 0x18)) || (wordAt bs 0x1C != 0 && !zero e1 (wordAt bs 0x20))
    || (wordAt bs 0x30 != 0 && !zero e2 (wordAt bs 0x30))

/-- Segment declarations, loaded from the partition's table (R25); of two for one register the later holds (log 65,
DESIGN CHOICE). -/
inductive DeclRes where
  | ok (s : State) (segs : Tab Seg)
  | absent (s : State) (page : Nat)
  | bad (s : State)

def State.loadDecls (core part : Nat) : List (List Byte) → State → Tab Seg → DeclRes
  | [], s, segs => .ok s segs
  | e :: r, s, segs =>
    let rights := wordAt e 0 / 65536
    let idx := wordAt e 4
    if byteAt e 0 ≠ 1 || byteAt e 1 < 2 || 7 < byteAt e 1 || s.sdtLast (storeyOf core) < idx then .bad s
    else match s.readDesc core part (s.sdtBase (storeyOf core)) idx with
    | .absent => .absent s ((s.sdtBase (storeyOf core) + 16 * idx) / 65536)
    | .refused u => .bad u
    | .ok s1 d =>
      if descValid d && !descSup d && (descSeg d).has rights then
        State.loadDecls core part r s1 (segs.put (byteAt e 1) { descSeg d with rights := BitVec.ofNat 16 rights })
      else .bad s1

def hallDeclBad (e : List Byte) : Bool := byteAt e 0 != 2 || byteAt e 1 != 0 || wordAt e 4 != 0
def sketchDeclBad (e : List Byte) : Bool := byteAt e 0 != 3 || decide (7 < byteAt e 1) || wordAt e 0 / 65536 != 0

/-- The declared sketches whose images are valid (R314); of two for one slot the later holds (log 65, DESIGN CHOICE). Bytes
of an image past the end of the object are zero, so that its slot stays detached (log 69, DESIGN CHOICE). -/
def declSketches (bs : List Byte) (ds : List (List Byte)) : Tab Sketch :=
  ds.foldl (fun t e =>
    let off := wordAt e 4
    match (if off % 32 = 0 then sketchDesc ((bs.drop (wordAt bs 0x20 + off)).take 32) else none) with
    | some (some k) => t.put (byteAt e 1) k
    | _ => t.del (byteAt e 1)) []

/-- What checking a code object gives. -/
inductive CodeRes where
  | ok (s : State) (h : Header) (tpl : List Byte)
  | absent (s : State) (page : Nat)
  | bad (s : State) (status : Nat)

/-- The launch unit's checks of a code object, through the home core's storey: a broken header or declaration comes before
a hall that is not defined (log 65, DESIGN CHOICE); what a page that refuses and a fenced function give: log 69, DESIGN CHOICE. -/
def State.loadCode (s : State) (home part code : Nat) : CodeRes :=
  match s.span home part code 64 with
  | .absent u p => .absent u p
  | .refused u => .bad u 4
  | .fenced u => .bad u 6
  | .ok s1 h =>
    if headerBad h then .bad s1 4
    else match s1.span home part code (wordAt h 0x34) with
    | .absent u p => .absent u p
    | .refused u => .bad u 4
    | .fenced u => .bad u 6
    | .ok s2 bs =>
      let decl : Nat → List Byte := fun i => (bs.drop (wordAt h 0x30 + 8 * i)).take 8
      let nseg := byteAt h 0x2C
      let nhall := byteAt h 0x2D
      let hs := (List.range nhall).map fun i => decl (nseg + i)
      let ks := (List.range (byteAt h 0x2E)).map fun i => decl (nseg + nhall + i)
      if objectBad bs || hs.any hallDeclBad || ks.any sketchDeclBad then .bad s2 4
      else
        let sg1 : Seg :=
          { base := BitVec.ofNat 64 (code + 0x40), limit := BitVec.ofNat 32 (wordAt h 0x08)
            rights := BitVec.ofNat 16 (rgtR + rgtX), scope := .pkg }
        match State.loadDecls home part ((List.range nseg).map decl) s2 [(0, s2.userSg0 home), (1, sg1)] with
        | .absent u p => .absent u p
        | .bad u => .bad u 4
        | .ok s3 segs =>
          let halls := hs.map fun e => wordAt e 0 / 65536
          if halls.any fun n => (s3.hallFor part n).isNone then .bad s3 7
          else
            let tplsz := wordAt h 0x14
            .ok s3
              { pro := wordAt h 4 / 65536 % 2 == 1, codeSz := wordAt h 0x08, entry := wordAt h 0x0C, proEnt := wordAt h 0x10
                tplSz := tplsz, tplOff := wordAt h 0x18, dataOff := wordAt h 0x20
                volS := (byteAt h 0x24, byteAt h 0x25), volV := (byteAt h 0x26, byteAt h 0x27)
                shNeed := wordAt h 0x28 % 65536, prio := byteAt h 0x2B, segs := segs, halls := halls
                sketches := declSketches bs ks }
              ((bs.drop (wordAt h 0x18)).take tplsz)

/-! ### Process groups (R94-R95) -/

/-- A launch's place in its group. -/
structure Group where
  rank : Nat := 0
  nranks : Nat := 1
  key : Nat := 0
  split : Bool := false
  fabrics : List Nat := []

inductive GroupRes where
  | ok (s : State) (g : Group)
  | absent (s : State) (page : Nat)
  | bad (s : State)

def State.loadGroup (s : State) (home part pgt : Nat) : GroupRes :=
  if pgt / 2 ^ 48 ≠ 0 then .bad s
  else match s.span home part pgt 16 with
  | .absent u p => .absent u p
  | .refused u => .bad u
  | .fenced u => .bad u
  | .ok s1 h =>
    let n := wordAt h 0
    if n = 0 || 4096 < n || 1 < wordAt h 8 || wordAt h 12 ≠ 0 then .bad s1
    else match s1.span home part (pgt + 16) (8 * n) with
    | .absent u p => .absent u p
    | .refused u => .bad u
    | .fenced u => .bad u
    | .ok s2 bs =>
      let fs := (List.range n).map fun i => wordAt bs (8 * i)
      if (List.range n).any (fun i => wordAt bs (8 * i + 4) != 0) || fs.count Config.fabricId ≠ 1 then .bad s2
      else .ok s2 { rank := fs.findIdx (· == Config.fabricId), nranks := n, key := wordAt h 4, split := wordAt h 8 == 1, fabrics := fs }

/-- The share of a package: first item and count (R94); of a FLAT launch, the items of its cores (R95). -/
def Group.share (g : Group) (r : Record) : Nat × Nat :=
  if r.flat then
    let c := r.cores.length
    let rem := r.itemCnt % (g.nranks * c)
    (r.itemBase + g.rank * c, r.itemCnt / (g.nranks * c) * c + min c (rem - g.rank * c))
  else if g.split then
    let lo := g.rank * r.itemCnt / g.nranks
    (r.itemBase + lo, (g.rank + 1) * r.itemCnt / g.nranks - lo)
  else (r.itemBase, r.itemCnt)

/-! ### Counters and event words (R83-R84) -/

/-- Writes a counter's word as the task unit does. -/
def State.setCount (s : State) (core off v : Nat) : State :=
  (s.modMemory fun m => { m with sram := m.sram.setMany (sramAddr core off) (leBytes 4 v) }).noteWrite
    ((s.partOf core).getD 16) (.sram core off) 4

/-- The event word of a global address, through a storey's translation. -/
def State.eventPlace (s : State) (home part va : Nat) : UnitRes := s.unitWalk (storeyOf home) part va .atomic

/-- COUNT := max(COUNT - n, 0), with ERR as it is. -/
def decWord (w : Word) (n : Nat) : Word := (w &&& 0x80000000) ||| BitVec.ofNat 32 ((w.toNat % 2 ^ 31) - n)

def State.decEventAt (s : State) (part : Nat) (l : Loc) (n : Nat) : State :=
  s.writeEng part 0 l (leBytes 4 (decWord (BitVec.ofNat 32 (leNat (s.readEng part l 4))) n).toNat)

/-! ### Readiness (R81, R85) -/

/-- The registers of a task's first thread (R81). -/
def Task.firstRegs (t : Task) : Regs :=
  { s := [(1, BitVec.ofNat 32 t.first), (3, t.record.args.truncate 32),
      (4, BitVec.ofNat 32 (t.record.args.toNat / 2 ^ 32)), (5, BitVec.ofNat 32 t.count)] }

/-- Enters a task in the run lists of its core set. -/
def State.enlist (s : State) (n : Nat) (t : Task) : State :=
  t.record.cores.foldl (fun s c => s.modCore c fun x =>
    { x with runList := x.runList.put t.prio (x.runList.lookD t.prio [] ++ [.task n]) }) s

/-- A rank's part of a FLAT launch of this package (R95). Only rank 0 signals the launch's completion, so a woken rank holds
no successor, no event word and no counter. -/
def Task.onRank (t : Task) (n rank : Nat) : Task :=
  let sh := ({ rank := rank, nranks := t.nranks, key := t.group, fabrics := t.fabrics } : Group).share t.record
  { t with
    record := { t.record with succ := [], event := 0, depAddr := 0, depCnt := 0 }
    rank := rank, first := sh.1, count := sh.2, host := false, origin := some (Config.fabricId, n) }

/-- The wake messages of a FLAT launch to the other ranks. -/
def State.flood (s : State) (n : Nat) (t : Task) : State :=
  if t.record.flat && t.rank = 0 && t.origin.isNone then
    { s with out := s.out ++ (t.fabrics.zipIdx.filter fun f => f.2 != 0).map fun f => .peer f.1 (.wake (t.onRank n f.2)) }
  else s

/-- A task becomes ready. Without a prologue its first state is its forme. -/
def State.makeReady (s : State) (n : Nat) : State :=
  match s.task? n with
  | none => s
  | some t =>
    if t.ready || t.status ≠ 0 then s
    else
      let s1 := (s.flood n t).modTask n fun t =>
        { t with
          ready := true
          readyAt := s.cycle
          compose := if t.hdr.pro then .waiting else .ready
          composed := !t.hdr.pro
          forme := if t.hdr.pro then none else some { task := n, regs := t.firstRegs, segs := t.hdr.segs } }
      if t.record.itemCnt = 0 then s1 else s1.enlist n t

/-- A held launch looks at its event word. -/
def State.pollTask (s : State) (n : Nat) (t : Task) : State :=
  if t.ready || t.status ≠ 0 || fld t.record.depAddr 62 2 ≠ 0 || t.record.depAddr = 0 then s
  else match s.eventPlace t.record.home t.part t.record.depAddr with
  | .ok _ l =>
    let w := s.wordAtLoc t.part l
    if w.getLsbD 31 then s.failTask n 1 none
    else if w = 0 then s.makeReady n else s
  | .absent u => u
  | .refused u => u

/-- Every held launch looks at its event word. -/
def State.pollHeld (s : State) : State := s.pkg.tasks.foldl (fun s t => s.pollTask t.1 t.2) s

/-- A DEC reaches a task unit (R84). The whole of its word 1 is subtracted (log 65, DESIGN CHOICE). -/
def State.decTask (s : State) (core off n : Nat) : State :=
  match (if off < 0x1000 then s.liveCounter core off else none) with
  | none => s
  | some k =>
    let o := off / 4 * 4
    let c := (s.tcmWord core o).toNat
    let s1 := if c < n || c = 0 then s.modTask k fun t => { t with decErr := true } else s
    if c = 0 then s1
    else
      let s2 := s1.setCount core o (c - n)
      if c ≤ n then s2.makeReady k else s2

/-- An error token reaches a task unit (R92) (log 46, DEDUCED). -/
def State.tokenTask (s : State) (core off : Nat) : State :=
  match (if off < 0x1000 then s.liveCounter core off else none) with
  | none => s
  | some k => s.failTask k 1 none

/-! ### Admission (R82) -/

inductive Admit where
  | ok (s : State)
  | absent (s : State) (home page : Nat)

/-- Adds a task under the next number. -/
def State.addTask (s : State) (t : Task) : State :=
  s.modPkg fun g => { g with tasks := g.tasks.put g.nextTask t, nextTask := g.nextTask + 1 }

/-- A launch that fails at admission: it completes with a status and runs nothing. -/
def failedTask (part : Nat) (hseq : Word) (host : Bool) (r : Record) (status : Nat) : Task :=
  { part := part, hseq := hseq, host := host, record := r
    hdr := ⟨false, 0, 0, 0, 0, 0, 0, (0xFF, 0xFF), (0xFF, 0xFF), 0, 0, [], [], []⟩
    prio := 0, count := r.itemCnt, frozen := true, status := status }

/-- The task of an admitted launch, with its counter set (log 44, DEDUCED). -/
def State.admitTask (s : State) (t : Task) : State :=
  let n := s.pkg.nextTask
  let s1 := match counterOf t.record.depAddr with
    | some (core, off) => s.setCount core off t.record.depCnt
    | none => s
  let s2 := s1.addTask t
  if t.status ≠ 0 then s2
  else if (t.record.depAddr = 0 || (counterOf t.record.depAddr).isSome) && t.record.depCnt = 0 then s2.makeReady n
  else s2.pollTask n t

/-- Admits a launch record of a partition; a page that is not present delays the admission. -/
def State.admitRecord (s : State) (part : Nat) (hseq : Word) (host : Bool) (bs : List Byte) : Admit :=
  let r := parseRecord bs
  let bare := { r with depAddr := 0, succ := [], event := 0 }
  let refuse : State → Admit := fun u => .ok (u.addTask (failedTask part hseq host bare 5))
  if s.recordBad part bs then refuse s
  else
    let home := r.home
    let next : State → Group → Admit := fun s1 g =>
      match (if isWordVa r.depAddr && r.depAddr ≠ 0 then s1.eventPlace home part r.depAddr else .ok s1 (.phys .stack 0 0)) with
      | .absent _ => .absent s1 home (r.depAddr / 65536)
      | .refused u => refuse u
      | .ok s2 l =>
        let stack : Bool := match l with
          | .phys .stack _ _ => true
          | _ => false
        if !stack then refuse s2
        else match s2.loadCode home part r.code with
        | .absent u p => .absent u home p
        | .bad u st => .ok (u.admitTask (failedTask part hseq host r st))
        | .ok s3 h tpl =>
          let sh := g.share r
          let t : Task :=
            { part := part, hseq := hseq, host := host, record := r, hdr := h
              prio := if r.prio = 0xFF then h.prio else r.prio
              rank := g.rank, nranks := g.nranks, group := g.key, fabrics := g.fabrics, first := sh.1, count := sh.2, image := tpl }
          .ok (s3.admitTask t)
    if r.pg then match s.loadGroup home part r.pgt with
      | .absent u p => .absent u home p
      | .bad u => refuse u
      | .ok s1 g => next s1 g
    else next s {}

/-- A launch waits for a page of its home storey. -/
def State.admitStall (s : State) (home page : Nat) : State := s.pageFaulted (storeyOf home) page .read (flightOf home)

/-- The oldest launch tuple (p, PRIO, any, 0) at the highest priority of a partition's hall, with its slice (R75). -/
def State.launchTuple (s : State) (p : Nat) : Option (Nat × Tuple) :=
  let mine : Tuple → Bool := fun t =>
    t.hall == 0xFFF0 + p && (t.f.getD 0 0).toNat == p && (t.f.getD 3 0).toNat == 0
  let ts := ((List.range 16).map fun n => ((s.slice n).tuples.filter mine).map fun t => (n, t)).flatten
  let pr : Nat × Tuple → Nat := fun t => (t.2.f.getD 1 0).toNat
  minBy (fun t => 2 ^ 32 - pr t) (ts.filter fun t => pr t < 24)

/-- The partition that the launch unit visits next. -/
def State.nextLaunch (s : State) : Option Nat :=
  ((List.range 16).map fun i => (s.pkg.turn + i) % 16).find? fun p => (s.part p).tdi == .run && (s.launchTuple p).isSome

/-- LAUNCH_ADMIT. -/
def execLaunchAdmit (part : Nat) (s : State) : Host.Outcome State Fault Refusal :=
  .next (if 4096 ≤ s.pkg.tasks.length || s.pkg.thr = 3 || s.nextLaunch ≠ some part then s
    else match s.launchTuple part with
    | none => s
    | some (n, t) =>
      let s1 := s.modPkg fun g => { g with turn := (part + 1) % 16 }
      let p := s1.payloadRead part n t
      match p.1.admitRecord part (t.f.getD 2 0) true p.2.1 with
      | .absent u home page => u.admitStall home page
      | .ok s2 => (s2.modSlice n fun x => { x with tuples := x.tuples.filter fun u => u.seq != t.seq }).freeHeap n t)

/-! ### Messages of the task unit (R84, R92, R95) -/

/-- The deferred FENCED trap of a store to a fenced target: the first address stays (R390, R405) (log 41, DEDUCED). -/
def State.deferFenced (s : State) (id : Nat) (a : Addr) : State :=
  s.modAny id fun t => { t with fencedTrap := t.fencedTrap <|> some a }

/-- Answers a request without effect at a fenced core: acknowledged, with the sender's deferred trap. -/
def State.fencedAck (s : State) (core : Nat) (sender : Option Nat) (a : Addr) : State :=
  match sender with
  | some id => (s.deferFenced id a).sendAck core id
  | none => s

def State.ackTo (s : State) (core : Nat) (sender : Option Nat) : State :=
  match sender with
  | some id => s.sendAck core id
  | none => s

/-- The task of a counter is a continuation of a system hall: its threads' start acquires at that scope (R229, R292). -/
def State.noteSys (s : State) (sys : Bool) (core off : Nat) : State :=
  match (if sys then s.liveCounter core off else none) with
  | some k => s.modTask k fun t => { t with sysStart := true }
  | none => s

def execDecMessage (act : Nat) (s : State) : Host.Outcome State Fault Refusal :=
  .next (match s.ready? act with
    | some (.dec sender core off n sys) =>
      let s1 := (s.dropAct act).noteSys sys core off
      if s.coreFenced core then s1.fencedAck core sender (BitVec.ofNat 64 (localAddr core off))
      else if s.coreWiping core then s
      else (s1.decTask core off n).ackTo core sender
    | _ => s)

def execErrorToken (act : Nat) (s : State) : Host.Outcome State Fault Refusal :=
  .next (match s.ready? act with
    | some (.token core off) => if s.coreFenced core then s.dropAct act else if s.coreWiping core then s else (s.dropAct act).tokenTask core off
    | _ => s)

/-- WAKE_MESSAGE: another rank's FLAT launch enters the run lists here, unless the package admits none (R423, R425). -/
def execWakeMessage (act : Nat) (s : State) : Host.Outcome State Fault Refusal :=
  .next (match s.ready? act with
    | some (.wake t) => if 4096 ≤ s.pkg.tasks.length || s.pkg.thr = 3 || s.pkg.state ≠ .active then s else
      ((s.dropAct act).addTask { t with ready := false, host := false }).makeReady s.pkg.nextTask
    | _ => s)

/-- RANK_COMPLETION_REPORT. -/
def execRankCompletionReport (act : Nat) (s : State) : Host.Outcome State Fault Refusal :=
  .next (match s.ready? act with
    | some (.rankReport task rank ran status erred f) =>
      let s1 := (s.dropAct act).modTask task fun t =>
        { t with reports := insertNat rank t.reports, ran := t.ran + ran, erred := t.erred + erred }
      if status ≠ 0 then s1.failTask task status f else s1
    | _ => s)

/-! ### The watchdog (R91) -/

def Task.expired (t : Task) (cycle : Nat) : Bool :=
  t.ready && t.status == 0 && t.record.wdog != 0 && decide (t.readyAt + t.record.wdog * 65536 ≤ cycle)

/-- WATCHDOG_EXPIRY: the queue is frozen, running threads trap, and under STOP the work that does not run is
cancelled. -/
def execWatchdogExpiry (task : Nat) (s : State) : Host.Outcome State Fault Refusal :=
  .next (match s.task? task with
    | some t =>
      if !t.expired s.cycle then s
      else
        let s1 := s.modTask task fun t => { t with frozen := true, status := 3 }
        let s2 := if t.record.finish then s1 else (s1.imagesOfTask task).foldl State.dropImage (s1.dropSubs task)
        (s2.threadsOf task).foldl (fun s id => s.modThr id fun x => { x with watchdogTrap := true }) s2
    | none => s)

/-! ### Completion (R88-R90) -/

/-- No thread, image or sub-item of a task is left. -/
def State.taskIdle (s : State) (n : Nat) : Bool :=
  (s.threadsOf n).isEmpty && (s.imagesOfTask n).isEmpty && !(s.cores.any fun c => c.2.subs.any fun w => w.task == n)

/-- The thread whose writes an act still has to perform. -/
def ActKind.writer : ActKind → Option Nat
  | .store i _ _ _ | .amo i _ _ _ _ _ _ _ _ _ | .scHold i _ _ _ _ _ _ _ _ _ | .feclr i _ _ _ => some i
  | .decEvent i _ _ _ | .fill i _ _ _ _ _ _ | .msg i _ _ | .dec i _ _ _ _ => i
  | .sync r _ _ => some r.slot
  | .copy c => some c.slot
  | .near n => some n.slot
  | .sketch i _ _ _ _ => some i
  | .trigger i _ _ _ (some _) => some i
  | .gal r _ _ | .delivery r _ _ _ _ | .retry r _ _ | .redirect r _ => if r.mode = .cont then none else r.slot
  | .remap i _ _ _ _ _ | .remapCfg i _ _ _ _ _ => some i
  | .bounced k => k.writer
  | _ => none

/-- The names of the threads of a task that have ended. -/
def deadOf (n id : Nat) : Bool :=
  decide (deadBase + (n + 1) * 131072 ≤ id) && decide (id < deadBase + (n + 2) * 131072)

/-- A write of a thread of a task that has ended is still on its way, combined in a core, or waiting at its word (R88). -/
def State.writesLeft (s : State) (n : Nat) : Bool :=
  (s.acts.any fun a => (a.2.kind.writer).any (deadOf n)) || (s.cores.any fun c => c.2.wcb.any fun e => deadOf n e.slot)
    || s.memory.syncQ.any fun q => (q.2.full ++ q.2.empty).any fun r => deadOf n r.slot

/-- The release that ends a task sends what the cores combine for its threads (R88). -/
def State.releaseTask (s : State) (n : Nat) : State :=
  (s.cores.filter fun c => c.2.wcb.any fun e => deadOf n e.slot).foldl (fun u c => u.flushWcb c.1 fun e => deadOf n e.slot) s

/-- A task has come to its end: nothing of it is left, and a FLAT launch that was ready has every rank's report (R95). -/
def State.taskDone (s : State) (n : Nat) (t : Task) : Bool :=
  s.taskIdle n &&
  (t.status != 0 ||
    (t.ready && (t.record.itemCnt == 0 ||
      (t.composed && t.record.cores.all fun c => (t.nextItem c).isNone)))) &&
  (!t.record.flat || !t.ready || t.rank != 0 || t.origin.isSome || t.reports.length + 1 == t.nranks)

/-- The completion record. -/
def Task.completion (t : Task) (cycle : Nat) : List Byte :=
  let f := t.fail.getD ⟨0xFFFFFFFF, 0, 0, 0, 0⟩
  let total := if t.record.flat && t.rank = 0 then t.record.itemCnt else t.count
  leBytes 4 t.hseq.toNat ++ leBytes 1 t.status ++ leBytes 1 (if t.decErr then 1 else 0) ++ leBytes 2 0
    ++ leBytes 8 t.readyAt ++ leBytes 8 cycle ++ leBytes 4 t.ran ++ leBytes 4 (total - t.ran - t.erred)
    ++ leBytes 4 f.item.toNat ++ leBytes 4 f.cause.toNat ++ leBytes 4 f.val.toNat ++ leBytes 4 f.pc.toNat
    ++ leBytes 4 f.slot.toNat ++ List.replicate 204 0

/-- What a completion sends to a successor or to its event word: a DEC of 1, or a token; an EVENT field may name a task
counter (log 61, DESIGN CHOICE). An event word whose page refuses the access, or whose function is fenced, is left as it is
(log 69, DESIGN CHOICE). -/
def State.signal (s : State) (t : Task) (a : Nat) : State :=
  if a = 0 then s
  else match counterOf a with
    | some (core, off) =>
      if t.status = 0 then s.send .request t.record.home core (.dec none core off 1 false)
      else s.send .request t.record.home core (.token core off)
    | none => match s.eventPlace t.record.home t.part a with
      | .ok s1 l =>
        let s1 := s1.countAt (storeyOf t.record.home) t.part l
        if s1.locFenced l then s1
        else if t.status = 0 then s1.decEventAt t.part l 1
        else s1.writeLoc t.part 0 l (leBytes 4 (s1.wordAtLoc t.part l ||| 0x80000000).toNat)
      | _ => s

/-- The first event word that a completion writes whose page is not present. -/
def State.signalAbsent (s : State) (t : Task) : Option Nat :=
  (t.record.succ ++ [t.record.event]).find? fun a => a != 0 && (counterOf a).isNone &&
    match s.eventPlace t.record.home t.part a with
    | .absent _ => true
    | _ => false

/-- An event word that a completion writes lies in a page whose writes a migration holds (R185). -/
def State.signalHeld (s : State) (t : Task) : Bool :=
  (t.record.succ ++ [t.record.event]).any fun a => a != 0 && (counterOf a).isNone &&
    match s.eventPlace t.record.home t.part a with
    | .ok u l => u.migrationHolds l
    | _ => false

/-- Removes entries of a core's run list; the place of the entry served last stays (R85). -/
def Core.dropRun (c : Core) (p : RunItem → Bool) : Core :=
  let before : Nat → Nat := fun lv => (((c.runList.lookD lv []).take (c.lastServed.lookD lv 0)).filter p).length
  { c with
    lastServed := c.lastServed.mapVals fun lv n => n - before lv
    runList := c.runList.mapVals fun _ l => l.filter fun i => !p i }

/-- Takes a task from the run lists, with its formes on every core. -/
def State.forget (s : State) (n : Nat) : State :=
  let s1 := { s with cores := s.cores.mapVals fun _ c => c.dropRun fun i => i == RunItem.task n }
  let held := (s1.cores.filter fun c => (c.2.formes.look (formeKey n)).isSome).map Prod.fst
  (held.foldl (fun s c => s.releaseForme c (formeKey n)) s1).modPkg fun g => { g with tasks := g.tasks.del n }

/-- The completion tuple of a launch taken from a hall (R76), with the host's interrupt; none while the completion
hall has no room. -/
def State.putCompletion (s : State) (t : Task) : Option State :=
  let hall := 0xFFE0 + t.part
  let key : VWord := ofLanes 32 [t.part, t.hseq.toNat, t.status, 0, 256, 0]
  match s.hall? hall with
  | none => none
  | some h =>
    let slice := s.homeSlice hall h key
    let r := s.servePut slice h (tupleOf hall key .none) (some (t.completion s.cycle, stOK)) none
    if r.2 = stOK || r.2 = stTAKEN then some (r.1.msix (t.part + 1) 0) else none

/-- What follows the signals of a completion: a rank's report, the completion tuple, or nothing. -/
def State.endTask (s : State) (task : Nat) (t : Task) : Option State :=
  match t.origin with
  | some (fabric, n) =>
    some ({ s with out := s.out ++ [OutMsg.peer fabric (.rankReport n t.rank t.ran t.status t.erred t.fail)] }.forget task)
  | none =>
    if t.host then (s.putCompletion t).map fun u => (u.forget task).pollHeld else some ((s.forget task).pollHeld)

/-- TASK_COMPLETION: the release, the signals, then the completion tuple. While the tuple has no room, the whole completion
waits (log 61, DESIGN CHOICE). -/
def execTaskCompletion (task : Nat) (s : State) : Host.Outcome State Fault Refusal :=
  .next (match s.task? task with
    | none => s
    | some t =>
      if !s.taskDone task t then s
      else if s.writesLeft task then s.releaseTask task
      else match s.signalAbsent t with
      | some a => s.pageFaulted (storeyOf t.record.home) (a / 65536) .atomic (flightOf t.record.home)
      | none => if s.signalHeld t then s else (((t.record.succ ++ [t.record.event]).foldl (fun s a => s.signal t a) s).endTask task t).getD s)

/-! ### SPAWN and DEC (R150-R151) -/

def execSpawn (a : BitVec 5) (s : State) : Host.Outcome State Fault Refusal :=
  s.perform [.s a.toNat] fun t =>
    let off := (t.rS a.toNat).toNat
    match t.checkOffset 0 off 256 rgtR 64 [0, 1] with
    | some (c, v) => .trap c v
    | none => match t.relWait with
      | some w => .park w
      | none =>
        if 4096 ≤ t.pkg.tasks.length || t.pkg.thr = 3 then .park .taskRoom
        else match t.sendAll.recordAt off 256 with
        | .stop r => r
        | .ok bs => match t.sendAll.admitRecord t.myPart 0 false bs with
          | .ok u => .ok u
          | .absent _ home page => .park (.page (storeyOf home) page .read (page * 65536))

def execDec (a b : BitVec 5) (s : State) : Host.Outcome State Fault Refusal :=
  s.perform [.s a.toNat, .s b.toNat] fun t =>
    let sel := t.rS a.toNat
    let n := fieldOf (t.rS b.toNat) 0 16
    let core := fieldOf sel 19 13
    if fieldOf sel 0 2 ≠ 0 then .trap 5 (sel.zeroExtend 64)
    else if fieldOf sel 12 7 ≠ 0 then .trap 3 (sel.zeroExtend 64)
    else match t.relWait with
    | some w => .park w
    | none =>
      if n = 0 || !t.inMyPart core then .ok t.sendAll
      else .ok ((t.sendAll.addUnack t.cur).sendDec t.myCore sel n (some t.cur))

def execDecEvent (seg : BitVec 3) (a b : BitVec 5) (s : State) : Host.Outcome State Fault Refusal :=
  s.perform [.s a.toNat, .s b.toNat] fun t =>
    let off : Int := (t.rS a.toNat).toNat
    let addr := t.segAddr seg.toNat off
    let n := fieldOf (t.rS b.toNat) 0 31
    match t.checkAccess seg.toNat off 4 (rgtR + rgtW + rgtA) 4 [0, 1] with
    | some (c, v) => .trap c v
    | none => match t.relWait with
      | some w => .park w
      | none =>
        let away : State → Loc → Res := fun u l =>
          .ok ((u.addUnack u.cur).send .request u.myCore (u.unitOf l) (.decEvent (some u.cur) addr l n))
        match t.target addr with
        | .own o =>
          if (t.core t.myCore).movingBytes o 4 then .park (.split t.myCore o 4)
          else match t.tcmWrite t.cur o with
            | none => .trap 10 addr
            | some (u, o', fault) =>
              let u1 := if fault then u.copyFault else u
              let u2 := if (t.granuleAt t.cur o).isSome then u1 else u1.markWritten t.cur o
              .ok (u2.sendAll.decEventAt t.myPart (.sram t.myCore o') n)
        | .core c o => away t.sendAll (.sram c o)
        | .global va =>
          if (t.windowAt t.myPart va).isSome then .trap 6 addr
          else match t.translate t.myCore t.myPart va .atomic with
            | .wait w => .park w
            | .ok u e => if e.cls = .host then .trap 4 addr else away u.sendAll (.phys e.cls (e.phys va) e.key)
        | .sys _ _ _ => .trap 4 addr

end Sys2Proof.Machine
end

