-- ==== Sys2Proof/Machine/Message.lean ====
section
/-!
DEFINITION. Message: MSG, RPUT and RPUTV, presence bits and WFM (R146-R149), arriving messages and handler threads
(R134-R136), fills from other cores (R127), packets of the communication threads (R328-R329, R351).
-/

namespace Sys2Proof.Machine

open Sys2Proof

/-! ### MSG and RPUT (R146-R147) -/

/-- s18 of a message that a thread sends (R135). -/
def msgOrigin (slotid type : Nat) : Word := BitVec.ofNat 32 (coreOf slotid * 2 ^ 12 + slotOf slotid * 2 ^ 8 + type)

def execMsg (d a b : BitVec 5) (s : State) : Host.Outcome State Fault Refusal :=
  s.perform [.s d.toNat, .s a.toNat, .s b.toNat] fun t =>
    let w := t.rS d.toNat
    let type := fieldOf w 0 8
    let core := fieldOf w 8 13
    if type = 0x3E || type = 0x3F || (t.me.userMode && type < 0x40) then .trap 2 (w.zeroExtend 64)
    else if !t.inMyPart core then .ok t
    else match t.unackWait with
    | some p => .park p
    | none => .ok ((t.addUnack t.cur).send .request t.myCore core
        (.msg (some t.cur) core ⟨type, t.rS a.toNat, t.rS b.toNat, msgOrigin t.cur type⟩))

/-- A fill through a register selector. The window address is formed of CORE and a[11:0]; one whose bits 1 and 0 are not
zero is discarded at the target (log 19, DEDUCED). -/
def State.rput (s : State) (sel : Word) (vec : Bool) (v : VWord) : Res :=
  let core := fieldOf sel 19 13
  if !s.inMyPart core then .ok s
  else match s.unackWait with
  | some p => .park p
  | none => .ok ((s.addUnack s.cur).send .request s.myCore core
      (.fill (some s.cur) core (fieldOf sel 8 4) vec (fieldOf sel 2 5) v (fieldOf sel 0 2 == 0)))

def execRput (a b : BitVec 5) (s : State) : Host.Outcome State Fault Refusal :=
  s.perform [.s a.toNat, .s b.toNat] fun t => t.rput (t.rS a.toNat) false ((t.rS b.toNat).zeroExtend 512)

def execRputv (vd : BitVec 4) (a : BitVec 5) (s : State) : Host.Outcome State Fault Refusal :=
  s.perform [.s a.toNat, .v vd.toNat] fun t => t.rput (t.rS a.toNat) true (t.rV vd.toNat)

/-! ### Presence bits (R148) -/

/-- Clears the presence bit of a scalar register and keeps its value. -/
def State.emptyS (s : State) (n : Nat) : State :=
  if n = 0 || (slotOf s.cur = 0 && 28 ≤ n) then s
  else
    let v := s.rS n
    s.modRegs s.cur fun r => { r with s := r.s.put n v, sFull := setBit r.sFull n false, sOwn := setBit r.sOwn n true }

def execEmpty (d : BitVec 5) (s : State) : Host.Outcome State Fault Refusal :=
  s.perform [] fun t => .ok (t.emptyS d.toNat)

def execEmptyv (vd : BitVec 4) (s : State) : Host.Outcome State Fault Refusal :=
  s.perform [] fun t =>
    .ok (if t.me.regs.vOwn.getLsbD vd.toNat then t.emptyV vd.toNat else (t.emptyV vd.toNat).delay 4)

def execTestp (d x : BitVec 5) (s : State) : Host.Outcome State Fault Refusal :=
  s.alu d.toNat [] fun t => Word.ofBool (t.sFullOf t.cur x.toNat)

def execTestpVector (d : BitVec 5) (x : BitVec 4) (s : State) : Host.Outcome State Fault Refusal :=
  s.alu d.toNat [] fun t => Word.ofBool (t.vFullOf t.cur x.toNat)

/-! ### WFM (R149) -/

/-- The presence bits of s16-s31 and v8-v15. -/
def State.exposed (s : State) : Word :=
  (List.range 24).foldl (fun w i => setBit w i (if i < 16 then s.sFullOf s.cur (16 + i) else s.vFullOf s.cur (i - 8))) 0

/-- The empty exposed registers; in slot 0, s29 and s31 are left out. -/
def State.exposedEmpty (s : State) : Word :=
  let e := ~~~s.exposed &&& 0x00FFFFFF
  if slotOf s.cur = 0 then e &&& ~~~(0xA000 : Word) else e

def execWfm (d : BitVec 5) (s : State) : Host.Outcome State Fault Refusal :=
  s.perform [.d d.toNat] fun t =>
    if t.me.ans.isSome then .ok ((t.modMe fun x => { x with ans := none }).wS d.toNat t.exposed)
    else if t.exposedEmpty = 0 then .ok (t.wS d.toNat t.exposed)
    else .stay t (.fillOf t.exposedEmpty)

/-! ### Arriving messages (R134-R136) -/

/-- What becomes of a message: accepted, held back, or waiting for a page. -/
inductive MsgRes where
  | taken (s : State)
  | held (s : State)

/-- Accepts a message that starts a thread: class handler waits in the core's queue, class work in its run list. -/
def State.queueMsg (s : State) (core cls prio : Nat) (m : Message) : MsgRes :=
  if cls = 1 then
    if 64 ≤ (s.core core).msgs.length then .held s else .taken (s.modCore core fun c => { c with msgs := c.msgs ++ [m] })
  else .taken (s.modCore core fun c => { c with runList := c.runList.put prio (c.runList.lookD prio [] ++ [.msg m]) })

def State.vecStall (s : State) (core page : Nat) : State := s.pageFaulted (storeyOf core) page .read (flightOf core)

/-- A message at its core: one whose descriptor's page is not present waits with the others, and its start waits for the page
(R133-R134). -/
def State.acceptMsg (s : State) (core : Nat) (m : Message) : MsgRes :=
  if m.type = 0 then .taken s
  else if m.type = 1 then .taken (if m.w1 = 0 then s else s.decTask core m.w0.toNat m.w1.toNat)
  else if m.type = 4 then .taken (s.tokenTask core m.w0.toNat)
  else match s.vecEntry core m.type with
  | .absent _ cls prio => s.queueMsg core cls prio m
  | .usable s1 cls prio _ _ => s1.queueMsg core cls prio m
  | .unusable s1 => match s1.vecEntry core 0x3F with
    | .absent _ cls prio => s1.queueMsg core cls prio m
    | .usable s2 cls prio _ _ => s2.queueMsg core cls prio m
    | .unusable s2 => .taken s2

def execMessageArrival (act : Nat) (s : State) : Host.Outcome State Fault Refusal :=
  .next (match s.ready? act with
    | some (.msg sender core m) =>
      if s.coreFenced core then (s.dropAct act).fencedAck core sender (BitVec.ofNat 64 (localAddr core 0))
      else if s.coreWiping core then s
      else match s.acceptMsg core m with
        | .taken s1 => (s1.dropAct act).ackTo core sender
        | .held s1 => s1
    | _ => s)

/-- The thread that a message starts: through its own entry, or through entry 0x3F as a trap. -/
inductive StartRes where
  | start (s : State) (t : Thread) (prio : Nat)
  | discard (s : State)
  | absent (page : Nat)

def State.msgThread (s : State) (core : Nat) (kind : ThreadKind) (m : Message) : StartRes :=
  match s.vecEntry core m.type with
  | .absent page _ _ => .absent page
  | .usable u _ prio entry seg => .start u (s.handlerThread core kind entry seg (some m)) prio
  | .unusable s1 => match s1.vecEntry core 0x3F with
    | .absent page _ _ => .absent page
    | .unusable s2 => .discard s2
    | .usable u _ prio entry seg =>
      let t := s.handlerThread core kind entry seg (some m)
      .start u { t with sys := t.sys.trapped 13 (BitVec.ofNat 64 m.type) 0, savedSeg := seg, trapActive := true } prio

/-- The priority at which a queued message is served, by the table as it stands then (log 72, DESIGN CHOICE). -/
def State.msgPrio (s : State) (core : Nat) (m : Message) : Nat :=
  match s.vecEntry core m.type with
  | .usable _ _ prio _ _ => prio
  | .absent _ _ prio => prio
  | .unusable _ => match s.vecEntry core 0x3F with
    | .usable _ _ prio _ _ => prio
    | .absent _ _ prio => prio
    | .unusable _ => 0

/-- The class of a slot in SLOTCLS (R117-R118). -/
def Core.slotClass (c : Core) (slot : Nat) : Nat := fieldOf c.slotcls (2 * slot) 2

/-- A slot that can take a new thread of a class; none starts in STANDBY (R423), nor before the wipe of a debug reset (R419). -/
def State.slotFree (s : State) (core slot cls : Nat) : Bool :=
  decide (core < 8192) && decide (0 < slot) && decide (slot < 16) && (s.core core).slotClass slot == cls
    && (s.thr? (slotidOf core slot)).isNone && !(s.images.any fun im => im.2.slot == slotidOf core slot && !im.2.saved)
    && !s.coreFenced core && !s.coreWiping core && !(s.core core).resetting && (s.partOf core).isSome && s.pkg.state == .active

/-- HANDLER_THREAD_START: highest PRIO first, in arrival order. The start is an acquire (R146). -/
def execHandlerThreadStart (core slot : Nat) (s : State) : Host.Outcome State Fault Refusal :=
  .next (if !s.slotFree core slot 1 then s
    else match minBy (fun m => 32 - s.msgPrio core m.1) (s.core core).msgs.zipIdx with
    | none => s
    | some (m, i) =>
      let took : State → State := fun u => u.modCore core fun c => { c with msgs := c.msgs.eraseIdx i }
      match s.msgThread core .handler m with
      | .absent page => s.vecStall core page
      | .discard u => took u
      | .start u t _ => ((took u).putThread (slotidOf core slot) t).acquire core .pkg)

/-! ### Fills from other cores (R127) -/

/-- The thread that a fill of a slot reaches: the thread in it, else the one saved from it last (log 24, DEDUCED). -/
def State.fillTarget (s : State) (slotid : Nat) : Option Nat :=
  if (s.thr? slotid).isSome then some slotid
  else ((s.images.filter fun im => im.2.slot == slotid).getLast?).map fun im => imageBase + im.1

/-- The cycle of a register's last remote fill (R128). -/
def State.noteFill (s : State) (id reg : Nat) : State := s.modAny id fun t => { t with filled := t.filled.put reg s.cycle }

/-- Applies or discards a fill. -/
def State.applyFill (s : State) (core slot : Nat) (vec : Bool) (reg : Nat) (v : VWord) (valid : Bool) : State :=
  match s.fillTarget (slotidOf core slot) with
  | none => s
  | some id =>
    if !valid then s
    else if vec then (if 8 ≤ reg && reg ≤ 15 then (s.fillV id reg v).noteFill id (32 + reg) else s)
    else if 16 ≤ reg && !(slot == 0 && decide (28 ≤ reg)) then (s.fillS id reg (v.truncate 32)).noteFill id reg else s

def execRemoteFill (act : Nat) (s : State) : Host.Outcome State Fault Refusal :=
  .next (match s.ready? act with
    | some (.fill sender core slot vec reg value valid) =>
      let s1 := s.dropAct act
      let foreign : Bool := s.coreWiping core && sender.any fun id => s.partOf (s.coreOfAny id) != s.partOf core
      if s.coreWiping core && !foreign then s
      else if s.coreFenced core || foreign then
        s1.fencedAck core sender
          (BitVec.ofNat 64 (2 ^ 63 + core * 2 ^ 32 + slot * 256 + (if vec then 128 else 0) + reg * 4))
      else (s1.applyFill core slot vec reg value valid).ackTo core sender
    | _ => s)

/-! ### Packets (R328-R329, R351) -/

/-- Writes a whole packet into a receive queue that has room. -/
def State.deliverPacket (s : State) (dst : Nat) (cls : NetClass) (ws : List Word) : Option State :=
  let c := s.core dst
  let q := if cls = .request then c.rxReq else c.rxColl
  if 64 < q.length + ws.length then none
  else
    let s1 := s.modCore dst fun c => if cls = .request then { c with rxReq := q ++ ws } else { c with rxColl := q ++ ws }
    some (s1.modThr (slotidOf dst 0) fun t => t.wakeFill (if cls = .request then 12 else 14))

/-- A packet that comes back to its sender. -/
def bounceWords (ws : List Word) : List Word :=
  match ws with
  | [] => []
  | h :: r => recvHeader (fieldOf h 19 13) 1 0 (fieldOf h 8 4) (fieldOf h 0 8) :: r

def State.bouncePacket (s : State) (cls : NetClass) (src : Nat) (ws : List Word) : State :=
  s.send cls src src (.packet cls src src (bounceWords ws))

/-- A packet that leaves for another package in its receive form: with the source core and the source's fabric identifier. -/
def remoteWords (src fabric : Nat) (ws : List Word) : List Word :=
  match ws with
  | [] => []
  | h :: r => recvHeader src 0 1 (fieldOf h 8 4) (fieldOf h 0 8) :: BitVec.ofNat 32 fabric :: r

/-- What another package sends, as it enters: a packet of its queues takes the receive form. -/
def ActKind.entered : ActKind → Option ActKind
  | .away cls src fabric _ (h :: r) _ => some (.packet cls (20000 + fabric) (fieldOf h 19 13) (remoteWords src fabric (h :: r)))
  | .away _ _ _ _ [] _ => none
  | .packet _ _ _ _ => none
  | k => some k

end Sys2Proof.Machine
end

