-- ==== Sys2Proof/Machine/Landing.lean ====
section
/-!
DEFINITION. Landing: barriers (R331-R336): the landing instructions, the counting of arrivals, acknowledgements and
flips.
-/

namespace Sys2Proof.Machine

open Sys2Proof

/-! ### Instructions (R335) -/

/-- The landing is the thread's partition's. -/
def State.landingMine (s : State) (n : Nat) : Bool := decide (n < 32) && (s.landing n).v && (s.landing n).part == s.myPart

/-- The checks of LANDA, LANDW and LANDAW. -/
def State.landCheck (s : State) (a : Word) (f : Nat → Res) : Res :=
  if 31 < a.toNat then .trap 3 (a.zeroExtend 64)
  else if !s.landingMine a.toNat || (s.landing a.toNat).count = 0 then .trap 4 (a.zeroExtend 64)
  else f a.toNat

def State.modArrival (s : State) (n : Nat) (f : Arrival → Arrival) : State :=
  s.modMe fun t => { t with arrivals := t.arrivals.put n (f (t.arrivals.lookD n {})) }

/-- The release and the arrival, which an acknowledgement answers. -/
def State.arrive (s : State) (n : Nat) : Res :=
  match s.relWait with
  | some w => .park w
  | none => .stay (s.sendAll.postFree (.arrival s.cur n (s.cycle + 12))) .answer

/-- The arrival record after an acknowledgement. -/
def State.arrived (s : State) (n : Nat) (gen : Word) : State := s.modArrival n fun _ => { arr := true, gen := gen }

/-- The wait for the flip of the thread's generation. `wait` parks it. -/
def State.awaitFlip (s : State) (n : Nat) (wait : State → Res) : Res :=
  let r := s.me.arrivals.lookD n {}
  let done : State := s.modMe fun t => { t with ans := none }
  if !r.arr then .ok done
  else if (s.landing n).seenGen = r.gen then wait s
  else .ok ((done.modArrival n fun r => { r with arr := false }).acquire s.myCore .pkg)

def execLanda (a : BitVec 5) (s : State) : Host.Outcome State Fault Refusal :=
  s.perform [.s a.toNat] fun t => match t.me.ans with
    | some ws => .ok ((t.arrived (t.rS a.toNat).toNat (ws.headD 0)).modMe fun x => { x with ans := none })
    | none => t.landCheck (t.rS a.toNat) fun n => t.arrive n

def execLandw (a : BitVec 5) (s : State) : Host.Outcome State Fault Refusal :=
  s.perform [.s a.toNat] fun t => t.landCheck (t.rS a.toNat) fun n => t.awaitFlip n fun _ => .park (.flip n)

/-- LANDAW: an answer of one word is the acknowledgement, of two words a record already written. -/
def execLandaw (a : BitVec 5) (s : State) : Host.Outcome State Fault Refusal :=
  s.perform [.s a.toNat] fun t =>
    let n := (t.rS a.toNat).toNat
    match t.me.ans with
    | some [g] => (t.arrived n g).awaitFlip n fun u => .stay (u.modMe fun x => { x with ans := some [g, 1] }) (.flip n)
    | some _ => t.awaitFlip n fun u => .stay u (.flip n)
    | none => t.landCheck (t.rS a.toNat) fun n => t.arrive n

def execLandq (d a : BitVec 5) (s : State) : Host.Outcome State Fault Refusal :=
  s.alu d.toNat [a.toNat] fun t =>
    let n := (t.rS a.toNat).toNat
    if t.landingMine n then (t.landing n).lstat else 0

/-! ### Arrivals (R333) -/

/-- The arrivals on their way: when they count, and from which slot. -/
def State.arrivalKeys (s : State) : List (Nat × Nat) :=
  s.acts.filterMap fun a => match a.2.kind with
    | .arrival slot _ due => some (due, slot)
    | _ => none

/-- A landing counts one arrival. -/
def Landing.countOne (l : Landing) : Landing :=
  if l.arrived + 1 = l.count then { l with gen := l.gen + 1, arrived := 0 } else { l with arrived := l.arrived + 1 }

def execLandingArrival (act : Nat) (s : State) : Host.Outcome State Fault Refusal :=
  .next (match s.ready? act with
    | some (.arrival slot n due) =>
      let first := s.arrivalKeys.all fun k => decide (due < k.1) || (due == k.1 && decide (slot ≤ k.2))
      if s.cycle < due || !first then s
      else
        let l := (s.landing n).countOne
        (((s.dropAct act).modLanding n fun _ => l).postFree (.landAck slot n (s.landing n).gen (s.cycle + 12))).postFree
          (.flip n l.gen l.arrived (s.cycle + 12))
    | _ => s)

def execLandingAck (act : Nat) (s : State) : Host.Outcome State Fault Refusal :=
  .next (match s.ready? act with
    | some (.landAck slot _ gen due) =>
      if s.cycle < due then s else (s.dropAct act).modAny slot fun t => { t with ans := some [gen] }
    | _ => s)

/-- The oldest change of a landing that the cores have not seen. -/
def State.nextFlip (s : State) (n : Nat) : Option (Nat × Word × Nat × Nat) :=
  (s.acts.filterMap fun a => match a.2.kind with
    | .flip m gen arr due => if m = n then some (a.1, gen, arr, due) else none
    | _ => none).head?

def execLandingFlipSeen (landing : Nat) (s : State) : Host.Outcome State Fault Refusal :=
  .next (match s.nextFlip landing with
    | some (act, gen, arr, due) =>
      if s.cycle < due then s
      else (s.dropAct act).modLanding landing fun l => { l with seenGen := gen, seenArr := arr }
    | none => s)

end Sys2Proof.Machine
end

