-- ==== Sys2Proof/Machine/Collective.lean ====
section
/-!
DEFINITION. Collective: groups of routers and network engines (R337-R340), contributions and operators (R342-R346),
results (R341, R347), groups across packages (R348).
-/

namespace Sys2Proof.Machine

open Sys2Proof

/-! ### The mesh (R337) -/

/-- Whether a port exists on a storey. -/
def portExists (st p : Nat) : Bool :=
  match p with
  | 1 => decide (st % 16 < 15)
  | 2 => decide (0 < st % 16)
  | 3 => decide (st / 16 < 7)
  | 4 => decide (0 < st / 16)
  | 5 => st % 16 == 0 || st % 16 == 15
  | _ => false

/-- The storey that a port 1-4 leads to, and the port by which it is entered. -/
def neighbour (st p : Nat) : Nat × Nat :=
  match p with
  | 1 => (st + 1, 2)
  | 2 => (st - 1, 1)
  | 3 => (st + 16, 4)
  | _ => (st - 16, 3)

/-- The IO die at a storey's port 5. -/
def dieOf (st : Nat) : Nat := if st % 16 = 0 then 0 else 1

/-- The number of a node as an end of a flow: routers with their storeys, network engines. -/
def nodeUnit (ne : Bool) (node : Nat) : Nat := if ne then 19000 + node else 17000 + node

/-! ### Nodes -/

def State.modNode (s : State) (ne : Bool) (node g : Nat) (f : CollNode → CollNode) : State :=
  let x := f (s.node ne node g)
  if ne then s.modPkg fun p => { p with engines := p.engines.put node ((p.engines.lookD node []).put g x) }
  else s.modStorey node fun y => { y with nodes := y.nodes.put g x }

/-- The child packages of a network engine's entry, in the order of the record's words. -/
def CollEntry.kids (e : CollEntry) : List Nat :=
  ([3, 4, 5].filter fun i => e.words.getD i 0 != 0xFFFFFFFF).map fun i => (e.words.getD i 0).toNat

/-- The package whose engine is the parent of an engine's entry. -/
def CollEntry.up (e : CollEntry) : Nat := (e.words.getD 2 0).toNat

/-- The process group whose key set carries an entry's traffic. -/
def CollEntry.keys (e : CollEntry) : Nat := (e.words.getD 6 0).toNat

/-- The ports that bring one partial to each round of an entry. A network engine names its package tree 0, and a child package
1,000 + its fabric identifier. -/
def CollEntry.childPorts (e : CollEntry) (ne : Bool) : List Nat :=
  if ne then (if e.child % 2 = 1 then [0] else []) ++ e.kids.map fun f => 1000 + f
  else [1, 2, 3, 4, 5].filter fun p => e.child / 2 ^ (p - 1) % 2 == 1

/-- The port class of an arrival: at a network engine, 100 + storey stands for the package tree. -/
def portClass (p : Nat) : Nat := if 1000 ≤ p then p else if 100 ≤ p then 0 else p

/-! ### Contributions (R342-R345) -/

/-- floor(log2 |x|) with the values of R343 for zero, NaN and infinity. -/
def expOf (bits : Nat) : Int :=
  match f32.val bits with
  | .nan => 32767
  | .inf _ => 32767
  | .fin _ m e => if m = 0 then -32768 else (Nat.log2 m : Int) + e

/-- ceil(log2 n). -/
def clog2 (n : Nat) : Nat := if n ≤ 1 then 0 else Nat.log2 (n - 1) + 1

/-- The integer of an ALIGNSUM lane; none when it is invalid. -/
def alignLane (h : Nat) (big : Int) (bits : Nat) : Option Int :=
  match f32.val bits with
  | .nan => none
  | .inf _ => none
  | .fin neg m e =>
    if m ≠ 0 && big < expOf bits then none
    else
      let k := e + (62 - (h : Int) - big)
      let n : Nat := if 0 ≤ k then m * 2 ^ k.toNat else m / 2 ^ (-k).toNat
      some (if neg then -(n : Int) else n)

/-- What a thread contributes: lanes of 32 bits under an operator, or a sketch. -/
def contribution (e : CollEntry) (slot : Nat) (exp : Int) (ls : List Nat) (sk : List (Nat × Nat × Sketch)) : Contrib :=
  match e.op with
  | 3 => { slot := some slot, lanes := ls.map Int.ofNat }
  | 4 => { slot := some slot, lanes := ls.map expOf }
  | 5 =>
    let ns := ls.map (alignLane (clog2 e.ncontrib) exp)
    { slot := some slot, lanes := ns.map fun n => n.getD 0, bad := ns.map Option.isNone, exps := [exp] }
  | 6 => { slot := some slot, sketches := sk }
  | _ => { slot := some slot, lanes := ls.map fun x => sval 32 x }

/-! ### Operators (R343-R346) -/

/-- Lane by lane; a list that is empty stands for none. -/
def zipLanes {α : Type} (f : α → α → α) : List α → List α → List α
  | [], l => l
  | l, [] => l
  | a :: r, b :: q => f a b :: zipLanes f r q

def sameShape (a b : Sketch) : Bool := a.depth == b.depth && a.log2w == b.log2w && a.salt == b.salt && a.scale == b.scale

def mergeContrib (op : Nat) (a b : Contrib) : Contrib :=
  let f : Int → Int → Int := fun x y => if op = 1 then min x y else if op = 2 || op = 4 then max x y else x + y
  { lanes := zipLanes f a.lanes b.lanes
    bad := zipLanes (· || ·) a.bad b.bad
    exps := (a.exps ++ b.exps).dedup
    sketches := a.sketches ++ b.sketches
    shape := a.shape <|> b.shape
    counts := zipLanes (· + ·) a.counts b.counts
    mixed := a.mixed || b.mixed || (match a.shape, b.shape with
      | some x, some y => !sameShape x y
      | _, _ => false) }

/-- One lane of an FSUM node: the locals exactly, then the children in turn. -/
def fsumLane (locals children : List Nat) : Nat :=
  children.foldl (fun p c => (f32.add (f32.val p) (f32.val c)).1) (f32.sum (locals.map f32.val)).1

/-- The partial of a node from its locals and its children in order. -/
def partialOf (op : Nat) (locals children : List Contrib) : Contrib :=
  if op = 3 then
    let width := ((locals ++ children).map fun c => c.lanes.length).foldl max 0
    let col : Nat → List Contrib → List Nat := fun i cs => cs.map fun c => (c.lanes.getD i 0).toNat
    { lanes := (List.range width).map fun i => ((fsumLane (col i locals) (col i children) : Nat) : Int) }
  else (locals ++ children).foldl (mergeContrib op) {}

/-- The result at the root. Valid lanes of an ALIGNSUM round whose contributors name several exponents are free. -/
def State.resultOf (s : State) (e : CollEntry) (c : Contrib) (status : Nat) : VWord × State :=
  match e.op with
  | 5 =>
    let h := clog2 e.ncontrib
    match c.exps with
    | [x] => (ofLanes 32 (c.lanes.zipIdx.map fun p =>
        if c.bad.getD p.2 false then 0x7FC00000 else (f32.ofDy ⟨p.1, x + (h : Int) - 62⟩ false).1), s)
    | _ =>
      let r := c.lanes.zipIdx.foldl (fun (acc : List Nat × State) p =>
        if c.bad.getD p.2 false then (acc.1 ++ [0x7FC00000], acc.2)
        else (acc.1 ++ [acc.2.drawWord.1.toNat], acc.2.drawWord.2)) ([], s)
      (ofLanes 32 r.1, r.2)
  | 6 => (BitVec.ofNat 512 status, s)
  | _ => (ofLanes 32 (c.lanes.map (wrap 32)), s)

/-! ### Sketches of a round (R346)

The engines of a node make the accesses of a round in one event; nothing of it is performed while a page is not present
(log 48, DEDUCED). -/

/-- What the engines' accesses of a round give, or the core and page that they stall for. -/
inductive RoundRes (α : Type) where
  | ok (s : State) (x : α)
  | stall (core page : Nat)

/-- Adds one counter position of each sketch: the exact sum, or none when an access is refused: a read here needs the
rights of the write to come. -/
def State.sumAt (i : Nat) : List (Nat × Nat × Sketch) → State → Option Int → RoundRes (Option Int)
  | [], s, acc => .ok s acc
  | k :: r, s, acc =>
    match s.skAccess k.2.1 k.1 (k.2.2.base + 4 * i) none with
    | .absent => .stall k.2.1 ((k.2.2.base + 4 * i) / 65536)
    | .refused u _ => State.sumAt i r u none
    | .ok u v => State.sumAt i r u (acc.map (· + v.toInt))

/-- The sums of a package's sketches by counter position. -/
def State.sumsFrom (ks : List (Nat × Nat × Sketch)) : List Nat → State → List (Option Int) → RoundRes (List (Option Int))
  | [], s, acc => .ok s acc
  | i :: r, s, acc =>
    match State.sumAt i ks s (some 0) with
    | .stall c p => .stall c p
    | .ok u v => State.sumsFrom ks r u (acc ++ [v])

def State.sketchSums (s : State) (ks : List (Nat × Nat × Sketch)) : RoundRes (List (Option Int)) :=
  State.sumsFrom ks (List.range ((ks.head?.map fun k => k.2.2.count).getD 0)) s []

/-- Writes the sums into one sketch: whether a write clamps, and whether one is refused. -/
def State.sumsInto (k : Nat × Nat × Sketch) : List (Option Int × Nat) → State → Bool × Bool → RoundRes (Bool × Bool)
  | [], s, f => .ok s f
  | (none, _) :: r, s, f => State.sumsInto k r s f
  | (some n, i) :: r, s, f =>
    match s.skAccess k.2.1 k.1 (k.2.2.base + 4 * i) (some fun _ => BitVec.ofInt 32 (satInt32 n)) with
    | .absent => .stall k.2.1 ((k.2.2.base + 4 * i) / 65536)
    | .refused u _ => State.sumsInto k r u (f.1, true)
    | .ok u _ => State.sumsInto k r u (f.1 || satInt32 n != n, f.2)

/-- Writes the sums into every sketch, with SKSAT where a write clamps and SKERR when some position failed. -/
def State.sketchWrite (sums : List (Option Int)) : List (Nat × Nat × Sketch) → State → Bool → RoundRes Bool
  | [], s, bad => .ok s bad
  | k :: r, s, bad =>
    match State.sumsInto k sums.zipIdx s (false, bad) with
    | .stall c p => .stall c p
    | .ok u (sat, bad') =>
      if skBits sat (if bad' then 1 else 0) = 0 then State.sketchWrite sums r u bad'
      else match u.skAccess k.2.1 k.1 k.2.2.stat (some fun w => w ||| skBits sat (if bad' then 1 else 0)) with
        | .absent => .stall k.2.1 (k.2.2.stat / 65536)
        | .refused u1 _ => State.sketchWrite sums r u1 bad'
        | .ok u1 _ => State.sketchWrite sums r u1 bad'

/-- The contributions of a package do not share a shape. -/
def shapesMixed (ks : List (Nat × Nat × Sketch)) : Bool :=
  match ks with
  | [] => false
  | k :: r => r.any fun x => !sameShape k.2.2 x.2.2

/-- Sums and failed positions as a partial carries them, and back. -/
def sumsBad (l : List (Option Int)) : List Int × List Bool := (l.map fun x => x.getD 0, l.map Option.isNone)
def Contrib.sums (c : Contrib) : List (Option Int) := c.counts.zipIdx.map fun x => if c.bad.getD x.2 false then none else some x.1

/-- A partial of sketches as it leaves for another package: the shape and the sums. -/
def State.sketchPack (s : State) (c : Contrib) : RoundRes Contrib :=
  let rest : Contrib := { c with sketches := [], slot := none }
  if shapesMixed c.sketches || c.mixed then .ok s (mergeContrib 6 { mixed := true } rest)
  else match s.sketchSums c.sketches with
    | .stall k p => .stall k p
    | .ok u l => .ok u (mergeContrib 6
        { shape := (c.sketches.head?).map fun k => k.2.2, counts := (sumsBad l).1, bad := (sumsBad l).2 } rest)

/-- The end of a SKETCHADD round at its root: every contributing sketch is written, and the status. -/
def State.sketchFinish (s : State) (c : Contrib) : RoundRes (Nat × List (Option Int)) :=
  match s.sketchPack c with
  | .stall k p => .stall k p
  | .ok u t =>
    if t.mixed then .ok u (1, [])
    else match State.sketchWrite t.sums c.sketches u (t.sums.any Option.isNone) with
      | .stall k p => .stall k p
      | .ok u1 bad => .ok u1 (if bad then 4 else 0, t.sums)

/-! ### Rounds (R340, R348) -/

/-- What an engine sends to another package's engine; it leaves behind what it sent there before (R349). -/
def State.peerSend (s : State) (node fabric g keys : Nat) (m : CollMsg) : State :=
  s.send .collective (nodeUnit true node) (20000 + fabric) (.collOut node fabric g keys m)

/-- A result on its way down from a node: to its local contributors, or the storeys of its package tree, and to its children,
ports or packages. -/
def State.sendDown (s : State) (ne : Bool) (node g : Nat) (e : CollEntry) (who kids : List Nat) (r : VWord) : State :=
  let u := nodeUnit ne node
  if ne then
    let tree := who.foldl (fun s st => s.send .collective u (nodeUnit false st) (.collDown st g r)) s
    kids.foldl (fun s f => s.peerSend node f g e.keys (.result r)) tree
  else
    let s1 := who.foldl (fun s id => s.send .collective u (s.coreOfAny id) (.collResult id g r)) s
    kids.foldl (fun s p => s.send .collective u (nodeUnit false (neighbour node p).1) (.collDown (neighbour node p).1 g r)) s1

/-- Ends the rounds of an engine whose packages have all written their sums, in order: at the root the result goes down, and
elsewhere the parent package is told (R346, R349). -/
def State.endRounds (node g : Nat) (e : CollEntry) : Nat → State → State
  | 0, s => s
  | n + 1, s =>
    match (s.node true node g).acks with
    | [] => s
    | a :: rest =>
      if !a.left.isEmpty then s
      else
        let s1 := s.modNode true node g fun x => { x with acks := rest }
        State.endRounds node g e n (match a.up with
          | some (f, keys) => s1.peerSend node f g keys (.written a.bad)
          | none => s1.sendDown true node g e a.who a.kids
              (if a.status then BitVec.ofNat 512 (if a.bad then 4 else 0) else a.result))

/-- A round of an engine waits until the packages below it have written its sums. -/
def State.oweRound (s : State) (node g : Nat) (e : CollEntry) (a : CollAck) : State :=
  let s1 := s.modNode true node g fun x => { x with acks := x.acks ++ [a] }
  State.endRounds node g e (s1.node true node g).acks.length s1

/-- The parts of the next round of a node, when all are there: who contributed here, the partial, what is left. -/
def CollNode.round (x : CollNode) (ne : Bool) (e : CollEntry) : Option (List Nat × Contrib × CollNode) :=
  let ports := e.childPorts ne
  let find : Nat → Option (Nat × Contrib) := fun p => x.partials.find? fun q => portClass q.1 == p
  if !e.en || x.locals.length < e.lcnt || ports.any (fun p => (find p).isNone) then none
  else
    let kids := ports.filterMap find
    let mine := x.locals.take e.lcnt
    let who := if ne then (kids.filter fun k => 100 ≤ k.1).map fun k => k.1 - 100 else mine.filterMap Contrib.slot
    let rest := kids.foldl (fun l k => l.erase k) x.partials
    some (who, partialOf e.op mine (kids.map Prod.snd), { x with locals := x.locals.drop e.lcnt, partials := rest })

/-- Where a completed round goes: a result at the root, else the parent. -/
def State.roundDone (s : State) (ne : Bool) (node g : Nat) (e : CollEntry) (who : List Nat) (c : Contrib) : RoundRes Unit :=
  let kids := if ne then e.kids else e.childPorts false
  let keep : State → List (Nat × Nat × Sketch) → State := fun s ks =>
    s.modNode ne node g fun x => { x with waiting := x.waiting ++ [(who, kids)], sent := if ne then x.sent ++ [ks] else x.sent }
  let root : Bool := if ne then e.words.getD 2 0 == 0xFFFFFFFF else e.parent == 7
  let u := nodeUnit ne node
  if root then
    match (if e.op = 6 then s.sketchFinish c else .ok s (0, [])) with
    | .stall k p => .stall k p
    | .ok s1 x =>
      let r := s1.resultOf e c x.1
      if !ne then .ok (r.2.sendDown ne node g e who kids r.1) ()
      else if e.op = 6 && x.1 ≠ 1 then
        .ok ((kids.foldl (fun s f => s.peerSend node f g e.keys (.sums x.2)) r.2).oweRound node g e
          { who := who, kids := kids, left := kids, status := true, bad := x.1 == 4 }) ()
      else .ok (r.2.oweRound node g e { who := who, kids := kids, result := r.1 }) ()
  else if ne then
    match (if e.op = 6 then s.sketchPack c else .ok s c) with
    | .stall k p => .stall k p
    | .ok s1 c' => .ok ((keep s1 c.sketches).peerSend node e.up g e.keys (.partial_ { c' with slot := none })) ()
  else if e.parent = 5 then .ok ((keep s []).send .collective u (nodeUnit true (dieOf node)) (.collIn true (dieOf node) g (100 + node) c)) ()
  else
    let n := neighbour node e.parent
    .ok ((keep s []).send .collective u (nodeUnit false n.1) (.collIn false n.1 g n.2 c)) ()

/-- A stall of a round's engines, until REPLAY_ALL in the contributor's storey. -/
def State.sketchStall (s : State) (core page : Nat) : State := s.skStall core ((s.partOf core).getD 16) (page * 65536)

/-- A node whose engines have stalled looks at its rounds again later. -/
def State.runLater (s : State) (ne : Bool) (node g : Nat) : State :=
  if s.acts.any fun a => a.2.kind == .collRun ne node g then s else s.postFree (.collRun ne node g)

/-- Completes rounds of a node while it can. -/
def State.runRounds (ne : Bool) (node g : Nat) : Nat → State → State
  | 0, s => s
  | n + 1, s =>
    match (s.node ne node g).entry with
    | none => s
    | some e => match (s.node ne node g).round ne e with
      | none => s
      | some (who, c, x) => match (s.modNode ne node g fun _ => x).roundDone ne node g e who c with
        | .stall k p => (s.sketchStall k p).runLater ne node g
        | .ok u _ => State.runRounds ne node g n u

/-- A contribution or partial joins its node. -/
def State.nodeTake (s : State) (ne : Bool) (node g port : Nat) (c : Contrib) : State :=
  s.modNode ne node g fun x =>
    if port = 0 && !ne then { x with locals := x.locals ++ [c] } else { x with partials := x.partials ++ [(port, c)] }

/-- Every round that a node can complete now. -/
def State.runNode (s : State) (ne : Bool) (node g : Nat) : State :=
  State.runRounds ne node g ((s.node ne node g).locals.length + (s.node ne node g).partials.length + 1) s

/-- A result comes down to a node, and goes on to those that its round waits for. -/
def State.nodeResult (s : State) (ne : Bool) (node g : Nat) (r : VWord) : State :=
  let x := s.node ne node g
  match x.entry with
  | none => s
  | some e =>
    let w := x.waiting.headD ([], [])
    (s.modNode ne node g fun x => { x with
      waiting := x.waiting.drop 1
      sent := if e.op = 6 && vlane r 0 ≠ 1 then x.sent else x.sent.drop 1 }).sendDown ne node g e w.1 w.2 r

/-- The sums of a SKETCHADD round come down to an engine: the sketches that the package sent up are written, and the packages
below it hear them (R346). -/
def State.nodeSums (s : State) (node g : Nat) (counts : List (Option Int)) : RoundRes Unit :=
  let x := s.node true node g
  match x.entry with
  | none => .ok s ()
  | some e => match State.sketchWrite counts (x.sent.headD []) s (counts.any Option.isNone) with
    | .stall k p => .stall k p
    | .ok s1 bad =>
      let kids := (x.waiting.headD ([], [])).2
      let s2 := s1.modNode true node g fun x => { x with sent := x.sent.drop 1 }
      .ok ((kids.foldl (fun s f => s.peerSend node f g e.keys (.sums counts)) s2).oweRound node g e
        { up := some (e.up, e.keys), kids := kids, left := kids, status := true, bad := bad }) ()

/-- A package below an engine has written the sums of its oldest round that still waits for it. -/
def State.nodeWritten (s : State) (node g fabric : Nat) (bad : Bool) : State :=
  let hit : List CollAck → List CollAck := fun l =>
    let i := l.findIdx fun a => a.left.contains fabric
    l.zipIdx.map fun a => if a.2 = i then { a.1 with left := a.1.left.erase fabric, bad := a.1.bad || bad } else a.1
  match (s.node true node g).entry with
  | none => s
  | some e =>
    State.endRounds node g e (s.node true node g).acks.length (s.modNode true node g fun x => { x with acks := hit x.acks })

/-! ### Links that are held back (R340)

Traffic of a group that is not enabled is held at the node, and so holds back the collective class on the link by which it
came (log 48, DEDUCED). -/

/-- The groups of a node. -/
def State.groupsAt (s : State) (ne : Bool) (node : Nat) : Tab CollNode :=
  if ne then s.pkg.engines.lookD node [] else (s.storey node).nodes

/-- The link of a port, of the core of a local contributor, or of the other packages. -/
def State.portHeld (s : State) (ne : Bool) (node port : Nat) : Bool :=
  (s.groupsAt ne node).any fun g => !g.2.entry.any CollEntry.en && g.2.partials.any fun p => p.1 == port
def State.coreHeld (s : State) (node core : Nat) : Bool :=
  (s.groupsAt false node).any fun g => !g.2.entry.any CollEntry.en && g.2.locals.any fun l => l.slot.any fun id => s.coreOfAny id == core
def State.peerHeld (s : State) : Bool :=
  [0, 1].any fun n => (s.groupsAt true n).any fun g => !g.2.entry.any CollEntry.en && g.2.partials.any fun p => decide (1000 ≤ p.1)

/-- The link by which a contribution comes up to a node is held back. -/
def State.linkHeld (s : State) (ne : Bool) (node port : Nat) (c : Contrib) : Bool :=
  if port = 0 && !ne then c.slot.any fun id => s.coreHeld node (s.coreOfAny id) else s.portHeld ne node port

/-- The link by which a result comes down to a router is held back. -/
def State.downHeld (s : State) (node g : Nat) : Bool := (s.node false node g).entry.any fun e => s.portHeld false node e.parent

/-- The IO die whose network engine owns an Ethernet port (R350). -/
def portDie (port : Nat) : Nat := port / 4 % 2

/-- The links of a storey's row up to the engine of an IO die: node and port of entry (R350). -/
def rowLinks (st die : Nat) : List (Bool × Nat × Nat) :=
  let y := st / 16 * 16
  if die = 0 then ((List.range (st % 16)).map fun i => (false, y + i, 1)) ++ [(true, 0, 100 + y)]
  else ((List.range (15 - st % 16)).map fun i => (false, st + 1 + i, 2)) ++ [(true, 1, 100 + y + 15)]

/-- The links from an engine to the port of a package: none on its own die, else along row 0 (R350). -/
def dieLinks (node fabric : Nat) : List (Bool × Nat × Nat) :=
  if portDie (flowPort fabric) = node then []
  else (false, (if node = 0 then 0 else 15), 5) :: rowLinks (if node = 0 then 0 else 15) (portDie (flowPort fabric))

def State.pathHeld (s : State) (l : List (Bool × Nat × Nat)) : Bool := l.any fun x => s.portHeld x.1 x.2.1 x.2.2

/-- A packet of the collective class waits behind traffic that is held on the link from its core, or from the other packages. -/
def State.packetHeld (s : State) (cls : NetClass) (src dst : Nat) : Bool :=
  cls == .collective && src != dst && (if src < 8192 then s.coreHeld (storeyOf src) src else s.peerHeld)

/-! ### Arrivals -/

/-- What another package's engine sends. -/
def State.peerArrive (s : State) (act node g fabric : Nat) (m : CollMsg) : State :=
  if s.peerHeld then s
  else match m with
  | .partial_ c => ((s.dropAct act).nodeTake true node g (1000 + fabric) c).runNode true node g
  | .result r => (s.dropAct act).nodeResult true node g r
  | .written bad => (s.dropAct act).nodeWritten node g fabric bad
  | .sums counts => match (s.dropAct act).nodeSums node g counts with
    | .stall k p => s.sketchStall k p
    | .ok u _ => u

/-- COLLECTIVE_ARRIVAL: on the way up or down, or at an Ethernet port. A round that waits on a fenced port does not complete
(R351). -/
def execCollectiveArrival (act : Nat) (s : State) : Host.Outcome State Fault Refusal :=
  .next (match s.ready? act with
    | some (.collIn ne node g port c) =>
      if s.linkHeld ne node port c then s
      else ((s.dropAct act).nodeTake ne node g port c).runNode ne node g
    | some (.collRun ne node g) => (s.dropAct act).runNode ne node g
    | some (.collDown node g r) => if s.downHeld node g then s else (s.dropAct act).nodeResult false node g r
    | some (.collPeer node g fabric m) => s.peerArrive act node g fabric m
    | some (.collOut node fabric g keys m) =>
      if s.isFenced 4 (flowPort fabric) || s.pathHeld (dieLinks node fabric) then s
      else { s.dropAct act with out := s.out ++ [.collective fabric g keys m] }
    | _ => s)

/-- COLLECTIVE_RESULT. -/
def execCollectiveResult (act : Nat) (s : State) : Host.Outcome State Fault Refusal :=
  .next (match s.ready? act with
    | some (.collResult slot g r) => (s.dropAct act).modAny slot fun t =>
        { t with colls := t.colls.map fun c => if c.group = g && !c.ready then { c with ready := true, result := r } else c }
    | _ => s)

/-! ### Contribution instructions (R342) -/

/-- CGPUT and CGPUTV. `ls` gives the lanes that the instruction contributes. -/
def State.cgput (s : State) (w : Word) (vec : Bool) (ls : List Nat) : Res :=
  let g := fieldOf w 0 6
  let st := storeyOf s.myCore
  let bad : Res := .trap 4 (w.zeroExtend 64)
  match (s.node false st g).entry with
  | none => bad
  | some e =>
    let sk := s.me.sketches.look (ls.headD 0)
    if !e.en || e.part ≠ s.myPart || e.vec != vec then bad
    else if e.op = 6 && (7 < ls.headD 0 || sk.isNone) then bad
    else
      let rec0 := s.me.colls.find? (fun r => r.group == g)
      if rec0.any (fun r => !r.ready) then .park (.collReady g)
      else if rec0.isNone && 4 ≤ s.me.colls.length then .trap 3 (w.zeroExtend 64)
      else match s.relWait with
      | some p => .park p
      | none =>
        let fresh : CollRec := { group := g, vec := e.vec, sys := e.sys, ready := false, result := 0 }
        let put : List CollRec → List CollRec := fun l =>
          if rec0.isSome then l.map (fun r => if r.group = g then fresh else r) else l ++ [fresh]
        let s1 := s.sendAll.modMe fun t => { t with colls := put t.colls }
        let c := contribution e s.cur (sval 16 (fieldOf w 16 16)) ls ((sk.map fun k => (s.myPart, s.myCore, k)).toList)
        .ok (s1.send .collective s.myCore (nodeUnit false st) (.collIn false st g 0 c))

def execCgput (a b : BitVec 5) (s : State) : Host.Outcome State Fault Refusal :=
  s.perform [.s a.toNat, .s b.toNat] fun t => t.cgput (t.rS a.toNat) false [(t.rS b.toNat).toNat]

def execCgputv (a : BitVec 5) (vb : BitVec 4) (s : State) : Host.Outcome State Fault Refusal :=
  s.perform [.s a.toNat, .v vb.toNat] fun t => t.cgput (t.rS a.toNat) true (lanes (t.rV vb.toNat) 32)

/-! ### Result instructions (R347) -/

/-- CGGET and CGGETV. -/
def State.cgget (s : State) (w : Word) (vec : Bool) (f : State → VWord → State) : Res :=
  let g := fieldOf w 0 6
  match s.me.colls.find? fun r => r.group == g with
  | none => .trap 4 (w.zeroExtend 64)
  | some r =>
    if r.vec != vec then .trap 4 (w.zeroExtend 64)
    else if !r.ready then .park (.collReady g)
    else .ok (((f s r.result).modMe fun t => { t with colls := t.colls.filter fun x => x.group != g }).acquire s.myCore
      (if r.sys then .sys else .pkg))

def execCgget (d a : BitVec 5) (s : State) : Host.Outcome State Fault Refusal :=
  s.perform [.s a.toNat, .d d.toNat] fun t =>
    t.cgget (t.rS a.toNat) false fun u v => u.wS d.toNat (v.truncate 32)

def execCggetv (vd : BitVec 4) (a : BitVec 5) (s : State) : Host.Outcome State Fault Refusal :=
  s.perform [.s a.toNat] fun t => t.cgget (t.rS a.toNat) true fun u v => u.wV vd.toNat v

/-! ### CGSET (R338-R339) -/

/-- An entry record. -/
def parseEntry (part : Nat) (bs : List Byte) : CollEntry :=
  let w := wordAt bs 0
  { part := part, en := w % 2 == 1, op := fld w 1 4, parent := fld w 5 3, child := fld w 8 5, sys := fld w 13 1 == 1
    vec := fld w 15 1 == 1, lcnt := fld w 16 11, ncontrib := wordAt bs 4, words := wordsOf bs }

/-- An enabled record is invalid. -/
def CollEntry.invalid (e : CollEntry) (ne : Bool) (node : Nat) (ctl : Nat) : Bool :=
  let common := decide (6 < e.op) || fld ctl 27 5 != 0 || fld ctl 14 1 != 0 || (e.op == 6 && e.vec)
    || (e.op == 5 && (e.ncontrib == 0 || decide (2 ^ 29 < e.ncontrib)))
  if ne then
    common || e.lcnt != 0 || decide (1 < e.child) || e.parent != 0 || e.words.getD 7 0 != 0 || (e.childPorts true).isEmpty
  else
    common || decide (1024 < e.lcnt) || e.parent == 0 || e.parent == 6
      || (e.childPorts false).contains e.parent || (e.childPorts false).any (fun p => !portExists node p)
      || (e.parent != 7 && !portExists node e.parent) || (e.lcnt == 0 && e.child == 0)
      || (e.words.drop 2).any (fun w => w != 0)

def execCgset (a b : BitVec 5) (s : State) : Host.Outcome State Fault Refusal :=
  s.performPriv (.cgset a b) [.s a.toNat, .s b.toNat] fun t =>
    let sel := t.rS a.toNat
    let off := (t.rS b.toNat).toNat
    let ne := sel.getLsbD 15
    let node := fieldOf sel 8 7
    let g := fieldOf sel 0 6
    match t.readRecord off 32 with
      | .stop r => r
      | .ok bs =>
        let e := parseEntry t.myPart bs
        let x := t.node ne node g
        let zeros : Bool := fieldOf sel 16 16 == 0 && fieldOf sel 6 2 == 0 && (!ne || decide (node < 2))
        let taken : Bool := x.entry.any fun y => y.en && y.part != t.myPart
        if !zeros || (!ne && t.partOfStorey node ≠ some t.myPart) || taken || (e.en && e.invalid ne node (wordAt bs 0)) then
          .trap 4 (t.segAddr 0 off)
        else match t.relWait with
        | some w => .park w
        | none =>
          if x.busy then .park (.groupIdle ne node g)
          else .ok ((t.sendAll.modNode ne node g fun x => { x with entry := some e }).runNode ne node g)

/-! ### Packets (R329, R349-R351) -/

/-- PACKET_DELIVERY: here, or at an Ethernet port for another package. -/
def execPacketDelivery (act : Nat) (s : State) : Host.Outcome State Fault Refusal :=
  .next (match s.ready? act with
    | some (.packet cls src dst ws) =>
      if s.coreWiping dst || s.packetHeld cls src dst then s else (s.deliverPacket dst cls ws).elim s fun s1 => s1.dropAct act
    | some (.away cls src fabric group ws port) =>
      if s.isFenced 4 port then (s.dropAct act).bouncePacket cls src ws
      else if cls == .collective && (s.coreHeld (storeyOf src) src || s.pathHeld (rowLinks (storeyOf src) (portDie port))) then s
      else
        { s.dropAct act with
          out := s.out ++ [.packet fabric cls (fieldOf (ws.headD 0) 19 13) group (remoteWords src Config.fabricId ws)] }
    | _ => s)

/-- TRANSPORT_GIVE_UP: the port is fenced; a packet comes back, a Gallery operation on its way to another package is answered
FENCED with the others, and a collective round does not complete. -/
def execTransportGiveUp (act : Nat) (s : State) : Host.Outcome State Fault Refusal :=
  .next (match s.ready? act with
    | some (.away cls src _ _ ws port) => ((s.dropAct act).bouncePacket cls src ws).fence 4 3 port
    | some (.collOut _ fabric _ _ _) => s.fence 4 3 (flowPort fabric)
    | some _ => s
    | none => match s.pkg.away.look act with
      | some a => s.fence 4 3 (flowPort a.home)
      | none => s)

end Sys2Proof.Machine
end

