-- ==== Sys2Proof/Machine/Sched.lean ====
section
/-!
DEFINITION. Sched: the run list of a core (R85-R87), composing threads (R100), stamping (R104, R111), pre-emption and
resumption (R394-R403), NJOIN and YIELD (R112, R153).
-/

namespace Sys2Proof.Machine

open Sys2Proof

/-! ### What a run-list entry can give a core (R85-R86, R111-R114) -/

/-- A unit of work: an impression whose NJOIN can complete, a sub-item, a pre-empted impression, the next item, the
composing thread, a thread from a message. Images are named by number. -/
inductive Work where
  | join (k : Nat)
  | sub (w : SubWork)
  | image (k : Nat)
  | item (n : Nat)
  | compose
  | msg (m : Message)

/-- The images of a task that a core can resume. -/
def State.resumable (s : State) (core n : Nat) (joined : Bool) : Option Nat :=
  ((s.images.filter fun im => im.2.saved && coreOf im.2.slot == core && im.2.thread.kind.taskNo == some n
    && (if joined then im.2.thread.park == some .join && im.2.thread.nested.isEmpty else im.2.thread.park != some .join)).head?).map
    Prod.fst

/-- The home core has room for the forme of a prologue (R100). -/
def State.composeFits (s : State) (t : Task) : Bool :=
  decide (t.hdr.formeNeed ≤ (s.core t.record.home).freeGranules.length)

/-- The work that a task can give a core now. -/
def State.taskWork (s : State) (core n : Nat) (hold : Bool) : Option Work :=
  match s.task? n with
  | none => none
  | some t =>
    match s.resumable core n true, (s.core core).subs.find? fun w => w.task == n with
    | some k, _ => some (.join k)
    | none, some w => some (.sub w)
    | none, none =>
      if hold then none
      else match s.resumable core n false with
      | some k => some (.image k)
      | none =>
        if t.compose = .waiting then
          if t.ready && t.status == 0 && t.record.home == core && s.composeFits t then some .compose else none
        else if t.compose = .ready && t.ready && ((s.core core).formes.look (formeKey n)).any Forme.complete then
          (t.nextItem core).map Work.item
        else none

def State.itemWork (s : State) (core : Nat) (hold : Bool) : RunItem → Option Work
  | .task n => s.taskWork core n hold
  | .msg m => if hold then none else some (.msg m)

/-- The entry of a level that the core serves next. -/
def State.levelPick (s : State) (core level : Nat) (hold : Bool) : Option (Nat × RunItem × Work) :=
  let l := (s.core core).runList.lookD level []
  let start := (s.core core).lastServed.lookD level 0
  let order := l.zipIdx.filter (fun p => decide (start ≤ p.2)) ++ l.zipIdx.filter fun p => decide (p.2 < start)
  (order.filterMap fun p => (s.itemWork core hold p.1).map fun w => (p.2, p.1, w)).head?

/-- The highest level of a core that can give it work, with the entry served next. -/
def State.serve? (s : State) (core : Nat) (hold : Bool) : Option (Nat × Nat × RunItem × Work) :=
  ((List.range 24).reverse.filterMap fun lv => (s.levelPick core lv hold).map fun p => (lv, p)).head?

/-- The core has served an entry. -/
def State.served (s : State) (core level idx : Nat) : State :=
  s.modCore core fun c => { c with lastServed := c.lastServed.put level (idx + 1) }

/-- The lowest free work slot of a core. -/
def State.workSlot (s : State) (core : Nat) : Option Nat := leastBelow 16 fun n => s.slotFree core n 2

/-! ### Starts (R100, R104, R111) -/

/-- The scope of the acquire that a thread's start is: package scope, and system scope for the task of a continuation of a
system hall (R222, R229, R292). -/
def State.startScope (s : State) (t : Thread) : Scope :=
  if (t.kind.taskNo.bind s.task?).any Task.sysStart then .sys else .pkg

/-- A thread takes its slot, as the latest stamped on its core; its start is an acquire. -/
def State.startWork (s : State) (core slot level : Nat) (t : Thread) : State :=
  ((s.putThread (slotidOf core slot) { t with level := level, stamped := (s.core core).stampSeq }).modCore core fun c =>
    { c with stampSeq := c.stampSeq + 1 }).acquire core (s.startScope t)

/-- The registers of a new impression: s1 and s2 owned. -/
def impRegs (s1 s2 : Word) : Regs :=
  { s := [(1, s1), (2, s2)], sOwn := 7, vOwn := 0, kOwn := 1 }

/-- An impression of a forme. -/
def State.impression (s : State) (core n f item sub depth : Nat) (pc : Word) : Thread :=
  let x := (s.core core).formes.lookD f { task := n }
  { kind := .impression n f item sub depth, pc := pc, regs := impRegs (BitVec.ofNat 32 item) (BitVec.ofNat 32 sub)
    segs := x.segs, fmt := x.fmt, super := x.super, sys := s.startSys core false
    sketches := ((s.task? n).map fun t => t.hdr.sketches).getD [] }

/-- A task that can never compose on its home core fails (R100). -/
def State.composeFails (s : State) (n : Nat) (t : Task) : State :=
  (s.failTask n 2 (some ⟨0xFFFFFFFF, 10, BitVec.ofNat 32 t.hdr.formeNeed, 0, 0⟩)).modTask n fun t =>
    { t with compose := .ready, composed := true }

/-- COMPOSING_THREAD_START. -/
def execComposingThreadStart (task : Nat) (s : State) : Host.Outcome State Fault Refusal :=
  .next (match s.task? task with
    | none => s
    | some t =>
      let home := t.record.home
      if t.compose ≠ .waiting || !t.ready || t.status ≠ 0 || t.record.itemCnt = 0 then s
      else if (s.core home).shSize < t.hdr.formeNeed then s.composeFails task t
      else match s.workSlot home, s.serve? home (s.core home).hold with
      | some slot, some (lv, idx, .task n, .compose) =>
        if n ≠ task then s
        else match s.allocForme home task t.hdr { task := task, complete := false } with
        | none => s
        | some s1 =>
          let s2 := s1.loadTemplate home ((s1.core home).formes.lookD (formeKey task) { task := task }) t.image
          ((s2.served home lv idx).startWork home slot lv
            { kind := .composing task, pc := BitVec.ofNat 32 t.hdr.proEnt, regs := t.firstRegs, segs := t.hdr.segs
              sys := s.startSys home false, sketches := t.hdr.sketches }).modTask task fun t => { t with compose := .composing }
      | _, _ => s)

/-- Takes the next sub-item of a nested forme. -/
def State.takeSub (s : State) (core : Nat) (w : SubWork) : State :=
  s.modCore core fun c =>
    if w.next + 1 = w.count then { c with subs := c.subs.filter fun x => x.forme != w.forme }
    else { c with subs := c.subs.map fun x => if x.forme = w.forme then { x with next := x.next + 1 } else x }

/-- Takes the next item of a task. -/
def State.takeItem (s : State) (core n : Nat) : State :=
  s.modTask n fun t =>
    if t.record.flat then { t with perCore := t.perCore.put core (t.perCore.lookD core 0 + 1) } else { t with next := t.next + 1 }

/-- Removes the entry served of a core's run list; the place that it held still counts (R85). -/
def Core.dropAt (c : Core) (level idx : Nat) : Core :=
  { c with
    lastServed := c.lastServed.put level idx
    runList := c.runList.put level ((c.runList.lookD level []).eraseIdx idx) }

/-- STAMP_ITEM: a sub-item, the next item, or a message's thread. -/
def execStampItem (core slot : Nat) (s : State) : Host.Outcome State Fault Refusal :=
  .next (if !s.slotFree core slot 2 then s
    else match s.serve? core (s.core core).hold with
    | some (lv, idx, .task n, .sub w) =>
      ((s.takeSub core w).served core lv idx).startWork core slot lv (s.impression core n w.forme w.item w.next w.depth w.entry)
    | some (lv, idx, .task n, .item i) =>
      let entry := ((s.task? n).map fun t => t.hdr.entry).getD 0
      ((s.takeItem core n).served core lv idx).startWork core slot lv
        (s.impression core n (formeKey n) i 0 0 (BitVec.ofNat 32 entry))
    | some (lv, idx, .msg m, _) =>
      match s.msgThread core (.workMsg lv) m with
      | .absent page => s.vecStall core page
      | .discard u => u.modCore core fun c => c.dropAt lv idx
      | .start u t _ => (u.modCore core fun c => c.dropAt lv idx).startWork core slot lv t
    | _ => s)

/-! ### Saving (R394-R397) -/

/-- The thread as its image holds it: volatile registers are left out (R401). -/
def Thread.forImage (t : Thread) (volS volV : Nat × Nat) : Thread :=
  let inS : Nat → Bool := fun n => decide (volS.1 ≤ n) && decide (n ≤ volS.2)
  let inV : Nat → Bool := fun n => decide (volV.1 ≤ n) && decide (n ≤ volV.2)
  let r := t.regs
  { t with
    regs := { r with
      s := r.s.filter fun p => !inS p.1
      v := r.v.filter fun p => !inV p.1
      sOwn := (List.range 32).foldl (fun w n => if inS n then setBit w n false else w) r.sOwn
      vOwn := (List.range 16).foldl (fun w n => if inV n then setBit w n false else w) r.vOwn }
    ans := match t.park with
      | some (.flip _) => t.ans
      | _ => none
    park := match t.park with
      | some .join => some .join
      | _ => none
    early := 0
    copying := 0 }

/-- Saves the thread of a slot: its image is written and the slot waits for the last byte. Without room, the notice
of type 0x05 is sent once; a page that refuses abandons the pre-emption, and one whose writes a migration holds delays it (R185). -/
def State.saveThread (s : State) (id : Nat) : State :=
  let core := coreOf id
  let st := storeyOf core
  let part := (s.partOf core).getD 16
  let s1 := ((s.withdrawSync id).withdrawWatch id).flushWcb core fun e => e.slot == id
  let hdr := (s1.taskOf id).map Task.hdr
  let volS := (hdr.map fun h => h.volS).getD (0xFF, 0xFF)
  let volV := (hdr.map fun h => h.volV).getD (0xFF, 0xFF)
  let t := (s1.thr id).forImage volS volV
  let bs := imageBytes t id fun g => s1.sramRead core (4096 * g) 4096
  let n := (bs.length + 4095) / 4096
  let clear : Core → Core := fun c => { c with victims := c.victims.del id }
  match s1.blockRun st n with
  | none =>
    let s2 := s.modCore core fun c => { c with victims := c.victims.put id true }
    if (s.core core).victims.lookD id false then s2
    else s2.partMsg (17000 + st) (s.storey st).fsdest 5 (BitVec.ofNat 32 st) (BitVec.ofNat 32 id)
  | some b =>
    let im : Image := { slot := id, thread := t, block := b, blocks := n, saved := false, volS := volS, volV := volV }
    match State.writeVa st part (bs.length / 64 + 1) s1 (s1.imageVa im) bs with
    | .held => s.modCore core fun c => { c with victims := c.victims.put id (c.victims.lookD id false) }
    | .refused => (s.modCore core clear).modStorey st fun x => { x with saveFlt := true }
    | .ok s2 =>
      let k := s2.images.fresh
      let s3 := (s2.rename id (imageBase + k)).modCore core clear
      { s3 with threads := s3.threads.del id, images := s3.images.put k im }

/-- The running impression that R87 removes: of the lowest level, the one stamped last. Slots 0-2, halted threads, cancelled
ones and threads in EXIT are left out (log 62, DEDUCED). -/
def State.lowest (s : State) (core : Nat) : Option (Nat × Thread) :=
  let ts := s.threads.filter fun t => coreOf t.1 == core && decide (3 ≤ slotOf t.1) && !t.2.exiting && !t.2.halted && !t.2.cancelled
    && match t.2.kind with
      | .impression _ _ _ _ _ => true
      | _ => false
  match minBy (fun t => t.2.level) ts with
  | none => none
  | some t => minBy (fun u => (s.core core).stampSeq - u.2.stamped) (ts.filter fun u => u.2.level == t.2.level)

/-- A core has no free work slot, and none is becoming free by a save. -/
def State.slotsFull (s : State) (core : Nat) : Bool :=
  (s.workSlot core).isNone && !(s.images.any fun im => coreOf im.2.slot == core && !im.2.saved)

/-- A thread that waits in NJOIN for sub-items that are not stamped. -/
def State.joiner (s : State) (core : Nat) : Option Nat :=
  ((s.threads.filter fun t => coreOf t.1 == core && decide (1 ≤ slotOf t.1) && t.2.park == some .join && !t.2.exiting && !t.2.cancelled
    && (s.core core).subs.any fun w => w.parent == t.1).head?).map Prod.fst

/-- The thread that a core should pre-empt now (R87, R112). -/
def State.wantVictim (s : State) (core : Nat) : Option Nat :=
  if (s.storey (storeyOf core)).saveCnt = 0 || !s.slotsFull core then none
  else
    let margin := (s.core core).margin
    match s.serve? core false, s.lowest core with
    | some (lv, _), some (id, t) => if margin ≠ 0 && t.level + margin ≤ lv then some id else s.joiner core
    | _, _ => s.joiner core

/-- Pre-empts a thread, or waits for its state to end (R394-R395). -/
def State.preemptOne (s : State) (core id : Nat) : State :=
  if (s.thr id).exiting || (s.thr id).halted || (s.thr id).cancelled then s.modCore core fun c => { c with victims := c.victims.del id }
  else if s.defers id then s.modCore core fun c => { c with victims := c.victims.put id (c.victims.lookD id false) }
  else s.saveThread id

/-- PREEMPT: the pre-emptions that wait are tried again, with the victims that they have chosen (log 67, DESIGN CHOICE); with
none, the core looks for a victim. -/
def execPreempt (core : Nat) (s : State) : Host.Outcome State Fault Refusal :=
  .next (match (s.core core).victims with
    | [] => match s.wantVictim core with
      | some id => s.preemptOne core id
      | none => s
    | vs => vs.keys.foldl (fun u id => if (u.thr? id).isSome then u.preemptOne core id else u) s)

/-- IMAGE_SAVE_DONE. -/
def execImageSaveDone (slotid : Nat) (s : State) : Host.Outcome State Fault Refusal :=
  .next { s with images := s.images.mapVals fun _ im => if im.slot = slotid then { im with saved := true } else im }

/-! ### Resumption (R403) -/

/-- The registers that a code object declared volatile: zero, full and owned. -/
def Regs.freshVolatile (r : Regs) (volS volV : Nat × Nat) : Regs :=
  let r1 := (List.range 32).foldl (fun r n => if volS.1 ≤ n ∧ n ≤ volS.2 then r.putS n 0 else r) r
  (List.range 16).foldl (fun r n => if volV.1 ≤ n ∧ n ≤ volV.2 then r.putV n 0 else r) r1

/-- Writes a granule back, but for bytes that the forme area or the cache portion covers now. -/
def State.restoreGranule (s : State) (core part : Nat) (g : Nat × List Byte) : State :=
  (List.range 16).foldl (fun s i =>
    if (s.core core).guarded (4096 * g.1 + 256 * i) 256 then s
    else s.writeLoc part 0 (.sram core (4096 * g.1 + 256 * i)) ((g.2.drop (256 * i)).take 256)) s

/-- Releases the deliveries held for a thread (R402). -/
def State.releaseHeld (s : State) (id : Nat) : State :=
  s.acts.foldl (fun u a => match a.2.kind with
    | .delivery r t slice got owes =>
      if r.slot = some id && (u.ready? a.1).isSome && (u.destWaits r id t.len).isNone then
        ((u.dropAct a.1).deliverNow r id t slice got).answerOwed slice owes
      else u
    | _ => u) s

/-- An impression whose image cannot be restored ends as fenced (R400, R403). -/
def State.loseImage (s : State) (k n : Nat) : State := (s.dropImage k).failTask n 6 none

/-- Restores an image into a slot. -/
def State.restore (s : State) (core slot level k n : Nat) : State :=
  match s.images.look k with
  | none => s
  | some im =>
    let st := storeyOf core
    let part := (s.partOf core).getD 16
    if im.thread.fencedTrap.isSome then s.loseImage k n
    else match State.readVa st part (64 * im.blocks) s (s.imageVa im) with
    | (s, none) => s.loseImage k n
    | (s, some bs) => match imageRead im bs with
      | none => s.loseImage k n
      | some (t, gs) =>
        let id := slotidOf core slot
        let s1 := gs.foldl (fun s g => s.restoreGranule core part g) s
        let s2 := { s1 with images := s1.images.del k }
        let s3 := (s2.rename (imageBase + k) id).putThread id
          { t with regs := t.regs.freshVolatile im.volS im.volV, park := none, level := level }
        s3.releaseHeld id

/-- RESUME. -/
def execResume (core slot : Nat) (s : State) : Host.Outcome State Fault Refusal :=
  .next (if !s.slotFree core slot 2 then s
    else match s.serve? core (s.core core).hold with
    | some (lv, idx, .task n, .join k) => (s.served core lv idx).restore core slot lv k n
    | some (lv, idx, .task n, .image k) => (s.served core lv idx).restore core slot lv k n
    | _ => s)

/-! ### NJOIN and YIELD (R112, R153) -/

def execNjoin (s : State) : Host.Outcome State Fault Refusal :=
  s.perform [] fun t => if t.me.nested.isEmpty then .ok (t.acquire t.myCore .core) else .park .join

/-- A YIELD pre-empts: the core's run list has work at the impression's level or above (log 50, DEDUCED). -/
def State.yields (s : State) : Bool :=
  decide (3 ≤ slotOf s.cur) && (s.storey (storeyOf s.myCore)).saveCnt != 0
  && (match s.me.kind with
    | .impression _ _ _ _ _ => true
    | _ => false)
  && match s.serve? s.myCore false with
    | some (lv, _) => decide (s.me.level ≤ lv)
    | none => false

def execYield (s : State) : Host.Outcome State Fault Refusal :=
  s.perform [] fun t => if t.yields then .gone ((t.setPc (t.me.pc + 4)).preemptOne t.myCore t.cur) else .ok t

end Sys2Proof.Machine
end

