-- ==== Sys2Proof/Machine/Expert.lean ====
section
/-!
DEFINITION. Expert: gate heaps (R359-R361), remap windows and the remap pool (R362-R369).
-/

namespace Sys2Proof.Machine

open Sys2Proof

/-! ### Gate heaps (R359-R361) -/

/-- A heap entry: score and expert. -/
abbrev HeapEntry := Nat × Nat

/-- R360. -/
def HeapEntry.worse (x y : HeapEntry) : Bool :=
  let a := f32.val x.1
  let b := f32.val y.1
  if a.isNan && b.isNan then decide (y.2 < x.2)
  else if a.isNan || b.isNan then a.isNan
  else a.less b || (!b.less a && decide (y.2 < x.2))

def swapAt (l : List HeapEntry) (i j : Nat) : List HeapEntry := (l.set i (l.getD j (0, 0))).set j (l.getD i (0, 0))

/-- Moves an entry up while it is worse than its parent. -/
def siftUp : Nat → List HeapEntry → Nat → List HeapEntry
  | 0, l, _ => l
  | n + 1, l, i =>
    if i ≠ 0 && HeapEntry.worse (l.getD i (0, 0)) (l.getD ((i - 1) / 2) (0, 0)) then siftUp n (swapAt l i ((i - 1) / 2)) ((i - 1) / 2)
    else l

/-- Moves an entry down while a child is worse than it. -/
def siftDown : Nat → List HeapEntry → Nat → List HeapEntry
  | 0, l, _ => l
  | n + 1, l, i =>
    let kids := [2 * i + 1, 2 * i + 2].filter fun c => decide (c < l.length)
    let at_ : Nat → HeapEntry := fun c => l.getD c (0, 0)
    match kids with
    | [] => l
    | c :: r =>
      let w := r.foldl (fun w d => if HeapEntry.worse (at_ d) (at_ w) then d else w) c
      if HeapEntry.worse (at_ w) (at_ i) then siftDown n (swapAt l i w) w else l

/-- The entries after an offer to a heap of capacity `k`. -/
def heapOffer (k : Nat) (l : List HeapEntry) (new : HeapEntry) : List HeapEntry :=
  if (f32.val new.1).isNan then l
  else if l.length < k then siftUp 16 (l ++ [new]) l.length
  else if HeapEntry.worse (l.getD 0 (0, 0)) new then siftDown 16 (l.set 0 new) 0
  else l

/-- Writes bytes of the own TCM in order, each run in its granules; none when no granule is free. -/
def State.writeRuns : List (Nat × List Byte) → State → Option State
  | [], s => some s
  | (off, bs) :: r, s =>
    let m := 256 - off % 256
    match s.writeOwn s.cur off (bs.take m) with
    | none => none
    | some u =>
      if bs.length ≤ m then State.writeRuns r u
      else match u.writeOwn u.cur (off + m) (bs.drop m) with
        | none => none
        | some u1 => State.writeRuns r u1

/-- Bytes of the own TCM as the thread sees them. -/
def State.ownBytes (s : State) (off n : Nat) : List Byte :=
  (List.range n).map fun i => (s.sramRead s.myCore (s.tcmRead s.cur (off + i)) 1).headD 0

def execHsift (a b : BitVec 5) (s : State) : Host.Outcome State Fault Refusal :=
  s.perform [.s a.toNat, .s b.toNat] fun t =>
    let off : Int := (t.rS a.toNat).toNat
    let addr := t.segAddr 0 off
    match t.checkAccess 0 off 8 (rgtR + rgtW) 1 [1] with
    | some (c, v) => .trap c v
    | none =>
      let o := addrOff addr
      let word : Nat → Nat := fun i => leNat (t.ownBytes (o + 4 * i) 4)
      if addrCore addr ≠ t.myCore then .trap 4 addr
      else if off % 8 ≠ 0 then .trap 5 addr
      else if (t.core t.myCore).movingBytes o 8 then .park (.split t.myCore o 8)
      else
        let h := word 0
        let k := fld h 0 5
        let fill := fld h 8 5
        if k = 0 || 16 < k || k < fill || fld h 5 3 ≠ 0 || fld h 13 3 ≠ 0 then .trap 4 addr
        else match t.checkAccess 0 off (8 + 8 * k) (rgtR + rgtW) 1 [1] with
        | some (c, v) => .trap c v
        | none =>
          if (t.core t.myCore).movingBytes o (8 + 8 * k) then .park (.split t.myCore o (8 + 8 * k))
          else
            let old : List HeapEntry := (List.range fill).map fun i => (word (2 + 2 * i), word (3 + 2 * i))
            let new := heapOffer k old ((t.rS b.toNat).toNat, fld h 16 16)
            let h' := (fld h 16 16 + 1) % 65536 * 65536 + new.length * 256 + k
            let changed := (new.zipIdx.filter fun p => old[p.2]? != some p.1).map fun p =>
              (o + 8 + 8 * p.2, leBytes 4 p.1.1 ++ leBytes 4 p.1.2)
            match State.writeRuns ((o, leBytes 4 h') :: changed) t with
            | none => .trap 10 addr
            | some u => .ok u

/-! ### The remap unit (R362-R366) -/

def State.remap (s : State) (p : Nat) : Remap := (s.part p).remap
def State.modRemap (s : State) (p : Nat) (f : Remap → Remap) : State := s.modPart p fun x => { x with remap := f x.remap }
def State.modWindow (s : State) (p n : Nat) (f : Window → Window) : State :=
  s.modRemap p fun r => match r.windows.look n with
    | some w => { r with windows := r.windows.put n (f w) }
    | none => r

/-- Buffers of the pool that no window holds. -/
def Remap.free (r : Remap) : Nat := r.nbuf - r.windows.foldl (fun n w => n + w.2.bufs.length) 0

def Buffer.shut (b : Buffer) : Bool := b.isSealed || b.rows.length == 128

/-- A row needs a new buffer. -/
def Window.needs (w : Window) : Bool := match w.bufs.getLast? with
  | some b => b.shut
  | none => true

/-- The lowest buffer of the pool that no window holds. -/
def Remap.nextFree (r : Remap) : Nat :=
  (leastBelow r.nbuf fun i => !(r.windows.any fun w => w.2.bufs.any fun b => b.no == i)).getD 0

/-- Records a row in the last buffer, or in the new one `no`; DRY is cleared. -/
def Window.record (w : Window) (row no : Nat) : Window :=
  let bufs := if w.needs then w.bufs ++ [{ no := no, base := w.count, rows := [row] }]
    else w.bufs.dropLast ++ (w.bufs.getLast?.toList.map fun b => { b with rows := b.rows ++ [row] })
  { w with bufs := bufs, count := w.count + 1, dry := false }

/-- Seals the last buffer. -/
def Window.sealLast (w : Window) : Window :=
  { w with bufs := w.bufs.dropLast ++ (w.bufs.getLast?.toList.map fun b => { b with isSealed := true }) }

/-- Changes a notification word atomically; another core's guarded bytes take no effect (R427). The flag says that the
word was refused or fenced. -/
def State.notify (s : State) (p naddr : Nat) (f : Word → Word) : State × Nat :=
  match s.notifyPlace p naddr with
  | (u, .inr c) => (u, c)
  | (u, .inl l) =>
    let dropped : Bool := match l with
      | .sram c o => (u.core c).guarded o 4
      | _ => false
    (if dropped then u else (u.countAt (s.partStorey p) p l).writeLoc p 0 l (leBytes 4 (f (u.wordAtLoc p l)).toNat), 0)

/-- A word that the unit writes is held back by an LCSPLIT change (R168), a wipe (R422) or a migration (R185). -/
def State.unitHeld (s : State) (l : Loc) : Bool :=
  match l with
  | .sram c o => s.coreWiping c || (s.core c).movingBytes o 4
  | _ => s.migrationHolds l

def State.notifyHeld (s : State) (p naddr : Nat) : Bool :=
  match s.notifyPlace p naddr with
  | (_, .inr _) => false
  | (u, .inl l) => u.unitHeld l

/-- END of a window, in its notification word (R363). -/
def State.windowEnded (s : State) (p naddr : Nat) : Bool :=
  match s.notifyPlace p naddr with
  | (_, .inr _) => false
  | (u, .inl l) => (u.wordAtLoc p l).getLsbD 31

/-- The answer of the remap unit: nothing, or a trap's cause and value. -/
def State.remapAnswer (s : State) (slot cause : Nat) (v : Addr) : State :=
  s.modAny slot fun t => { t with ans := some (if cause = 0 then []
    else [BitVec.ofNat 32 cause, v.truncate 32, BitVec.ofNat 32 (v.toNat / 2 ^ 32)]) }

/-- The word of a pool buffer that records a window's next row (log 63, DEDUCED). -/
def Remap.rowAddr (r : Remap) (w : Window) : Nat :=
  match w.bufs.getLast? with
  | some b => if b.shut then r.poolBase + 512 * r.nextFree else r.poolBase + 512 * b.no + 4 * b.rows.length
  | none => r.poolBase + 512 * r.nextFree

def State.rowHeld (s : State) (p : Nat) (w : Window) : Bool :=
  match s.unitWalk (s.partStorey p) p ((s.remap p).rowAddr w) .write with
  | .ok u l => u.unitHeld l
  | _ => false

def State.writeRow (s : State) (p a row : Nat) : State :=
  match s.unitWalk (s.partStorey p) p a .write with
  | .ok u l => if u.locFenced l then u else (u.countAt (s.partStorey p) p l).writeLoc p 0 l (leBytes 4 row)
  | .absent u => u
  | .refused u => u

/-- Performs an APPEND that has its buffer: the row first, then the count. -/
def State.doAppend (s : State) (slot p n row : Nat) (w : Window) : State :=
  let no := (s.remap p).nextFree
  let r := ((s.modWindow p n fun w => w.record row no).writeRow p ((s.remap p).rowAddr w) row).notify p w.naddr fun x => x + 1
  r.1.remapAnswer slot r.2 (BitVec.ofNat 64 w.naddr)

/-- WAITCs parked on the notification word of a DRY window complete. -/
def State.dryWake (s : State) (p : Nat) (w : Window) : State :=
  match s.notifyPlace p w.naddr with
  | (u, .inr _) => u
  | (u, .inl l) => { u with acts := u.acts.mapVals fun _ a => match a.kind with
      | .watch i l' thr sc none => if locCovers l 4 l' then { a with kind := .watch i l' thr sc (some (u.counterAt p i l')) } else a
      | _ => a }

/-- POOLDRY. -/
def State.poolDry (s : State) (p : Nat) : State :=
  let ws := (s.remap p).windows
  if ws.any fun w => w.2.bufs.any Buffer.shut then s
  else
    let some_ := ws.filter fun w => !w.2.bufs.isEmpty
    some_.foldl (fun s w => (s.modWindow p w.1 fun x => { x.sealLast with dry := true }).dryWake p w.2) s

/-- A window's record breaks R362. -/
def windowBad (bs : List Byte) : Bool :=
  let wbase := dwordAt bs 0
  let src := dwordAt bs 8
  let na := dwordAt bs 16
  let rowb := wordAt bs 24
  let rows := wordAt bs 28
  wbase / 2 ^ 48 != 0 || wbase % 65536 != 0 || src / 2 ^ 48 != 0 || src % 64 != 0 || na % 4 != 0
    || decide (2 ≤ fld na 62 2) || !spaceZeros na || rowb % 64 != 0 || rowb == 0 || decide (65536 < rowb)
    || rows == 0 || decide (2 ^ 24 < rows) || decide (2 ^ 48 < wbase + 65536 * rowb)

/-- A pool record breaks R362. -/
def poolBad (bs : List Byte) : Bool :=
  dwordAt bs 0 / 2 ^ 48 != 0 || dwordAt bs 0 % 65536 != 0 || wordAt bs 8 == 0 || decide (65536 < wordAt bs 8)
    || (bs.drop 12).any (fun b => b != 0)

/-- Acts of the pool queue on a window, of a kind. -/
def State.queuedOn (s : State) (p n : Nat) (f : ActKind → Bool) : Bool :=
  (s.remap p).queue.any fun id => match s.acts.look id with
    | some a => f a.kind && match a.kind with
      | .remap _ _ _ w _ _ => w == n
      | .remapCfg _ _ _ w _ _ => w == n
      | _ => false
    | none => false

/-- The operation of REMAPC that has waited last on a window. -/
def State.lastCfg (s : State) (p n : Nat) : Option Nat :=
  ((s.remap p).queue.filterMap fun id => match (s.acts.look id).map Act.kind with
    | some (.remapCfg _ _ op w _ _) => if w = n then some op else none
    | _ => none).getLast?

/-- How the unit takes an operation: performed, or left in the pool queue. -/
inductive UnitStep where
  | done (s : State)
  | queue

/-- REMAPW at the unit (log 49, DEDUCED): an APPEND or CLOSE waits while the words that it writes are held back, an APPEND
for a buffer. -/
def State.remapStep (s : State) (slot p op n : Nat) (a b : Word) : UnitStep :=
  let trap : Nat → Word → UnitStep := fun c v => .done (s.remapAnswer slot c (v.zeroExtend 64))
  match (s.remap p).windows.look n with
  | none => trap 4 a
  | some w =>
    match op with
    | 0 =>
      if s.notifyHeld p w.naddr then .queue
      else if s.windowEnded p w.naddr || w.srcRows ≤ b.toNat then trap 4 b
      else if w.count = 65536 then trap 3 b
      else if w.needs && (s.remap p).free = 0 then .queue
      else if s.rowHeld p w then .queue
      else .done (s.doAppend slot p n b.toNat w)
    | 1 => .done ((s.modWindow p n fun w =>
        { w with bufs := w.bufs.filter fun x => !(x.shut && decide (x.base + x.rows.length ≤ b.toNat)) }).remapAnswer slot 0 0)
    | _ =>
      if s.notifyHeld p w.naddr then .queue
      else
        let r := (s.modWindow p n Window.sealLast).notify p w.naddr fun x => x ||| 0x80000000
        .done (r.1.remapAnswer slot r.2 (BitVec.ofNat 64 w.naddr))

/-- REMAPC at the unit. -/
def State.remapCfgStep (s : State) (slot p op n : Nat) (bs : List Byte) (addr : Addr) : State :=
  let r := s.remap p
  let refuse := s.remapAnswer slot 4 addr
  let ok : State → State := fun u => u.remapAnswer slot 0 0
  match op with
  | 0 =>
    if poolBad bs || r.windows.any fun w => !w.2.bufs.isEmpty then refuse
    else ok (s.modRemap p fun r => { r with poolBase := dwordAt bs 0, nbuf := wordAt bs 8 })
  | 1 =>
    if windowBad bs || (r.windows.look n).any fun w => !w.bufs.isEmpty then refuse
    else
      let w : Window := { wbase := dwordAt bs 0, src := dwordAt bs 8, naddr := dwordAt bs 16, rowb := wordAt bs 24, srcRows := wordAt bs 28 }
      ok (s.modRemap p fun r => { r with windows := r.windows.put n w })
  | 2 => ok (s.modRemap p fun r => { r with windows := r.windows.del n })
  | _ => refuse

def State.unqueue (s : State) (p act : Nat) : State :=
  (s.modRemap p fun r => { r with queue := r.queue.filter fun i => i != act }).dropAct act

/-- Looks once at each queued operation in arrival order: one that can be performed is. -/
def State.servePool (p : Nat) : List Nat → State → List Nat → State
  | [], s, _ => s
  | id :: r, s, blocked =>
    match (s.acts.look id).map Act.kind with
    | some (.remap slot _ op n a b) =>
      if blocked.contains n then State.servePool p r s blocked
      else match s.remapStep slot p op n a b with
      | .done u => State.servePool p r (u.unqueue p id) blocked
      | .queue => State.servePool p r s (n :: blocked)
    | some (.remapCfg slot _ op n bs addr) =>
      if blocked.contains n then State.servePool p r s blocked
      else State.servePool p r ((s.remapCfgStep slot p op n bs addr).unqueue p id) blocked
    | _ => State.servePool p r (s.unqueue p id) blocked

/-- Serves the pool queue until nothing changes. -/
def State.drainPool (p : Nat) : Nat → State → State
  | 0, s => s
  | n + 1, s =>
    let u := State.servePool p (s.remap p).queue s []
    if (u.remap p).queue.length < (s.remap p).queue.length then State.drainPool p n u else u

/-- An APPEND is the first operation that waits on its window, and it waits for a buffer. -/
def State.starved (p : Nat) : List Nat → State → List Nat → Bool
  | [], _, _ => false
  | id :: r, s, seen =>
    match (s.acts.look id).map Act.kind with
    | some (.remap _ _ op n _ _) =>
      (!seen.contains n && op == 0 && (s.remap p).free == 0 && ((s.remap p).windows.look n).any Window.needs) || State.starved p r s (n :: seen)
    | some (.remapCfg _ _ _ n _ _) => State.starved p r s (n :: seen)
    | _ => State.starved p r s seen

/-- The unit looks whether an expert can start, for the APPENDs that wait for a buffer (R366, R368). -/
def State.dryCheck (s : State) (p : Nat) : State := if State.starved p (s.remap p).queue s [] then s.poolDry p else s

def State.drain (s : State) (p : Nat) : State := (State.drainPool p ((s.remap p).queue.length + 1) s).dryCheck p

/-- An operation joins the pool queue; its flows no longer hold others back. -/
def State.joinPool (s : State) (p act : Nat) : State :=
  let s1 := s.modRemap p fun r => { r with queue := r.queue ++ [act] }
  match s1.acts.look act with
  | some x => { s1 with acts := s1.acts.put act { x with flows := [] } }
  | none => s1

/-- An operation of REMAPW arrives. What comes behind a RESET finds no window, what comes behind a DEFINE waits for it, and an
APPEND or CLOSE waits for what waits on its window; one that waits already is looked at again. -/
def State.remapArrive (s : State) (act slot p op n : Nat) (a b : Word) : State :=
  if (s.remap p).queue.contains act then s.drain p
  else match s.lastCfg p n with
  | some 2 => (s.dropAct act).remapAnswer slot 4 (a.zeroExtend 64)
  | some _ => s.joinPool p act
  | none =>
    if op ≠ 1 && s.queuedOn p n fun _ => true then s.joinPool p act
    else match s.remapStep slot p op n a b with
    | .done u => (u.dropAct act).drain p
    | .queue => (s.joinPool p act).dryCheck p

/-- An operation of REMAPC arrives: a DEFINE or RESET waits for what waits on its window. -/
def State.remapCfgArrive (s : State) (act slot p op n : Nat) (bs : List Byte) (addr : Addr) : State :=
  if (s.remap p).queue.contains act then s.drain p
  else if (op == 1 || op == 2) && s.queuedOn p n fun _ => true then s.joinPool p act
  else ((s.dropAct act).remapCfgStep slot p op n bs addr).drain p

/-! ### REMAPW and REMAPC (R365, R369) -/

/-- The unit's answer to the thread that waits. -/
def State.remapDone (s : State) (ws : List Word) : Res :=
  match ws with
  | [c, lo, hi] => .trap c.toNat (hi ++ lo)
  | _ => .ok (s.modMe fun t => { t with ans := none })

/-- The three REMAPW rows share one word: a[9:8] selects the operation. -/
def State.remapw (s : State) (a b : BitVec 5) : Host.Outcome State Fault Refusal :=
  s.perform [.s a.toNat, .s b.toNat] fun t =>
    let sel := t.rS a.toNat
    match t.me.ans with
    | some ws => t.remapDone ws
    | none =>
      if fieldOf sel 8 2 = 3 then .trap 4 (sel.zeroExtend 64)
      else match t.relWait with
      | some _ => .park .sketchZero
      | none => .stay (t.sendAll.send .request t.myCore 16403
          (.remap t.cur t.myPart (fieldOf sel 8 2) (fieldOf sel 0 6) sel (t.rS b.toNat))) .answer

def execRemapwAppend (a b : BitVec 5) (s : State) : Host.Outcome State Fault Refusal := s.remapw a b
def execRemapwRelease (a b : BitVec 5) (s : State) : Host.Outcome State Fault Refusal := s.remapw a b
def execRemapwClose (a b : BitVec 5) (s : State) : Host.Outcome State Fault Refusal := s.remapw a b

/-- The three REMAPC rows share one word too. -/
def State.remapc (s : State) (i : Instr) (a b : BitVec 5) : Host.Outcome State Fault Refusal :=
  s.performPriv i [.s a.toNat, .s b.toNat] fun t =>
    let sel := t.rS a.toNat
    let off := (t.rS b.toNat).toNat
    let addr := t.segAddr 0 off
    match t.me.ans with
    | some ws => t.remapDone ws
    | none =>
      match t.readRecord off 32 with
      | .stop r => r
      | .ok bs =>
          match t.relWait with
          | some w => .park w
          | none =>
            if fieldOf sel 10 22 ≠ 0 || fieldOf sel 6 2 ≠ 0 then .trap 4 addr
            else .stay (t.sendAll.send .request t.myCore 16403
              (.remapCfg t.cur t.myPart (fieldOf sel 8 2) (fieldOf sel 0 6) bs addr)) .answer

def execRemapcPool (a b : BitVec 5) (s : State) : Host.Outcome State Fault Refusal := s.remapc (.remapcPool a b) a b
def execRemapcDefine (a b : BitVec 5) (s : State) : Host.Outcome State Fault Refusal := s.remapc (.remapcDefine a b) a b
def execRemapcReset (a b : BitVec 5) (s : State) : Host.Outcome State Fault Refusal := s.remapc (.remapcReset a b) a b

end Sys2Proof.Machine
end

