-- ==== Sys2Proof/Machine/Arrivals.lean ====
section
/-!
DEFINITION. Arrivals: requests at their targets (R172, R191-R197), synchronising requests (R193), replies and
acknowledgements (R123), SC windows (R198), the copy engine (R207), counter watches and triggers (R210-R212),
near-memory operations (R213), bounced requests (R177, R185).
-/

namespace Sys2Proof.Machine

open Sys2Proof

/-! ### Requests at their targets -/

/-- An older SKUPD of the thread still has an access to make to the counter at a place: its counter accesses are the
thread's own (R228), and a later access of the thread to the same location comes behind them (R218). -/
def State.sketchAhead (s : State) (act id : Nat) (l : Loc) (n : Nat) : Bool :=
  match l with
  | .phys .stack _ _ => s.acts.any fun a => decide (a.1 < act) && match a.2.kind with
    | .sketch i _ op _ _ => i == id && op.pending.any fun va => (s.counterLoc (s.coreOfAny id) va).any fun c => locCovers l n c
    | _ => false
  | _ => false

/-- The partition that a thread of a slot or an image works for. -/
def State.partOfAny (s : State) (id : Nat) : Nat := (s.partOf (s.coreOfAny id)).getD 16

/-- The storey of a thread of a slot or an image. -/
def State.storeyOfAny (s : State) (id : Nat) : Nat := storeyOf (s.coreOfAny id)

/-- Bytes whose role an LCSPLIT change is moving hold a request back (R168). -/
def State.locMoving (s : State) (l : Loc) (n : Nat) : Bool :=
  match l with
  | .sram c off => (s.core c).movingBytes off n
  | _ => false

/-- A place that is being wiped (R422): a load or atomic of another partition is answered as fenced, and every other
request waits. -/
def State.locWiping (s : State) (l : Loc) : Bool :=
  match l with
  | .sram c _ => s.coreWiping c
  | _ => false
def State.locDenied (s : State) (id : Nat) (l : Loc) : Bool :=
  s.locFenced l || match l with
    | .sram c _ => s.coreWiping c && s.partOf c != s.partOf (s.coreOfAny id)
    | _ => false

/-- A guarded region of another core gives zero and takes nothing (R98, R169, R427). -/
def State.locGuarded (s : State) (l : Loc) (n : Nat) : Bool :=
  match l with
  | .sram c off => (s.core c).guarded off n
  | _ => false

/-- The same for a piece of an access, judged by the access's whole footprint (R427). -/
def State.footGuarded (s : State) (l : Loc) (foot size : Nat) : Bool := match l with
  | .sram c _ => (s.core c).guarded foot size
  | _ => false

/-- A request that changes `n` bytes at a place waits there: an LCSPLIT change (R168), a wipe (R422), the thread's own
sketch operations (R228), a page that migrates (R185). -/
def State.held (s : State) (act id : Nat) (l : Loc) (n : Nat) : Bool :=
  s.locMoving l n || s.locWiping l || s.sketchAhead act id l n || s.migrationHolds l

/-- The core's copies of a place's line are dropped. -/
def State.dropLoc (s : State) (core : Nat) (l : Loc) : State :=
  match l with
  | .phys cls pa _ => s.dropPhys core cls (pa / 256)
  | _ => s

/-- The bytes of one piece of a load at its target. A load that goes past the core's cache leaves it no older copy (R218). -/
def State.pieceAt (s : State) (id hint : Nat) (p : Piece) : State × List Byte :=
  match p.got with
  | some bs => (s, bs)
  | none =>
    match p.loc with
    | .reg k u o =>
      let r := s.readReg (some (s.partOfAny id)) k u o
      (r.2, leBytes 4 r.1.toNat)
    | l =>
      if s.footGuarded l p.foot p.size then (s, List.replicate p.n 0)
      else
        let s1 := s.reach (s.storeyOfAny id) (s.partOfAny id) hint l
        (if p.fill.isSome then s1 else s1.dropLoc (s.coreOfAny id) l, s1.readOwn id (s.partOfAny id) l p.n)

/-- The line that a core-cache miss brings in (R170). -/
def State.fillPiece (s : State) (id : Nat) (p : Piece) : State :=
  match p.fill, p.loc with
  | some c, .phys cls pa key =>
    let core := s.coreOfAny id
    s.installLine core { c with bytes := s.readCore core (s.partOfAny id) (.phys cls (pa / 256 * 256) key) 256 }
  | _, _ => s

/-- The unit that answers a load. -/
def State.answerer (s : State) (pieces : List Piece) : Nat :=
  match pieces.find? fun p => p.got.isNone with
  | some p => s.unitOf p.loc
  | none => 0

/-- A reply takes the place of its request among the acts, in the response class. -/
def State.replyAs (s : State) (src id : Nat) (k : ActKind) : State := s.send .response src (s.coreOfAny id) k

/-- A load is performed. -/
def State.loadAt (s : State) (act id : Nat) (pc : Word) (addr : Addr) (hint : Nat) (pieces : List Piece) (dest : LoadDest) : State :=
  let out := pieces.filter fun p => p.got.isNone
  let src := s.answerer pieces
  if out.any fun p => s.locDenied id p.loc then
    (s.dropAct act).replyAs src id (.reply id pc (((out.find? fun p => s.locDenied id p.loc).map Piece.addr).getD addr) dest [] true false none)
  else if out.any fun p => s.locMoving p.loc p.n || s.locWiping p.loc || s.sketchAhead act id p.loc p.n then s
  else
    let r := pieces.foldl (fun (a : State × List Byte) p => ((a.1.pieceAt id hint p).1, a.2 ++ (a.1.pieceAt id hint p).2)) (s.dropAct act, [])
    (out.foldl (fun u p => u.fillPiece id p) r.1).replyAs src id (.reply id pc addr dest r.2 false false none)

/-- One piece of a store. -/
def State.storePiece (s : State) (id : Nat) (hint : Nat) (p : Put) : State :=
  if s.locFenced p.loc then s.deferFenced id p.addr
  else match p.loc with
  | .reg k u o => s.writeReg (some (s.partOfAny id)) k u o (BitVec.ofNat 32 (leNat p.bytes))
  | l =>
    if s.footGuarded l p.foot p.size then s
    else (s.countAt (s.storeyOfAny id) (s.partOfAny id) l).writeLoc (s.partOfAny id) hint l p.bytes

/-- A store is performed and acknowledged. -/
def State.storeAt (s : State) (act id : Nat) (hint : Nat) (pieces : List Put) : State :=
  if pieces.any fun p => s.held act id p.loc p.bytes.length then s
  else
    let src := (pieces.map fun p => s.unitOf p.loc).headD 0
    (pieces.foldl (fun s p => s.storePiece id hint p) (s.dropAct act)).replyAs src id (.ack id)

/-- The read-modify-write of an atomic at its word's home (R197). The issuing core's copy of the line is dropped. -/
def State.amoHome (s : State) (id : Nat) (l : Loc) (op : Nat) (b exp : Word) : Word × State :=
  if s.coreOfAny id ≠ s.unitOf l && s.locGuarded l 4 then (0, s)
  else ((s.countAt (s.storeyOfAny id) (s.partOfAny id) l).dropLoc (s.coreOfAny id) l).amoAt (s.partOfAny id) l op b exp

/-- An atomic reaches its word's home. An SC atomic is performed there at the end of the window, in its order among the
window's others (R198, R225). -/
def State.amoRequest (s : State) (act id : Nat) (pc : Word) (addr : Addr) (l : Loc) (op : Nat) (b exp : Word) (d order : Nat)
    (sc : Scope) : State :=
  let dest : LoadDest := .scalar d 4 false
  let src := s.unitOf l
  if s.locDenied id l then (s.dropAct act).replyAs src id (.reply id pc addr dest [] true true none)
  else if s.held act id l 4 then s
  else if order = 4 then (s.dropAct act).postFree (.scHold id pc addr l op b exp d sc true)
  else
    let r := (s.dropAct act).amoHome id l op b exp
    r.2.replyAs src id (.reply id pc addr dest (leBytes 4 r.1.toNat) false true (if orderAcquires order then some sc else none))

/-- The partition under whose key or in whose storey a place lies. -/
def State.ownerOf (s : State) (l : Loc) : Nat :=
  match l with
  | .phys _ _ key => (s.pkg.keys.lookD key {}).part
  | .sram c _ => (s.partOf c).getD 16
  | .reg _ _ _ => 16

/-- A decrement of an event word is performed (R151). -/
def State.eventRequest (s : State) (act : Nat) (slot : Option Nat) (addr : Addr) (l : Loc) (n : Nat) : State :=
  let s0 := s.dropAct act
  if s.locMoving l 4 || s.locWiping l || s.migrationHolds l then s
  else match slot with
  | none => if s.locFenced l || s.locGuarded l 4 then s0 else (s0.decEventAt (s.ownerOf l) l n).pollHeld
  | some id =>
    if s.sketchAhead act id l 4 then s
    else
      let s1 := if s.locFenced l then s0.deferFenced id addr
        else if s.locGuarded l 4 then s0
        else (((s0.countAt (s.storeyOfAny id) (s.partOfAny id) l).dropLoc (s.coreOfAny id) l).decEventAt (s.partOfAny id) l n).pollHeld
      s1.replyAs (s.unitOf l) id (.ack id)

/-- A range of FECLR is performed at another core. -/
def State.feclrRequest (s : State) (act id core off n : Nat) : State :=
  let s0 := s.dropAct act
  if (s.core core).movingBytes off (4 * n) || s.coreWiping core then s
  else if s.coreFenced core then s0.fencedAck core (some id) (BitVec.ofNat 64 (localAddr core off))
  else (if (s.core core).guarded off (4 * n) then s0 else State.clearWords core n s0 off).ackTo core (some id)

/-- REMOTE_ACCESS_ARRIVAL. -/
def execRemoteAccessArrival (act : Nat) (s : State) : Host.Outcome State Fault Refusal :=
  .next (match s.ready? act with
    | some (.load id pc addr hint ps dest) => s.loadAt act id pc addr hint ps dest
    | some (.store id _ hint ps) => s.storeAt act id hint ps
    | some (.amo id pc addr l op b e d order sc) => s.amoRequest act id pc addr l op b e d order sc
    | some (.decEvent slot addr l n) => s.eventRequest act slot addr l n
    | some (.feclr id core off n) => s.feclrRequest act id core off n
    | some (.remap id p op n a b) => s.remapArrive act id p op n a b
    | some (.remapCfg id p op n bs addr) => s.remapCfgArrive act id p op n bs addr
    | _ => s)

/-- SYNC_REQUEST_ARRIVAL. -/
def execSyncRequestArrival (act : Nat) (s : State) : Host.Outcome State Fault Refusal :=
  .next (match s.ready? act with
    | some (.sync r core off) =>
      let s0 := s.dropAct act
      let zero : State :=
        if r.remote then s0.sendAck core r.slot
        else s0.replyAs core r.slot (.reply r.slot r.pc r.addr (.scalar r.d 4 false) (leBytes 4 0) false false none)
      let denied : Bool := s.coreFenced core
        || (!r.remote && s.coreWiping core && s.partOf core != s.partOf (s.coreOfAny r.slot))
      if !denied && ((s.core core).movingBytes off 4 || s.coreWiping core) then s
      else if denied then
        if r.remote then s0.fencedAck core (some r.slot) r.addr
        else s0.replyAs core r.slot (.reply r.slot r.pc r.addr (.scalar r.d 4 false) [] true false none)
      else if (s.core core).guarded off 4 then zero
      else if s.syncNow core off r.op then ((s0.syncAnswer core r (s.tcmWord core off)).syncAt core off r).serve core off
      else s0.syncWait core off r
    | _ => s)

/-! ### Replies -/

/-- What a reply brings is written for a thread that waits for it, which goes on: to its register, or among the records
that its instruction reads. -/
def State.giveLoad (s : State) (id : Nat) (addr : Addr) (dest : LoadDest) (bs : List Byte) (acq : Option Scope) : State :=
  let s1 := s.giveTo id fun u => match dest with
    | .record => u.modMe fun t => { t with recs := t.recs ++ [(addr, bs)] }
    | _ => u.deliver dest bs
  match acq, s.thr? id with
  | some sc, some _ => s1.acquire (coreOf id) sc
  | _, _ => s1

/-- A request that UNACK counts has been performed. -/
def State.settle (s : State) (id : Nat) (counted : Bool) : State :=
  if counted then s.modAny id fun t => { t with unack := t.unack - 1 } else s

/-- ACCESS_REPLY. A fenced answer traps at the instruction (R405). -/
def execAccessReply (act : Nat) (s : State) : Host.Outcome State Fault Refusal :=
  .next (match s.ready? act with
    | some (.reply id pc addr dest bs fenced counted acq) =>
      let s1 := (s.dropAct act).settle id counted
      if !fenced then s1.giveLoad id addr dest bs acq
      else match s.thr? id with
        | none => s1
        | some _ => (s1.modThr id fun t => { t with pc := pc, park := none }).takeTrap id 7 addr pc
    | _ => s)

/-- ACKNOWLEDGEMENT. -/
def execAcknowledgement (act : Nat) (s : State) : Host.Outcome State Fault Refusal :=
  .next (match s.ready? act with
    | some (.ack id) => (s.dropAct act).settle id true
    | _ => s)

/-! ### SC windows (R198, R225) -/

/-- Puts an SC atomic in its place by SLOTID. -/
def insertSc (x : Nat × Nat) : List (Nat × Nat) → List (Nat × Nat)
  | [] => [x]
  | y :: r => if x.1 < y.1 then x :: y :: r else y :: insertSc x r

/-- The SC atomics that have reached their homes, by SLOTID: SLOTID and act. -/
def State.scHeld (s : State) : List (Nat × Nat) :=
  s.acts.foldl (fun l a => match a.2.kind with
    | .scHold id _ _ _ _ _ _ _ _ _ => insertSc (id, a.1) l
    | _ => l) []

/-- One SC atomic is performed; one that a wipe, an LCSPLIT change or a migration holds goes to the next window. -/
def State.scPerform (s : State) (act : Nat) : State :=
  match s.acts.look act with
  | some { kind := .scHold id pc addr l op b e d sc counted, .. } =>
    if s.locDenied id l then
      (s.dropAct act).replyAs (s.unitOf l) id (.reply id pc addr (.scalar d 4 false) [] true counted none)
    else if s.held act id l 4 then s
    else
      let r := s.amoHome id l op b e
      r.2.setAct act (.scWait s.scWindow id pc d r.1 sc counted)
  | _ => s

/-- The last cycle of a window: the SC atomics that their homes hold are performed in order. -/
def State.closeWindow (s : State) : State :=
  if s.cycle % 64 = 63 then s.scHeld.foldl (fun u x => u.scPerform x.2) s else s

/-- SC_WINDOW_CLOSE: the threads of the windows that have closed go on. What precedes them in the total order happens
before what follows them, whatever the scopes of their segments (R225). -/
def execScWindowClose (s : State) : Host.Outcome State Fault Refusal :=
  .next (s.acts.foldl (fun u a => match a.2.kind with
    | .scWait w id _ d v sc counted =>
      if w < s.scWindow then
        ((u.dropAct a.1).settle id counted).giveLoad id 0 (.scalar d 4 false) (leBytes 4 v.toNat)
          (some (if sc = .sys then .sys else .pkg))
      else u
    | _ => u) s)

/-! ### The copy engine (R207) -/

/-- What an engine operation that moves bytes comes to: done, with a cause when a unit failed; stalled at a page that is
not present; or waiting at bytes that an LCSPLIT change moves or a wipe zeroes. -/
inductive EngDone where
  | done (s : State) (cause : Nat)
  | stall (page : Nat) (acc : Access)
  | wait

/-- The units of a row in order, each read as one load and written as one store: a failure stops at its unit, and the
units before it stay written. The hint applies to both (R174) (log 6, DESIGN CHOICE). -/
def copyUnits (id core part hint : Nat) (fill : Option Word) : Nat → State → Addr → Addr → EngDone
  | 0, s, _, _ => .done s 0
  | n + 1, s, d, a =>
    let unit : EngRead := match fill with
      | some v => .ok s (List.replicate 16 (leBytes 4 v.toNat)).flatten
      | none => State.engRead id core part hint 64 s a
    match unit with
    | .absent va => .stall (va / 65536) .read
    | .wait => .wait
    | .fail w c => .done w c
    | .ok u bs => match State.engWrite id core part hint u d bs with
      | .absent va => .stall (va / 65536) .write
      | .wait => .wait
      | .fail w c => .done w c
      | .ok w => copyUnits id core part hint fill n w (d + 64) (a + 64)

/-- The rows of a copy in order. -/
def copyRows (id core part hint : Nat) (fill : Option Word) : List (Addr × Addr × Nat) → State → EngDone
  | [], s => .done s 0
  | (d, a, n) :: r, s =>
    match copyUnits id core part hint fill n s d a with
    | .done u 0 => copyRows id core part hint fill r u
    | x => x

/-- The end of an engine operation on the core's queue and its tag. -/
def State.engineDone (s : State) (id tag cause : Nat) : State :=
  (s.modCore (s.coreOfAny id) fun c => { c with copies := c.copies - 1 }).tagDone id tag (cause != 0) cause

/-- What an engine operation brings about: its completion, a fault at a page that is not present (log 43, DESIGN CHOICE),
or nothing yet. -/
def State.engineEnd (s : State) (act id tag : Nat) (addrs : List Addr) (run : State → EngDone) : State :=
  let core := s.coreOfAny id
  if !s.inOrder act core (s.partOfAny id) addrs then s
  else match run (s.dropAct act) with
  | .stall page acc => s.pageFaulted (storeyOf core) page acc (flightOf core)
  | .wait => s
  | .done u cause => u.engineDone id tag cause

/-- The blocks that a copy reads and writes. -/
def CopyOp.addrs (c : CopyOp) : List Addr :=
  (c.rows.map fun r => blockAddrs r.1 (64 * r.2.2) ++ (if c.fill.isSome then [] else blockAddrs r.2.1 (64 * r.2.2))).flatten

/-- COPY_COMPLETE: the operation moves its units and completes. -/
def execCopyComplete (act : Nat) (s : State) : Host.Outcome State Fault Refusal :=
  .next (match s.ready? act with
    | some (.copy c) => s.engineEnd act c.slot c.tag (c.addrs) (copyRows c.slot (s.coreOfAny c.slot) (s.partOfAny c.slot) c.hint c.fill c.rows)
    | _ => s)

/-! ### Counters (R210-R212) -/

/-- COUNTER_WATCH_MET: the WAITC completes with the counter's value at that moment. -/
def execCounterWatchMet (act : Nat) (s : State) : Host.Outcome State Fault Refusal :=
  .next (match s.ready? act with
    | some (.watch id _ _ _ (some v)) => (s.dropAct act).modThr id fun t => { t with ans := some [v] }
    | _ => s)

/-- TRIGGER_FIRE: the armed operation is performed as if issued now. A copy into the TCM of a pre-empted thread's core
is held (R402), and a copy waits for room in the queue (log 42, DEDUCED). -/
def execTriggerFire (act : Nat) (s : State) : Host.Outcome State Fault Refusal :=
  .next (match s.ready? act with
    | some (.trigger id _ _ fire (some _)) =>
      let core := s.coreOfAny id
      let s1 := (s.dropAct act).modAny id fun t => { t with armed := t.armed - 1 }
      match fire with
      | .copy c =>
        if imageBase ≤ id && id < deadBase && c.intoTcm core then s
        else if 32 ≤ (s.core core).copies then s
        else if c.isEmpty then s1.tagDone id c.tag false 0
        else (s1.modCore core fun c => { c with copies := c.copies + 1 }).postFree (.copy c)
      | .dec sel n =>
        if n = 0 || fieldOf sel 0 2 ≠ 0 || fieldOf sel 12 7 ≠ 0 || s.partOf (fieldOf sel 19 13) ≠ s.partOf core then s1
        else s1.sendDec core sel (fieldOf n 0 16) none
    | _ => s)

/-! ### Near-memory operations (R213) -/

/-- The offset of the lowest byte in which two lists differ. -/
def firstDiff (a b : List Byte) : Option Nat := leastBelow a.length fun i => a.getD i 0 != b.getD i 0

/-- The result word of NCMP on a region with the other region's bytes, or of NRED. -/
def nearResult (n : NearOp) (bs other : List Byte) : Word :=
  let ws := wordsOf bs
  let offset : Option Nat → Word := fun o => match o with
    | some i => BitVec.ofNat 32 i
    | none => 0xFFFFFFFF
  let ints := ws.map BitVec.toInt
  let pick : Nat → (Word → Word → Bool) → Word := fun start less =>
    ws.foldl (fun acc x => if less x acc then x else acc) (BitVec.ofNat 32 start)
  let fpick : Bool → Word := fun max =>
    BitVec.ofNat 32 (ws.foldl (fun acc x => (f32.minmax max acc x.toNat).1) (if max then 0xFF800000 else 0x7F800000))
  if !n.reduce then
    if n.op = 0 then offset (firstDiff bs other)
    else offset ((leastBelow ws.length fun i => ws.getD i 0 != n.pattern).map (4 * ·))
  else if n.op = 0 then
    if n.float then BitVec.ofNat 32 (f32.sum (ws.map fun w => f32.val w.toNat)).1
    else BitVec.ofInt 32 (ints.foldl (· + ·) 0)
  else if n.float then fpick (n.op == 2)
  else if n.op = 1 then pick 0x7FFFFFFF fun x acc => x.slt acc
  else pick 0x80000000 fun x acc => acc.slt x

/-- What a near-memory operation comes to: the region is read, the second region too where there is one, and the
result word is written. -/
def nearRun (n : NearOp) (core part : Nat) (s : State) : EngDone :=
  match State.engRead n.slot core part 0 n.len s (BitVec.ofNat 64 n.region) with
  | .absent va => .stall (va / 65536) .read
  | .wait => .wait
  | .fail u c => .done u c
  | .ok s1 bs =>
    let second : EngRead :=
      if !n.reduce && n.op = 0 then State.engRead n.slot core part 0 n.len s1 (BitVec.ofNat 64 n.other) else .ok s1 []
    match second with
    | .absent va => .stall (va / 65536) .read
    | .wait => .wait
    | .fail u c => .done u c
    | .ok s2 other =>
      match State.engWrite n.slot core part 0 s2 n.res (leBytes 4 (nearResult n bs other).toNat) with
      | .absent va => .stall (va / 65536) .write
      | .wait => .wait
      | .fail u c => .done u c
      | .ok u => .done u 0

/-- The words that a near-memory operation reads and writes: NCMP of two regions reads both. -/
def NearOp.addrs (n : NearOp) : List Addr :=
  n.res :: blockAddrs (BitVec.ofNat 64 n.region) n.len ++ (if !n.reduce && n.op = 0 then blockAddrs (BitVec.ofNat 64 n.other) n.len else [])

/-- NEAR_MEMORY_COMPLETE. -/
def execNearMemoryComplete (act : Nat) (s : State) : Host.Outcome State Fault Refusal :=
  .next (match s.ready? act with
    | some (.near n) => s.engineEnd act n.slot n.tag n.addrs (nearRun n (s.coreOfAny n.slot) (s.partOfAny n.slot))
    | _ => s)

/-! ### Bounced requests (R177, R185) -/

/-- BOUNCED_REQUEST_REISSUE: the request goes to the new owner, in its place of the order. -/
def execBouncedRequestReissue (act : Nat) (s : State) : Host.Outcome State Fault Refusal :=
  .next (match s.acts.look act with
    | some { kind := .bounced k, .. } => s.setAct act k
    | _ => s)

end Sys2Proof.Machine
end

