-- ==== Sys2Proof/Machine/System.lean ====
section
/-!
DEFINITION. System: system-register access (R154-R158), ECALL, BREAK, TRET and HALT (R160), segment registers
(R161-R162, R166-R167).
-/

namespace Sys2Proof.Machine

open Sys2Proof

/-- Performs an access to system register `n`: PRIV in user mode where R154 says so, before the operands. -/
def State.sysAccess (s : State) (i : Instr) (n : Nat) (ops : List Opnd) (body : State → Res) : Host.Outcome State Fault Refusal :=
  if sysPriv n then s.performPriv i ops body else s.perform ops body

/-- SYSRD: a read of CYCLE's low word latches its high word (R158). -/
def State.sysRead (s : State) (d : BitVec 5) (n : Nat) : Host.Outcome State Fault Refusal :=
  s.sysAccess (.sysrd d (BitVec.ofNat 12 n)) n [.d d.toNat] fun t =>
    let u := if n = 0x018 then t.modMe fun x => { x with sys := { x.sys with cycLatch := BitVec.ofNat 32 (t.cycle / 2 ^ 32) } } else t
    .ok (u.wS d.toNat (t.readSys t.cur n))

def execSysrd (d : BitVec 5) (n : BitVec 12) (s : State) : Host.Outcome State Fault Refusal := s.sysRead d n.toNat

/-- CYCLE_LOW_READ: the read of CYCLE's low word with its latch. -/
def execCycleLowRead (d : BitVec 5) (s : State) : Host.Outcome State Fault Refusal := s.sysRead d 0x018

def execSyswr (d : BitVec 5) (n : BitVec 12) (s : State) : Host.Outcome State Fault Refusal :=
  s.sysAccess (.syswr d n) n.toNat [.s d.toNat] fun t => .ok (t.writeSys n.toNat 0 (t.rS d.toNat))
def execSysset (d : BitVec 5) (n : BitVec 12) (s : State) : Host.Outcome State Fault Refusal :=
  s.sysAccess (.sysset d n) n.toNat [.s d.toNat] fun t => .ok (t.writeSys n.toNat 1 (t.rS d.toNat))
def execSysclr (d : BitVec 5) (n : BitVec 12) (s : State) : Host.Outcome State Fault Refusal :=
  s.sysAccess (.sysclr d n) n.toNat [.s d.toNat] fun t => .ok (t.writeSys n.toNat 2 (t.rS d.toNat))

/-- ECALL and BREAK complete and trap: TPC is the next instruction's. -/
def execEcall (s : State) : Host.Outcome State Fault Refusal := s.perform [] fun _ => .trapNext 8 0
def execBrk (s : State) : Host.Outcome State Fault Refusal := s.perform [] fun _ => .trapNext 9 0

def execTret (s : State) : Host.Outcome State Fault Refusal :=
  s.performPriv .tret [] fun t => .gone (t.trapReturn t.cur)

/-- HALT holds the thread for the debug interface; where the life-cycle state disables debug, it acts as EXIT with
cause 9. -/
def execHalt (s : State) : Host.Outcome State Fault Refusal :=
  s.performPriv .halt [] fun t =>
    if t.debugOk then .gone (t.modMe fun x => { x with halted := true })
    else .gone ((t.modMe fun x => { x with
      sys := { x.sys.trapped 9 0 x.pc with tstatus := x.sys.tstatus ||| 4 }, exiting := true }).exitStep t.cur)

/-! ### Segment registers -/

/-- The table base and LAST that a thread holds (R156). -/
def Thread.sdtBase (t : Thread) : Nat := fieldOf t.sys.sdtL 12 20 * 4096 + fieldOf t.sys.sdtH 0 16 * 2 ^ 32
def Thread.sdtLast (t : Thread) : Nat := fieldOf t.sys.sdtL 0 12

/-- SEGLD with the descriptor's bytes. -/
def State.segLoad (s : State) (sg a d : Nat) : Res :=
  if !descValid d || (descSup d && s.me.userMode) then .trap 4 (BitVec.ofNat 64 a)
  else .ok (s.modMe fun t => { t with segs := t.segs.put sg (descSeg d) })

/-- SEGLD reads the descriptor at table base + 16·index (R161). DESIGN CHOICE (log 73): R161 lists no check of the
descriptor's own address; one past 2^48 traps SEG_LIMIT with that address. -/
def execSegld (sg : BitVec 3) (a : BitVec 5) (s : State) : Host.Outcome State Fault Refusal :=
  let body : State → Res := fun t =>
    let i := (t.rS a.toNat).toNat
    let va : Addr := BitVec.ofNat 64 (t.me.sdtBase + 16 * i)
    if t.me.sdtLast < i then .trap 3 (BitVec.ofNat 64 i)
    else if !spaceZeros va.toNat then .trap 3 va
    else match t.recordFrom {} va 16 with
      | .stop r => r
      | .ok bs => t.segLoad sg.toNat i (leNat bs)
  if sg = 1 then s.performPriv (.segld sg a) [.s a.toNat] body else s.perform [.s a.toNat] body

/-- One word of a segment register. -/
def Seg.word (g : Seg) (w : Nat) : Word :=
  match w with
  | 0 => g.base.truncate 32
  | 1 => BitVec.ofNat 32 (g.base.toNat / 2 ^ 32)
  | 2 => g.limit
  | _ => BitVec.ofNat 32 (g.rights.toNat + g.scope.no * 65536)

def execSegrd (d : BitVec 5) (sg : BitVec 3) (w : BitVec 3) (s : State) : Host.Outcome State Fault Refusal :=
  s.alu d.toNat [] fun t => (t.seg sg.toNat).word w.toNat

end Sys2Proof.Machine
end

