-- ==== Sys2Proof/Machine/Regs.lean ====
section
/-!
DEFINITION. Regs: the events in which a write of a core or flight register takes effect (R86, R97, R119-R120, R168,
R171), whoever wrote it.
-/

namespace Sys2Proof.Machine

open Sys2Proof

/-- A write of a core register of the part takes effect. -/
def State.coreWrite (s : State) (core n : Nat) (v : Word) : State := if core < 8192 then s.commitCore core n 0 v else s

def execSlotclsWrite (core : Nat) (value : Word) (s : State) : Host.Outcome State Fault Refusal := .next (s.coreWrite core 0x201 value)
def execRunctlWrite (core : Nat) (value : Word) (s : State) : Host.Outcome State Fault Refusal := .next (s.coreWrite core 0x203 value)
def execShpoolWrite (core : Nat) (value : Word) (s : State) : Host.Outcome State Fault Refusal := .next (s.coreWrite core 0x204 value)
def execLcsplitWrite (core : Nat) (value : Word) (s : State) : Host.Outcome State Fault Refusal := .next (s.coreWrite core 0x200 value)
def execMvtbaseWrite (core : Nat) (value : Word) (s : State) : Host.Outcome State Fault Refusal := .next (s.coreWrite core 0x202 value)

/-- The end of a core's oldest LCSPLIT change: the bytes that changed role are zero and full, and requests that wait on
their words are served (R168). -/
def State.lcsplitDone (s : State) (core : Nat) : State :=
  match (s.core core).moving with
  | [] => s
  | (lo, hi, _) :: r =>
    let s1 := (s.sramClear core lo hi).modCore core fun c => { c with moving := r }
    (s1.memory.syncQ.keys.filter fun w => decide (wordNo core lo ≤ w) && decide (w < wordNo core hi)).foldl
      (fun s w => s.serve core (4 * (w - wordNo core 0))) s1

/-- LCSPLIT_CHANGE_DONE: the threads parked on the bytes issue again (R123). -/
def execLcsplitChangeDone (core : Nat) (s : State) : Host.Outcome State Fault Refusal := .next (s.lcsplitDone core)

/-- LCSPLIT changes that have come to their last cycle end (R168). -/
def State.lcsplitDue (s : State) (core : Nat) : State :=
  (s.core core).moving.foldl (fun u m => if m.2.2 ≤ s.cycle then u.lcsplitDone core else u) s

/-- The clock advances by one core cycle: writes that commit at its end are seen from the cycle on, and LCSPLIT
changes end by their last cycle (R130, R157-R158, R168). A communication thread whose descriptor was not present starts
once its page is served (R133). -/
def State.tick (s : State) : State :=
  let s0 := { s with cycle := s.cycle + 1, settled := false }
  let s1 := s.cores.foldl (fun s c => if c.2.commits.isEmpty then s else s.applyCore c.1) s0
  let s2 := s.flights.foldl (fun s f => if f.2.commits.isEmpty then s else s.applyFlight f.1) s1
  let s3 := s.cores.foldl (fun s c => if c.2.moving.isEmpty then s else s.lcsplitDue c.1) s2
  s.cores.foldl (fun s c => if c.2.commWait then s.startComm c.1 else s) s3

def execVpoolWrite (flight : Nat) (value : Word) (s : State) : Host.Outcome State Fault Refusal :=
  .next (if flight < 512 then s.commitFlight flight 0 value else s)

end Sys2Proof.Machine
end

