-- ==== Sys2Proof/Machine/Host.lean ====
section
/-!
DEFINITION. Host: what the host link reaches: the apertures and the memory window of a virtual function (R64-R68,
R73-R78), the operator's function (R69-R71), SPDM and TDISP (R58-R60, R64), firmware images (R59), MSI-X (R76).
-/

namespace Sys2Proof.Machine

open Sys2Proof

/-! ### APSTAT (R68) -/

def apOVR : Nat := 17
def apSIZE : Nat := 18
def apPRIOERR : Nat := 19
def apHEAPFULL : Nat := 20
def apWFAULT : Nat := 21
def apIDXFULL : Nat := 22

def State.setAp (s : State) (p bit : Nat) : State := s.modPart p fun x => { x with apstat := setBit x.apstat bit true }

def Part.apstatWord (x : Part) : Word := x.apstat ||| BitVec.ofNat 32 x.busy.toNat

/-- A write of APSTAT clears the W1C bits that it names; it is served in every TDI state (R64). -/
def State.apWrite (s : State) (p : Nat) (v : Word) : State := s.modPart p fun x => { x with apstat := x.apstat &&& ~~~(v &&& 0x7E0000) }

/-- Answers that leave for the host. -/
def State.toHost (s : State) (p : Nat) (bs : List Byte) : State := { s with out := s.out ++ [.hostRead p bs] }

/-- A refused read (R64). -/
def State.refuseRead (s : State) (p : Nat) : State := { s.setAp p apWFAULT with out := s.out ++ [.unsupported p] }

def State.running (s : State) (p : Nat) : Bool := (s.part p).tdi == .run

/-! ### Staging slots and the doorbell (R73) -/

/-- One byte of a staging write. -/
def State.stageByte (s : State) (p off : Nat) (b : Byte) : State :=
  if 0x1000 ≤ off then s
  else if (s.part p).busy.getLsbD (off / 256) then s.setAp p apOVR
  else s.modPart p fun x =>
    { x with staging := x.staging.put (off / 256) ((x.staging.lookD (off / 256) (List.replicate 256 0)).set (off % 256) b) }

def execStagingWrite (part off : Nat) (bytes : List Byte) (s : State) : Host.Outcome State Fault Refusal :=
  .next (if 16 ≤ part then s
    else if !s.running part then s.setAp part apWFAULT
    else bytes.zipIdx.foldl (fun s b => s.stageByte part (off + b.2) b.1) s)

/-- An 8-byte LDOOR write of a partition in RUN (log 31, DESIGN CHOICE). -/
def State.doorbell (s : State) (p v : Nat) : State :=
  let slot := fld v 40 4
  let prio := fld v 32 5
  if (s.part p).busy.getLsbD slot then s.setAp p apOVR
  else if 23 < prio || fld v 44 20 ≠ 0 || fld v 37 3 ≠ 0 then s.setAp p apPRIOERR
  else match s.hall? (0xFFF0 + p) with
    | none => s
    | some h =>
      let key : VWord := ofLanes 32 [p, prio, fld v 0 32, 0, 256, 0]
      let slice := s.homeSlice (0xFFF0 + p) h key
      let r := s.servePut slice h (tupleOf (0xFFF0 + p) key .none) (some ((s.part p).staging.lookD slot (List.replicate 256 0), stOK)) none
      if r.2 = stHEAPFULL then s.setAp p apHEAPFULL
      else if r.2 = stINDEXFULL then s.setAp p apIDXFULL
      else r.1.modPart p fun x => { x with busy := setBit x.busy slot true }

def execLdoor (part : Nat) (value : BitVec 64) (size : Nat) (s : State) : Host.Outcome State Fault Refusal :=
  .next (if 16 ≤ part then s
    else if !s.running part then s.setAp part apWFAULT
    else if size ≠ 8 then s.setAp part apSIZE
    else s.doorbell part value.toNat)

def execStagingCaptureDone (part slot : Nat) (s : State) : Host.Outcome State Fault Refusal :=
  .next (if part < 16 && slot < 16 then s.modPart part fun x => { x with busy := setBit x.busy slot false } else s)

/-! ### Completions (R77-R78) -/

/-- The poll-mode take of CPOP: the slice and the oldest completion, of any length (log 71, DESIGN CHOICE). -/
def State.oldestCompletion (s : State) (p : Nat) : Option (Nat × Tuple) :=
  match s.hall? (0xFFE0 + p) with
  | none => none
  | some h =>
    let slice := s.homeSlice (0xFFE0 + p) h (ofLanes 32 [p])
    ((s.slice slice).tuples.find? fun t => t.hall == 0xFFE0 + p && (t.f.headD 0).toNat == p && t.f.getD 3 0 == 0).map fun t => (slice, t)

/-- What CPOP returns for a completion. -/
def cpopWord (t : Tuple) : Nat := 2 ^ 63 + ((t.f.getD 2 0).toNat % 256) * 2 ^ 32 + (t.f.getD 1 0).toNat

def execCpop (part size : Nat) (s : State) : Host.Outcome State Fault Refusal :=
  .next (if 16 ≤ part then s
    else if !s.running part then s.refuseRead part
    else if size ≠ 8 then s.toHost part (List.replicate size 0)
    else match s.oldestCompletion part with
    | none => s.toHost part (leBytes 8 0)
    | some (n, t) =>
      let r := s.payloadRead part n t
      let bs := r.2.1
      let s1 := (r.1.modSlice n fun x => { x with tuples := x.tuples.filter fun u => u.seq != t.seq }).freeHeap n t
      (s1.modPart part fun x => { x with cwin := bs ++ x.cwin.drop bs.length }).toHost part (leBytes 8 (cpopWord t)))

/-! ### The memory window (R65) -/

/-- The bytes of the window that lie in one 64-byte block each: address and place. -/
def windowBlocks (va : Nat) : Nat → List (Nat × Nat × Nat)
  | n => ((List.range (n / 64 + 2)).map fun i =>
      let lo := max va ((va / 64 + i) * 64)
      let hi := min (va + n) ((va / 64 + i + 1) * 64)
      (lo, lo - va, hi - lo)).filter fun b => b.2.2 != 0

/-- The place of one block with the state after its walk, or none when the access is refused (log 33, DEDUCED): through the
tables of the partition's lowest storey, and refused while it has none (log 71, DESIGN CHOICE). -/
def State.windowPlace (s : State) (p va : Nat) (write : Bool) : State × Option Loc :=
  if (s.part p).smask = 0 || 2 ^ 48 ≤ va || (write && (s.windowAt p va).isSome) then (s, none)
  else match s.unitWalk (s.partStorey p) p va (if write then .write else .read) with
    | .ok s1 l => (s1, if s1.locFenced l then none else some l)
    | .absent s1 => (s1, none)
    | .refused s1 => (s1, none)

def State.windowWriteBlock (s : State) (p : Nat) (b : Nat × Nat × Nat) (bs : List Byte) : State :=
  match s.windowPlace p b.1 true with
  | (s1, none) => s1.setAp p apWFAULT
  | (s1, some l) => s1.writeLoc p 0 l ((bs.drop b.2.1).take b.2.2)

def execWindowWrite (part off : Nat) (bytes : List Byte) (s : State) : Host.Outcome State Fault Refusal :=
  .next (if 16 ≤ part || 2 ^ 36 < off + bytes.length then s
    else if !s.running part then s.setAp part apWFAULT
    else (windowBlocks ((s.part part).wbase + off) bytes.length).foldl (fun s b => s.windowWriteBlock part b bytes) s)

/-- What a window read does to the slice that it reaches (R63, R174). -/
def State.windowReach (s : State) (p : Nat) (l : Loc) : State :=
  match l with
  | .phys cls pa key => s.llcLoad p 0 cls pa key
  | _ => s

/-- The bytes that the blocks of a window read give, or none when one is refused, and the state after the blocks before it. A
row of a remap window that is not recorded reads zero. -/
def State.windowBytes (s : State) (p : Nat) : List (Nat × Nat × Nat) → List Byte → State × Option (List Byte)
  | [], acc => (s, some acc)
  | b :: r, acc =>
    match s.remapRead p b.1 with
    | none => s.windowBytes p r (acc ++ List.replicate b.2.2 0)
    | some va => match s.windowPlace p va false with
      | (s1, none) => (s1, none)
      | (s1, some l) => (s1.windowReach p l).windowBytes p r (acc ++ s1.readLoc p l b.2.2)

/-- WINDOW_READ through BAR2; from 2^36 on, the offset is one of BAR0 (APSTAT, CWIN and zeros) (log 32, DEDUCED; reads of APSTAT
of other sizes or starts: log 71, DESIGN CHOICE). -/
def execWindowRead (part off size : Nat) (s : State) : Host.Outcome State Fault Refusal :=
  .next (if 16 ≤ part then s
    else if 2 ^ 36 ≤ off then
      let o := off - 2 ^ 36
      if o = 0x1008 then s.toHost part ((leBytes 4 (s.part part).apstatWord.toNat).take size)
      else if !s.running part then s.refuseRead part
      else s.toHost part ((List.range size).map fun i =>
        if 0x1100 ≤ o + i && o + i < 0x1200 then (s.part part).cwin.getD (o + i - 0x1100) 0 else 0)
    else if !s.running part then s.refuseRead part
    else match s.windowBytes part (windowBlocks ((s.part part).wbase + off) size) [] with
      | (s1, some bs) => s1.toHost part bs
      | (s1, none) => s1.refuseRead part)

/-! ### Partition descriptors and key slots (R70-R71) -/

def maskBits (m : BitVec 128) : List Nat := (List.range 128).filter fun n => m.getLsbD n

/-- A storey joins or leaves a partition: its table root is reset, it holds the table of its partition, and it is
wiped (R180, R421). -/
def State.moveStorey (s : State) (sdtb : Addr) (n : Nat) : State :=
  (s.modStorey n fun x => { x with ptrootL := 0, ptrootH := 0, sdtb := sdtb }).wipeStorey n

/-- A write of SMASK by PF0. -/
def State.setSmask (s : State) (p : Nat) (mask : BitVec 128) : State :=
  match (s.part p).tdi with
  | .error => s
  | .locked => s.toError p
  | .run => s.toError p
  | .unlocked =>
    let old := (s.part p).smask
    let added := maskBits (mask &&& ~~~old)
    let gone := maskBits (old &&& ~~~mask)
    if added.any fun n => (s.partOfStorey n).any fun q => (s.part q).tdi != .unlocked then s
    else
      let s1 := { s with pkg := { s.pkg with parts := s.pkg.parts.mapVals fun _ x => { x with smask := x.smask &&& ~~~mask } } }
      let s2 := s1.modPart p fun x => { x with smask := mask }
      let s3 := added.foldl (fun s n => s.moveStorey (s2.part p).sdtb n) s2
      gone.foldl (fun s n => s.moveStorey 0 n) s3

def execSmaskWrite (part : Nat) (mask : BitVec 128) (s : State) : Host.Outcome State Fault Refusal :=
  .next (if part < 16 then s.setSmask part mask else s)

/-- A write of another field of a descriptor; an 8-byte half of SMASK is a write of SMASK. -/
def State.setDescriptor (s : State) (p off v : Nat) : State :=
  if off = 0x00 then s.setSmask p (BitVec.ofNat 128 ((s.part p).smask.toNat / 2 ^ 64 * 2 ^ 64 + v))
  else if off = 0x08 then s.setSmask p (BitVec.ofNat 128 ((s.part p).smask.toNat % 2 ^ 64 + v * 2 ^ 64))
  else if off ≠ 0x10 && off ≠ 0x18 then s
  else match (s.part p).tdi with
  | .error => s
  | .locked => s.toError p
  | .run => s.toError p
  | .unlocked =>
    if off = 0x10 then s.modPart p fun x => { x with wbase := fld v 16 32 * 65536 }
    else
      let a : Addr := BitVec.ofNat 64 (fld v 0 48)
      (maskBits (s.part p).smask).foldl (fun s n => s.modStorey n fun x => { x with sdtb := a })
        (s.modPart p fun x => { x with sdtb := a })

def execPartitionDescriptorWrite (part off : Nat) (value : BitVec 64) (s : State) : Host.Outcome State Fault Refusal :=
  .next (if part < 16 then s.setDescriptor part off value.toNat else s)

/-- A write of a byte of the key-slot table: accepted while the old and the new owner are unlocked; a change erases
the slot. -/
def State.setKeySlot (s : State) (slot : Nat) (value : Byte) : State :=
  if slot = 0 || 4096 ≤ slot then s
  else
    let k := s.pkg.keys.lookD slot {}
    let a := value.getLsbD 7
    let part := fieldOf value 0 4
    let free : Nat → Bool := fun p => (s.part p).tdi == .unlocked
    if (k.a && !free k.part) || (a && !free part) then s
    else if a == k.a && part == k.part then s
    else s.modPkg fun g => { g with keys := g.keys.put slot { a := a, part := part, gen := k.gen + 1, usable := false } }

def execKeySlotWrite (slot : Nat) (value : Byte) (s : State) : Host.Outcome State Fault Refusal := .next (s.setKeySlot slot value)

def execKeyMaterialReady (slot : Nat) (s : State) : Host.Outcome State Fault Refusal :=
  .next (match s.pkg.keys.look slot with
    | some k => if k.a then s.modPkg fun g => { g with keys := g.keys.put slot { k with usable := true } } else s
    | none => s)

/-! ### The BARs of PF0 (R69-R71) -/

def Tdi.code : Tdi → Nat
  | .unlocked => 0
  | .locked => 1
  | .run => 2
  | .error => 3

/-- The 64 bytes of a partition descriptor. -/
def Part.descriptor (x : Part) : List Byte :=
  leBytes 16 x.smask.toNat ++ leBytes 8 x.wbase ++ leBytes 8 x.sdtb.toNat ++ leBytes 4 x.tdi.code ++ List.replicate 28 0

/-- PSTAT: the partitions that run. -/
def State.pstat (s : State) : Nat :=
  ((List.range 16).map fun p => if (s.part p).tdi = .run then 2 ^ p else 0).foldl (· + ·) 0

/-- A byte of the key-slot table. -/
def State.keyByte (s : State) (k : Nat) : Byte :=
  let x := s.pkg.keys.lookD k {}
  if k = 0 then 0 else BitVec.ofNat 8 ((if x.a then 128 else 0) + x.part % 16)

/-- A byte of BAR0. -/
def State.pfByte (s : State) (o : Nat) : Byte :=
  if o < 0x400 then (s.part (o / 64)).descriptor.getD (o % 64) 0
  else if o < 0x404 then (leBytes 4 s.pstat).getD (o - 0x400) 0
  else if 0x1000 ≤ o && o < 0x2000 then s.keyByte (o - 0x1000)
  else 0

/-- The key-slot table takes accesses of 1, 4 and 8 bytes (log 64, DEDUCED). -/
def keySize (n : Nat) : Bool := n == 1 || n == 4 || n == 8

/-- An access of the system aperture: aligned, and of 4 bytes. -/
def apertureOk (off n : Nat) : Bool := n == 4 && off % 4 == 0 && decide (off < 2 ^ 26)

/-- A read of BAR0 or BAR2 by the operator. -/
def State.pfRead (s : State) (bar off size : Nat) : State :=
  if bar = 0 then
    if 0x1000 ≤ off && off < 0x2000 && !keySize size then s.toHost 16 (List.replicate size 0)
    else s.toHost 16 ((List.range size).map fun i => s.pfByte (off + i))
  else if bar = 2 && apertureOk off size then
    let r := s.readReg none (fld off 24 2) (fld off 12 12) (fld off 0 12)
    r.2.toHost 16 (leBytes 4 r.1.toNat)
  else s.toHost 16 (List.replicate size 0)

/-- A write of a descriptor's bytes: each RW field that it covers, whole or in part, is written (log 64, DEDUCED). The first
field that a locked or running TDI refuses moves it to ERROR, where the others are discarded. -/
def State.pfDescriptor (s : State) (p o : Nat) (bs : List Byte) : State :=
  let new := patch (s.part p).descriptor o bs
  let field : Nat → Nat → Nat := fun base n => leNat ((new.drop base).take n)
  let covers : Nat → Nat → Bool := fun base n => decide (o < base + n) && decide (base < o + bs.length)
  let s1 := if covers 0 16 then s.setSmask p (BitVec.ofNat 128 (field 0 16)) else s
  let s2 := if covers 0x10 8 then s1.setDescriptor p 0x10 (field 0x10 8) else s1
  if covers 0x18 8 then s2.setDescriptor p 0x18 (field 0x18 8) else s2

/-- A write of BAR0 or BAR2 by the operator. -/
def State.pfWrite (s : State) (bar off : Nat) (bs : List Byte) : State :=
  if bar = 0 then
    if off < 0x400 then s.pfDescriptor (off / 64) (off % 64) bs
    else if 0x1000 ≤ off && off < 0x2000 && keySize bs.length then
      bs.zipIdx.foldl (fun u b => u.setKeySlot (off - 0x1000 + b.2) b.1) s
    else s
  else if bar = 2 && apertureOk off bs.length then
    s.writeReg none (fld off 24 2) (fld off 12 12) (fld off 0 12) (BitVec.ofNat 32 (leNat bs))
  else s

/-- PF0 defines a launch or completion hall while the partition's TDI is unlocked (R72): package scope, home field f0, its
heap in the partition's memory. A launch hall that PF0 starts makes the module ACTIVE (R423) (log 30, DEDUCED). -/
def State.defineHall (s : State) (hall base size : Nat) : State :=
  let p := hall % 16
  if hall < 0xFFE0 || 0xFFFF < hall || (s.part p).tdi != .unlocked then s
  else
    let s1 := s.putHall hall { part := p, sys := false, homef := 1, group := 0, heapBase := base, heapSize := size }
    if 0xFFF0 ≤ hall && s1.pkg.state == .standby then s1.modPkg fun g => { g with state := .active } else s1

/-! ### SPDM (R58-R60)

The spec names the messages and what they return; the bytes of certificates, digests and signatures are opaque. -/

def State.modSpdm (s : State) (f : Spdm → Spdm) : State := s.modPkg fun g => { g with spdm := f g.spdm }

/-- Answers a request and extends the transcript; an answer above the negotiated transmit size is carried by CHUNK_GET (R59). -/
def State.spdmAnswer (s : State) (req : Nat) (f : Spdm → Spdm) (answer : List Nat) : State :=
  let s1 := s.modSpdm fun x => { f x with transcript := x.transcript ++ [req], large := answer }
  { s1 with out := s.out ++ [if s1.pkg.spdm.size ≠ 0 && s1.pkg.spdm.size < answer.length then .spdmLarge req else .spdm req answer] }

/-- An error answer. -/
def State.spdmError (s : State) (req : Nat) : State := { s with out := s.out ++ [.spdm req []] }

/-- Bytes that a digest or signature of the part is made of. -/
def opaqueBytes (what : List Nat) (n : Nat) : List Nat := (List.range n).map fun i => Config.digest what i % 256

/-- The length of a dual signature (R59). -/
def signatureBytes : Nat := 64 + 3309

def execGetVersion (s : State) : Host.Outcome State Fault Refusal :=
  .next ((s.modSpdm fun x => { x with caps := false, algs := false, exchange := false, session := false, transcript := [], chunkIn := [], size := 0 }).spdmAnswer
    0x84 (fun x => { x with version := true }) [0x13])

/-- GET_CAPABILITIES brings the requester's transmit size, a word that is drawn; the smaller of both sizes counts. -/
def execGetCapabilities (s : State) : Host.Outcome State Fault Refusal :=
  .next (if s.pkg.spdm.version then
      s.drawWord.2.spdmAnswer 0xE1
        (fun x => { x with caps := true, size := min s.drawWord.1.toNat (Config.digest [0xE1] 4 % 2 ^ 32 + 1) }) (opaqueBytes [0xE1] 4)
    else s.spdmError 0xE1)

/-- The pair of signatures is one algorithm; a requester that does not offer it, SHA-384, secp384r1 and AES-256-GCM gets no
agreement (R58-R59). -/
def execNegotiateAlgorithms (offers : Bool) (s : State) : Host.Outcome State Fault Refusal :=
  .next (if s.pkg.spdm.caps && offers then s.spdmAnswer 0xE3 (fun x => { x with algs := true }) (opaqueBytes [0xE3] 4)
    else s.spdmError 0xE3)

def execGetDigests (s : State) : Host.Outcome State Fault Refusal :=
  .next (if s.pkg.spdm.algs then s.spdmAnswer 0x81 id (opaqueBytes [0x81] 48) else s.spdmError 0x81)

/-- The identity certificate: what stands before, between and after the Ed25519 and the ML-DSA-65 public key is opaque (R59). -/
def certificate : List Nat :=
  opaqueBytes [0x82, 0] (Config.digest [0x82] 0 % 4096) ++ opaqueBytes [0x82, 1] 32 ++ opaqueBytes [0x82, 2] (Config.digest [0x82] 1 % 4096)
    ++ opaqueBytes [0x82, 3] 1952 ++ opaqueBytes [0x82, 4] (Config.digest [0x82] 2 % 8192)

/-- The identity certificate is in slot 0. -/
def execGetCertificate (slot off len : Nat) (s : State) : Host.Outcome State Fault Refusal :=
  .next (if s.pkg.spdm.algs && slot = 0 then s.spdmAnswer 0x82 id ((certificate.drop off).take len) else s.spdmError 0x82)

def execChallenge (nonce : Nat) (s : State) : Host.Outcome State Fault Refusal :=
  .next (if s.pkg.spdm.algs then s.spdmAnswer 0x83 id (opaqueBytes (s.pkg.spdm.transcript ++ [0x83, nonce]) signatureBytes)
    else s.spdmError 0x83)

/-- A hall's descriptor as it is measured. -/
def State.hallConfig (s : State) (n : Nat) : List Nat :=
  n :: match s.hall? n with
    | some h => [h.part, if h.sys then 1 else 0, h.homef.toNat, h.heapBase, h.heapSize]
    | none => []

/-- What block 5 digests: the storey mask, the key slots and the launch and completion halls of a TDI. -/
def State.configOf (s : State) (p : Nat) : List Nat :=
  [(s.part p).smask.toNat] ++ ((s.pkg.keys.filter fun k => k.2.a && k.2.part == p).map Prod.fst)
    ++ s.hallConfig (0xFFF0 + p) ++ s.hallConfig (0xFFE0 + p)

/-- What the other blocks digest: the boot ROM, the firmware that the part has accepted for the block (2 or 3), the
life-cycle state with the fuses. -/
def State.blockOf (s : State) (index : Nat) : List Nat :=
  [0xE0, index] ++ (if index = 2 || index = 3 then [s.pkg.spdm.firmware.lookD index 0] else if index = 4 then [s.pkg.life.code] else [])

/-- The digest of a block: blocks 1-4 of the part, and block 5 of the TDI that asks, of 48 zero bytes while it is unlocked. -/
def State.measurement (s : State) (fn index : Nat) : List Nat :=
  if index < 5 then opaqueBytes (s.blockOf index) 48
  else match (s.part (fn - 1)).measure with
    | some c => opaqueBytes c 48
    | none => opaqueBytes (List.replicate 48 0) 48

/-- GET_MEASUREMENTS: a block, signed where the request asks for it. -/
def execGetMeasurements (fn index : Nat) (s : State) : Host.Outcome State Fault Refusal :=
  let block := index % 256
  .next (if !s.pkg.spdm.algs || block = 0 || 5 < block || (block = 5 && (fn = 0 || 16 < fn)) then s.spdmError 0xE0
    else s.spdmAnswer 0xE0 id (s.measurement fn block
      ++ if index / 256 % 2 = 1 then opaqueBytes (s.pkg.spdm.transcript ++ [0xE0, fn, index]) signatureBytes else []))

def execKeyExchange (nonce : Nat) (s : State) : Host.Outcome State Fault Refusal :=
  .next (if s.pkg.spdm.algs then
      s.spdmAnswer 0xE4 (fun x => { x with exchange := true }) (opaqueBytes (s.pkg.spdm.transcript ++ [0xE4, nonce]) signatureBytes)
    else s.spdmError 0xE4)

def execSpdmFinish (verified : Bool) (s : State) : Host.Outcome State Fault Refusal :=
  .next (if s.pkg.spdm.exchange && verified then s.spdmAnswer 0xE5 (fun x => { x with exchange := false, session := true }) [1]
    else s.spdmError 0xE5)

def execKeyUpdate (s : State) : Host.Outcome State Fault Refusal :=
  .next (if s.pkg.spdm.session then s.spdmAnswer 0xE9 (fun x => { x with updates := x.updates + 1 }) [1] else s.spdmError 0xE9)

def execHeartbeat (s : State) : Host.Outcome State Fault Refusal :=
  .next (if s.pkg.spdm.session then s.spdmAnswer 0xE8 id [1] else s.spdmError 0xE8)

def execEndSession (s : State) : Host.Outcome State Fault Refusal :=
  .next (if s.pkg.spdm.session then s.spdmAnswer 0xEC (fun x => { x with session := false, updates := 0 }) [1] else s.spdmError 0xEC)

/-- IDE_KM programs or refreshes the keys of a stream: 0 for PF0, n for VFn. -/
def execIdeKm (stream : Nat) (s : State) : Host.Outcome State Fault Refusal :=
  .next (if s.pkg.spdm.session && stream ≤ 16 then s.spdmAnswer 0xFE (fun x => { x with streams := insertNat stream x.streams }) [1]
    else s.spdmError 0xFE)

/-- The state after a request. -/
def afterRequest (o : Host.Outcome State Fault Refusal) (s : State) : State :=
  match o with
  | .next t => t
  | _ => s

/-- A message that chunks have carried whole is performed as the request that it is; where its fields stand, SPDM lays down. -/
def State.spdmMessage (s : State) (bs : List Byte) : State :=
  let m := bs.map BitVec.toNat
  let f := Config.spdmField m
  let yes : Nat → Bool := fun i => f i != 0
  match f 0 with
  | 0x84 => afterRequest (execGetVersion s) s
  | 0xE1 => afterRequest (execGetCapabilities s) s
  | 0xE3 => afterRequest (execNegotiateAlgorithms (yes 1) s) s
  | 0x81 => afterRequest (execGetDigests s) s
  | 0x82 => afterRequest (execGetCertificate (f 1) (f 2) (f 3) s) s
  | 0x83 => afterRequest (execChallenge (f 1) s) s
  | 0xE0 => afterRequest (execGetMeasurements (f 1) (f 2) s) s
  | 0xE4 => afterRequest (execKeyExchange (f 1) s) s
  | 0xE5 => afterRequest (execSpdmFinish (yes 1) s) s
  | 0xE9 => afterRequest (execKeyUpdate s) s
  | 0xE8 => afterRequest (execHeartbeat s) s
  | 0xEC => afterRequest (execEndSession s) s
  | 0xFE => afterRequest (execIdeKm (f 1) s) s
  | r => s.spdmError r

/-- CHUNK_SEND gathers a large message; with its last chunk the message is performed (R59). -/
def execChunkSend (bytes : List Byte) (last : Bool) (s : State) : Host.Outcome State Fault Refusal :=
  .next (let s1 := { s.modSpdm (fun x => { x with chunkIn := if last then [] else x.chunkIn ++ bytes }) with out := s.out ++ [.spdm 0x85 [1]] }
    if last then s1.spdmMessage (s.pkg.spdm.chunkIn ++ bytes) else s1)

/-- CHUNK_GET returns a part of the last answer, in pieces of the negotiated transmit size. -/
def execChunkGet (seq : Nat) (s : State) : Host.Outcome State Fault Refusal :=
  .next { s with out := s.out ++ [.spdm 0x86 ((s.pkg.spdm.large.drop (seq * s.pkg.spdm.size)).take s.pkg.spdm.size)] }

/-! ### TDISP (R64) -/

def State.tdisp (s : State) (p : Nat) (ok : Bool) : State := { s with out := s.out ++ [.tdisp p ok] }

/-- The queries of TDISP (R58): the state of the interface; the version, the capabilities and the report are opaque
(log 11, DESIGN CHOICE). -/
def State.tdispGet (s : State) (p kind : Nat) : State :=
  if 16 ≤ p || 3 < kind then s.tdisp p false
  else { s with out := s.out ++ [.tdispInfo p kind
    (if kind = 3 then [(s.part p).tdi.code] else opaqueBytes [0x7100 + kind, (s.part p).tdi.code] (Config.digest [0x7100 + kind] 0 % 4096))] }

def execLockInterfaceRequest (part : Nat) (s : State) : Host.Outcome State Fault Refusal :=
  .next (if part < 16 && (s.part part).tdi == .unlocked then
      (s.modPart part fun x => { x with tdi := .locked, measure := some (s.configOf part) }).tdisp part true
    else s.tdisp part false)

/-- START_INTERFACE_REQUEST: the first TDI that runs makes the module ACTIVE (R423). -/
def execStartInterfaceRequest (part : Nat) (s : State) : Host.Outcome State Fault Refusal :=
  .next (if part < 16 && (s.part part).tdi == .locked then
      ((s.modPart part fun x => { x with tdi := .run }).modPkg fun g => { g with state := .active }).tdisp part true
    else s.tdisp part false)

/-- The interface stops: the work is cancelled, the storeys and what the partition holds elsewhere are wiped, and the
TDI is unlocked (log 36, DEDUCED). -/
def State.stopInterface (s : State) (p : Nat) : State :=
  let ts := s.tasksOfPart p
  let s1 := ts.foldl State.forget (ts.foldl State.cancelTask s)
  let s2 := (maskBits (s.part p).smask).foldl State.wipeStorey s1
  (s2.wipePart p).modPart p fun x => { x with tdi := .unlocked, measure := none }

def execStopInterfaceRequest (part : Nat) (s : State) : Host.Outcome State Fault Refusal :=
  .next (if part < 16 then (s.stopInterface part).tdisp part true else s)

/-- A Function Level Reset of a VF acts as STOP_INTERFACE_REQUEST (R417). -/
def execVfFunctionLevelReset (part : Nat) (s : State) : Host.Outcome State Fault Refusal :=
  .next (if part < 16 then s.stopInterface part else s)

/-- A failure on a TDI's stream moves the TDI to ERROR; on PF0's stream it fences the host link (R404) (log 34, DEDUCED). -/
def execIdeIntegrityFailure (stream : Nat) (s : State) : Host.Outcome State Fault Refusal :=
  .next (if stream = 0 then s.fence 5 3 0 else if stream ≤ 16 then s.toError (stream - 1) else s)

/-- A firmware image is accepted when both halves of its signature verify (R59). -/
def execFirmwareImage (component image : Nat) (edOk mlOk : Bool) (s : State) : Host.Outcome State Fault Refusal :=
  .next (if edOk && mlOk then
      { s.modSpdm (fun x => { x with firmware := x.firmware.put component image }) with out := s.out ++ [.firmware true] }
    else { s with out := s.out ++ [.firmware false] })

/-! ### Register writes without a row of their own -/

/-- REGISTER_WRITE: the system aperture (kinds 0-3, R69), APSTAT (kind 16, unit p), and the mask bit of a vector
(kind 17, unit = function, offset = vector). Other writes to BAR0 are refused or discarded (R64, R66). -/
def execRegisterWrite (kind unit off : Nat) (value : Word) (s : State) : Host.Outcome State Fault Refusal :=
  .next (if kind = 16 then
      if 16 ≤ unit then s
      else if off = 0x1008 then s.apWrite unit value
      else if s.running unit then s else s.setAp unit apWFAULT
    else if kind = 17 then
      if off < 8 && value.getLsbD 0 then
        if unit = 0 then s.modPkg fun g => { g with pfMasked := setBit g.pfMasked off true }
        else if unit ≤ 16 then s.modPart (unit - 1) fun x => { x with msixMasked := setBit x.msixMasked off true }
        else s
      else s
    else s.writeReg none kind unit off value)

/-- MSI_X_VECTOR_UNMASK: the vector's mask is cleared and its pending message is sent. -/
def execMsiXVectorUnmask (fn vector : Nat) (s : State) : Host.Outcome State Fault Refusal :=
  .next (if 16 < fn || 8 ≤ vector then s
    else if fn = 0 then
      let s1 := s.modPkg fun g => { g with pfMasked := setBit g.pfMasked vector false, pfPending := setBit g.pfPending vector false }
      if s.pkg.pfPending.getLsbD vector then { s1 with out := s1.out ++ [.msix 0 vector] } else s1
    else
      let s1 := s.modPart (fn - 1) fun x => { x with msixMasked := setBit x.msixMasked vector false, msixPending := setBit x.msixPending vector false }
      if (s.part (fn - 1)).msixPending.getLsbD vector then { s1 with out := s1.out ++ [.msix fn vector] } else s1)

end Sys2Proof.Machine
end

