-- ==== Sys2Proof/Machine/Reset.lean ====
section
/-!
DEFINITION. Reset: fencing events and deferred traps (R390, R404-R405), debug action (R160, R417-R419), resets, life
cycle and wipes (R417-R422), power and heat (R423-R426), pool modules (R186).
-/

namespace Sys2Proof.Machine

open Sys2Proof

/-! ### Fences and deferred traps -/

/-- The numbers of each kind of function that can be fenced; kind 6 logs a pool sector by its link. -/
def fenceUnits : Nat → Nat
  | 0 => 8192
  | 1 => 512
  | 2 => 16
  | 3 => 4
  | 4 => 8
  | 5 => 1
  | 6 => 4
  | _ => 0

def execFunctionFence (kind reason unit : Nat) (s : State) : Host.Outcome State Fault Refusal :=
  .next (if unit < fenceUnits kind && reason < 4 then s.fence kind reason unit else s)

/-- The held trap of a thread: FENCED before WATCHDOG. -/
def Thread.heldTrap (t : Thread) : Option (Nat × Addr) :=
  match t.fencedTrap with
  | some a => some (7, a)
  | none => if t.watchdogTrap then some (16, 0) else none

/-- The thread can take its held trap now (R390). -/
def State.canRaise (s : State) (id : Nat) : Bool :=
  let t := s.thr id
  t.heldTrap.isSome && !t.trapActive && !t.halted && !t.exiting && !t.cancelled && !s.defers id

/-- The held trap is raised: a parked thread is woken first, and its requests that wait are withdrawn. -/
def State.raiseHeld (s : State) (id : Nat) : State :=
  match (s.thr id).heldTrap with
  | none => s
  | some (cause, val) =>
    let s1 := ((s.withdrawSync id).withdrawWatch id).modThr id fun t => { t with park := none, ans := none }
    let s2 := s1.takeTrap id cause val (s1.thr id).pc
    if (s2.thr id).trapActive || (s2.thr id).exiting then
      s2.modThr id fun t => if cause = 7 then { t with fencedTrap := none } else { t with watchdogTrap := false }
    else s2

def execDeferredFencedTrap (slotid : Nat) (s : State) : Host.Outcome State Fault Refusal :=
  .next (if (s.thr slotid).fencedTrap.isSome && s.canRaise slotid then s.raiseHeld slotid else s)

/-! ### Debug -/

/-- DEBUG_RELEASE: a halted thread goes on at the next instruction, or at a pc that the debug interface has written, whose bits
1 and 0 read as zero (log 73, DESIGN CHOICE). -/
def execDebugRelease (slotid : Nat) (newPc : Option Word) (s : State) : Host.Outcome State Fault Refusal :=
  .next (if s.debugOk && (s.thr slotid).halted then
      s.modThr slotid fun t => { t with halted := false, pc := match newPc with
        | some v => v &&& 0xFFFFFFFC
        | none => t.pc + 4 }
    else s)

def execDebugReset (core : Nat) (s : State) : Host.Outcome State Fault Refusal := .next (s.debugReset core)

/-! ### Resets, life cycle, wipes -/

/-- The module without power: what the modules of the pool and the hosts hold stays, with the fuses and the firmware (log 35, DEDUCED). -/
def State.unpowered (s : State) (st : Power) : State :=
  { State.reset with
    memory := { State.reset.memory with
      pool := s.memory.pool, host := s.memory.host, keyTag := s.memory.keyTag.filter fun t => t.1 % 2 == 1 }
    pkg := { State.reset.pkg with
      keys := s.pkg.keys.mapVals fun _ k => { gen := k.gen + 1 }, life := s.pkg.life, state := st
      poolFailed := s.pkg.poolFailed, spdm := { firmware := s.pkg.spdm.firmware } }
    agenda := s.agenda, draws := s.draws, out := s.out, peers := s.peers }

def execPowerOnReset (s : State) : Host.Outcome State Fault Refusal := .next (s.unpowered .standby)
def execPowerRemoved (s : State) : Host.Outcome State Fault Refusal := .next (s.unpowered .off)
def execPackageReset (s : State) : Host.Outcome State Fault Refusal := .next (s.pkgReset s.pkg.life false)

def Life.ofCode : Nat → Option Life
  | 0 => some .manufacture
  | 1 => some .develop
  | 2 => some .production
  | 3 => some .return
  | _ => none

/-- LIFE_CYCLE_CHANGE under a verified command of the security controller. -/
def execLifeCycleChange (target : Nat) (verified : Bool) (s : State) : Host.Outcome State Fault Refusal :=
  .next (match verified, Life.ofCode target with
    | true, some l => s.pkgReset l true
    | _, _ => s)

def execWipeComplete (storey : Nat) (s : State) : Host.Outcome State Fault Refusal :=
  .next (if (s.storey storey).wiping then s.modStorey storey fun x => { x with wiping := false } else s)

/-! ### Power and heat (R425-R426) -/

/-- New readings of power (in units of 2 W) and temperature. -/
def State.readings (s : State) (power temp : Nat) : State :=
  s.modPkg fun g =>
    let low : Pkg → Bool := fun g => decide (g.power ≤ 2100) && decide (g.temp ≤ 90)
    let g1 := { g with power := power % 4096, temp := temp % 256 }
    { g1 with coolFrom := if low g && low g1 then g.coolFrom else s.cycle }

/-- The throttle level rises above the limits, and falls once both readings have been low for 2^24 cycles since they fell or
since the last fall (R425). -/
def State.throttle (s : State) : State :=
  if 2200 < s.pkg.power || 95 < s.pkg.temp then s.modPkg fun g => { g with thr := min 3 (g.thr + 1) }
  else if s.pkg.power ≤ 2100 && s.pkg.temp ≤ 90 && s.pkg.coolFrom + 2 ^ 24 ≤ s.cycle then
    s.modPkg fun g => { g with thr := g.thr - 1, coolFrom := s.cycle }
  else s

/-- At 105 °C every task is cancelled, PF0 is told, and OFF follows 2^20 cycles later (R426). -/
def State.heatTrip (s : State) : State :=
  if 105 ≤ s.pkg.temp && s.pkg.offAt.isNone then
    ((s.pkg.tasks.keys.foldl State.cancelTask s).msix 0 2).modPkg fun g => { g with offAt := some (s.cycle + 2 ^ 20) }
  else s

/-- A reading, whichever limit it passes. -/
def State.reading (s : State) (power temp : Nat) : State := ((s.readings power temp).throttle).heatTrip

def execThrRise (power temp : Nat) (s : State) : Host.Outcome State Fault Refusal := .next (s.reading power temp)
def execThrFall (power temp : Nat) (s : State) : Host.Outcome State Fault Refusal := .next (s.reading power temp)
def execThermalTrip (temp : Nat) (s : State) : Host.Outcome State Fault Refusal := .next (s.reading s.pkg.power temp)

/-- THERMAL_OFF, 2^20 cycles after the trip. -/
def execThermalOff (s : State) : Host.Outcome State Fault Refusal :=
  .next (match s.pkg.offAt with
    | some c => if c ≤ s.cycle then s.unpowered .off else s
    | none => s)

/-! ### Pool modules (R186) -/

def execPoolModuleFailure (module : Nat) (s : State) : Host.Outcome State Fault Refusal :=
  .next (s.modPkg fun g => { g with poolFailed := insertNat module g.poolFailed })

end Sys2Proof.Machine
end

