-- ==== Sys2Proof/Machine/Dispatch.lean ====
section
/-!
DEFINITION. Dispatch: the one meaning of every constructor of Instr.
-/

namespace Sys2Proof.Machine

open Sys2Proof

def exec (i : Instr) (s : State) : Host.Outcome State Fault Refusal :=
  match i with
  | .add d a b => Sys2Proof.Machine.execAdd d a b s
  | .sub d a b => Sys2Proof.Machine.execSub d a b s
  | .and d a b => Sys2Proof.Machine.execAnd d a b s
  | .or d a b => Sys2Proof.Machine.execOr d a b s
  | .xor d a b => Sys2Proof.Machine.execXor d a b s
  | .andn d a b => Sys2Proof.Machine.execAndn d a b s
  | .orn d a b => Sys2Proof.Machine.execOrn d a b s
  | .xnor d a b => Sys2Proof.Machine.execXnor d a b s
  | .sll d a b => Sys2Proof.Machine.execSll d a b s
  | .srl d a b => Sys2Proof.Machine.execSrl d a b s
  | .sra d a b => Sys2Proof.Machine.execSra d a b s
  | .rol d a b => Sys2Proof.Machine.execRol d a b s
  | .ror d a b => Sys2Proof.Machine.execRor d a b s
  | .slt d a b => Sys2Proof.Machine.execSlt d a b s
  | .sltu d a b => Sys2Proof.Machine.execSltu d a b s
  | .min d a b => Sys2Proof.Machine.execMin d a b s
  | .max d a b => Sys2Proof.Machine.execMax d a b s
  | .minu d a b => Sys2Proof.Machine.execMinu d a b s
  | .maxu d a b => Sys2Proof.Machine.execMaxu d a b s
  | .mul d a b => Sys2Proof.Machine.execMul d a b s
  | .mulh d a b => Sys2Proof.Machine.execMulh d a b s
  | .mulhu d a b => Sys2Proof.Machine.execMulhu d a b s
  | .mulhsu d a b => Sys2Proof.Machine.execMulhsu d a b s
  | .div d a b => Sys2Proof.Machine.execDiv d a b s
  | .divu d a b => Sys2Proof.Machine.execDivu d a b s
  | .rem d a b => Sys2Proof.Machine.execRem d a b s
  | .remu d a b => Sys2Proof.Machine.execRemu d a b s
  | .clz d a => Sys2Proof.Machine.execClz d a s
  | .ctz d a => Sys2Proof.Machine.execCtz d a s
  | .popc d a => Sys2Proof.Machine.execPopc d a s
  | .sextb d a => Sys2Proof.Machine.execSextb d a s
  | .sexth d a => Sys2Proof.Machine.execSexth d a s
  | .zexth d a => Sys2Proof.Machine.execZexth d a s
  | .bswap d a => Sys2Proof.Machine.execBswap d a s
  | .addi d a imm => Sys2Proof.Machine.execAddi d a imm s
  | .andi d a imm => Sys2Proof.Machine.execAndi d a imm s
  | .ori d a imm => Sys2Proof.Machine.execOri d a imm s
  | .xori d a imm => Sys2Proof.Machine.execXori d a imm s
  | .slti d a imm => Sys2Proof.Machine.execSlti d a imm s
  | .sltiu d a imm => Sys2Proof.Machine.execSltiu d a imm s
  | .slli d a n => Sys2Proof.Machine.execSlli d a n s
  | .srli d a n => Sys2Proof.Machine.execSrli d a n s
  | .srai d a n => Sys2Proof.Machine.execSrai d a n s
  | .lui d imm => Sys2Proof.Machine.execLui d imm s
  | .adpc d imm => Sys2Proof.Machine.execAdpc d imm s
  | .jal d off => Sys2Proof.Machine.execJal d off s
  | .jalr d a imm => Sys2Proof.Machine.execJalr d a imm s
  | .beq a b off => Sys2Proof.Machine.execBeq a b off s
  | .bne a b off => Sys2Proof.Machine.execBne a b off s
  | .blt a b off => Sys2Proof.Machine.execBlt a b off s
  | .bge a b off => Sys2Proof.Machine.execBge a b off s
  | .bltu a b off => Sys2Proof.Machine.execBltu a b off s
  | .bgeu a b off => Sys2Proof.Machine.execBgeu a b off s
  | .ldb d a seg imm => Sys2Proof.Machine.execLdb d a seg imm s
  | .ldbu d a seg imm => Sys2Proof.Machine.execLdbu d a seg imm s
  | .ldh d a seg imm => Sys2Proof.Machine.execLdh d a seg imm s
  | .ldhu d a seg imm => Sys2Proof.Machine.execLdhu d a seg imm s
  | .ldw d a seg imm => Sys2Proof.Machine.execLdw d a seg imm s
  | .stb d a seg imm => Sys2Proof.Machine.execStb d a seg imm s
  | .sth d a seg imm => Sys2Proof.Machine.execSth d a seg imm s
  | .stw d a seg imm => Sys2Proof.Machine.execStw d a seg imm s
  | .ldfe d a seg imm => Sys2Proof.Machine.execLdfe d a seg imm s
  | .ldff d a seg imm => Sys2Proof.Machine.execLdff d a seg imm s
  | .stfe d a seg imm => Sys2Proof.Machine.execStfe d a seg imm s
  | .stff d a seg imm => Sys2Proof.Machine.execStff d a seg imm s
  | .amoadd order d a seg b => Sys2Proof.Machine.execAmoadd order d a seg b s
  | .amoswap order d a seg b => Sys2Proof.Machine.execAmoswap order d a seg b s
  | .amocas order d a seg b => Sys2Proof.Machine.execAmocas order d a seg b s
  | .amoand order d a seg b => Sys2Proof.Machine.execAmoand order d a seg b s
  | .amoor order d a seg b => Sys2Proof.Machine.execAmoor order d a seg b s
  | .amoxor order d a seg b => Sys2Proof.Machine.execAmoxor order d a seg b s
  | .amomin order d a seg b => Sys2Proof.Machine.execAmomin order d a seg b s
  | .amomax order d a seg b => Sys2Proof.Machine.execAmomax order d a seg b s
  | .amominu order d a seg b => Sys2Proof.Machine.execAmominu order d a seg b s
  | .amomaxu order d a seg b => Sys2Proof.Machine.execAmomaxu order d a seg b s
  | .fence kind scope => Sys2Proof.Machine.execFence kind scope s
  | .drain => Sys2Proof.Machine.execDrain s
  | .feclr seg a b => Sys2Proof.Machine.execFeclr seg a b s
  | .trig d seg a b => Sys2Proof.Machine.execTrig d seg a b s
  | .waitc d seg a b => Sys2Proof.Machine.execWaitc d seg a b s
  | .ncmp d seg a b => Sys2Proof.Machine.execNcmp d seg a b s
  | .nred d seg a b => Sys2Proof.Machine.execNred d seg a b s
  | .cpy hint d a b => Sys2Proof.Machine.execCpy hint d a b s
  | .cpyg hint d a b => Sys2Proof.Machine.execCpyg hint d a b s
  | .cpys hint d a b => Sys2Proof.Machine.execCpys hint d a b s
  | .cpyf hint d a b => Sys2Proof.Machine.execCpyf hint d a b s
  | .wtany d a => Sys2Proof.Machine.execWtany d a s
  | .wtall a => Sys2Proof.Machine.execWtall a s
  | .tfirst d a => Sys2Proof.Machine.execTfirst d a s
  | .tclr a => Sys2Proof.Machine.execTclr a s
  | .tstat d a => Sys2Proof.Machine.execTstat d a s
  | .vld vd seg a imm k => Sys2Proof.Machine.execVld vd seg a imm k s
  | .vlds vd seg a imm b k => Sys2Proof.Machine.execVlds vd seg a imm b k s
  | .vldx vd seg a imm vb k => Sys2Proof.Machine.execVldx vd seg a imm vb k s
  | .vst vd seg a imm k => Sys2Proof.Machine.execVst vd seg a imm k s
  | .vsts vd seg a imm b k => Sys2Proof.Machine.execVsts vd seg a imm b k s
  | .vstx vd seg a imm vb k => Sys2Proof.Machine.execVstx vd seg a imm vb k s
  | .viadd t vd va vb k => Sys2Proof.Machine.execViadd t vd va vb k s
  | .visub t vd va vb k => Sys2Proof.Machine.execVisub t vd va vb k s
  | .vimul t vd va vb k => Sys2Proof.Machine.execVimul t vd va vb k s
  | .vimin t vd va vb k => Sys2Proof.Machine.execVimin t vd va vb k s
  | .vimax t vd va vb k => Sys2Proof.Machine.execVimax t vd va vb k s
  | .viand t vd va vb k => Sys2Proof.Machine.execViand t vd va vb k s
  | .vior t vd va vb k => Sys2Proof.Machine.execVior t vd va vb k s
  | .vixor t vd va vb k => Sys2Proof.Machine.execVixor t vd va vb k s
  | .visll t vd va vb k => Sys2Proof.Machine.execVisll t vd va vb k s
  | .visrl t vd va vb k => Sys2Proof.Machine.execVisrl t vd va vb k s
  | .visra t vd va vb k => Sys2Proof.Machine.execVisra t vd va vb k s
  | .viabs t vd va k => Sys2Proof.Machine.execViabs t vd va k s
  | .vadd t vd va vb k => Sys2Proof.Machine.execVadd t vd va vb k s
  | .vsub t vd va vb k => Sys2Proof.Machine.execVsub t vd va vb k s
  | .vmul t vd va vb k => Sys2Proof.Machine.execVmul t vd va vb k s
  | .vfma t vd va vb k => Sys2Proof.Machine.execVfma t vd va vb k s
  | .vfms t vd va vb k => Sys2Proof.Machine.execVfms t vd va vb k s
  | .vmin t vd va vb k => Sys2Proof.Machine.execVmin t vd va vb k s
  | .vmax t vd va vb k => Sys2Proof.Machine.execVmax t vd va vb k s
  | .vabs t vd va k => Sys2Proof.Machine.execVabs t vd va k s
  | .vneg t vd va k => Sys2Proof.Machine.execVneg t vd va k s
  | .vsqrt t vd va k => Sys2Proof.Machine.execVsqrt t vd va k s
  | .vrcp t vd va k => Sys2Proof.Machine.execVrcp t vd va k s
  | .vrsq t vd va k => Sys2Proof.Machine.execVrsq t vd va k s
  | .vexp2 t vd va k => Sys2Proof.Machine.execVexp2 t vd va k s
  | .vscl t vd va vb k => Sys2Proof.Machine.execVscl t vd va vb k s
  | .vcmp cond t kd va vb k => Sys2Proof.Machine.execVcmp cond t kd va vb k s
  | .vsel t vd va vb k => Sys2Proof.Machine.execVsel t vd va vb k s
  | .vshuf t vd va vb k => Sys2Proof.Machine.execVshuf t vd va vb k s
  | .vslide t vd va vb k => Sys2Proof.Machine.execVslide t vd va vb k s
  | .vredsum t vd va k => Sys2Proof.Machine.execVredsum t vd va k s
  | .vredmax t vd va k => Sys2Proof.Machine.execVredmax t vd va k s
  | .vredmin t vd va k => Sys2Proof.Machine.execVredmin t vd va k s
  | .vcvt mode t src vd va k => Sys2Proof.Machine.execVcvt mode t src vd va k s
  | .kand kd ka kb => Sys2Proof.Machine.execKand kd ka kb s
  | .kor kd ka kb => Sys2Proof.Machine.execKor kd ka kb s
  | .knot kd ka => Sys2Proof.Machine.execKnot kd ka s
  | .kmov kd ka => Sys2Proof.Machine.execKmov kd ka s
  | .vbcast vd a m => Sys2Proof.Machine.execVbcast vd a m s
  | .vget d va b m => Sys2Proof.Machine.execVget d va b m s
  | .vput vd a b m => Sys2Proof.Machine.execVput vd a b m s
  | .kget d ka w => Sys2Proof.Machine.execKget d ka w s
  | .kset kd a w => Sys2Proof.Machine.execKset kd a w s
  | .mma d a m => Sys2Proof.Machine.execMma d a m s
  | .mmarb d a m => Sys2Proof.Machine.execMmarb d a m s
  | .mmacn d a m => Sys2Proof.Machine.execMmacn d a m s
  | .mbld a l => Sys2Proof.Machine.execMbld a l s
  | .mbpass l => Sys2Proof.Machine.execMbpass l s
  | .mzero d => Sys2Proof.Machine.execMzero d s
  | .mfmt a => Sys2Proof.Machine.execMfmt a s
  | .mfmtq a => Sys2Proof.Machine.execMfmtq a s
  | .put vd a b => Sys2Proof.Machine.execPut vd a b s
  | .putg vd a b => Sys2Proof.Machine.execPutg vd a b s
  | .read mode vd a b => Sys2Proof.Machine.execRead mode vd a b s
  | .take mode vd a b => Sys2Proof.Machine.execTake mode vd a b s
  | .tcancel d b => Sys2Proof.Machine.execTcancel d b s
  | .halldefDefine d a b => Sys2Proof.Machine.execHalldefDefine d a b s
  | .halldefRetire d a b => Sys2Proof.Machine.execHalldefRetire d a b s
  | .hallq d a b => Sys2Proof.Machine.execHallq d a b s
  | .split d a => Sys2Proof.Machine.execSplit d a s
  | .splst d a => Sys2Proof.Machine.execSplst d a s
  | .skset n a => Sys2Proof.Machine.execSkset n a s
  | .skupd n d va vb => Sys2Proof.Machine.execSkupd n d va vb s
  | .skqry n vd va => Sys2Proof.Machine.execSkqry n vd va s
  | .skadd n d a => Sys2Proof.Machine.execSkadd n d a s
  | .skclr n => Sys2Proof.Machine.execSkclr n s
  | .freeze => Sys2Proof.Machine.execFreeze s
  | .nest a b => Sys2Proof.Machine.execNest a b s
  | .njoin => Sys2Proof.Machine.execNjoin s
  | .tstw d a => Sys2Proof.Machine.execTstw d a s
  | .tstv vd a => Sys2Proof.Machine.execTstv vd a s
  | .finfo d n => Sys2Proof.Machine.execFinfo d n s
  | .msg d a b => Sys2Proof.Machine.execMsg d a b s
  | .rput a b => Sys2Proof.Machine.execRput a b s
  | .rputv vd a => Sys2Proof.Machine.execRputv vd a s
  | .empty d => Sys2Proof.Machine.execEmpty d s
  | .emptyv vd => Sys2Proof.Machine.execEmptyv vd s
  | .testp d x => Sys2Proof.Machine.execTestp d x s
  | .testpVector d x => Sys2Proof.Machine.execTestpVector d x s
  | .wfm d => Sys2Proof.Machine.execWfm d s
  | .landa a => Sys2Proof.Machine.execLanda a s
  | .landw a => Sys2Proof.Machine.execLandw a s
  | .landaw a => Sys2Proof.Machine.execLandaw a s
  | .landq d a => Sys2Proof.Machine.execLandq d a s
  | .cgput a b => Sys2Proof.Machine.execCgput a b s
  | .cgputv a vb => Sys2Proof.Machine.execCgputv a vb s
  | .cgget d a => Sys2Proof.Machine.execCgget d a s
  | .cggetv vd a => Sys2Proof.Machine.execCggetv vd a s
  | .cgset a b => Sys2Proof.Machine.execCgset a b s
  | .spawn a => Sys2Proof.Machine.execSpawn a s
  | .dec a b => Sys2Proof.Machine.execDec a b s
  | .decEvent seg a b => Sys2Proof.Machine.execDecEvent seg a b s
  | .exit => Sys2Proof.Machine.execExit s
  | .yield => Sys2Proof.Machine.execYield s
  | .hsift a b => Sys2Proof.Machine.execHsift a b s
  | .remapwAppend a b => Sys2Proof.Machine.execRemapwAppend a b s
  | .remapwRelease a b => Sys2Proof.Machine.execRemapwRelease a b s
  | .remapwClose a b => Sys2Proof.Machine.execRemapwClose a b s
  | .remapcPool a b => Sys2Proof.Machine.execRemapcPool a b s
  | .remapcDefine a b => Sys2Proof.Machine.execRemapcDefine a b s
  | .remapcReset a b => Sys2Proof.Machine.execRemapcReset a b s
  | .sysrd d n => Sys2Proof.Machine.execSysrd d n s
  | .syswr d n => Sys2Proof.Machine.execSyswr d n s
  | .sysset d n => Sys2Proof.Machine.execSysset d n s
  | .sysclr d n => Sys2Proof.Machine.execSysclr d n s
  | .ecall => Sys2Proof.Machine.execEcall s
  | .brk => Sys2Proof.Machine.execBrk s
  | .tret => Sys2Proof.Machine.execTret s
  | .halt => Sys2Proof.Machine.execHalt s
  | .segld sg a => Sys2Proof.Machine.execSegld sg a s
  | .segrd d sg w => Sys2Proof.Machine.execSegrd d sg w s
  | .registerWrite kind unit off value => Sys2Proof.Machine.execRegisterWrite kind unit off value s
  | .slotclsWrite core value => Sys2Proof.Machine.execSlotclsWrite core value s
  | .runctlWrite core value => Sys2Proof.Machine.execRunctlWrite core value s
  | .shpoolWrite core value => Sys2Proof.Machine.execShpoolWrite core value s
  | .lcsplitWrite core value => Sys2Proof.Machine.execLcsplitWrite core value s
  | .lcsplitChangeDone core => Sys2Proof.Machine.execLcsplitChangeDone core s
  | .mvtbaseWrite core value => Sys2Proof.Machine.execMvtbaseWrite core value s
  | .vpoolWrite flight value => Sys2Proof.Machine.execVpoolWrite flight value s
  | .cycleLowRead d => Sys2Proof.Machine.execCycleLowRead d s
  | .stagingWrite part off bytes => Sys2Proof.Machine.execStagingWrite part off bytes s
  | .ldoor part value size => Sys2Proof.Machine.execLdoor part value size s
  | .stagingCaptureDone part slot => Sys2Proof.Machine.execStagingCaptureDone part slot s
  | .cpop part size => Sys2Proof.Machine.execCpop part size s
  | .windowWrite part off bytes => Sys2Proof.Machine.execWindowWrite part off bytes s
  | .windowRead part off size => Sys2Proof.Machine.execWindowRead part off size s
  | .smaskWrite part mask => Sys2Proof.Machine.execSmaskWrite part mask s
  | .partitionDescriptorWrite part off value => Sys2Proof.Machine.execPartitionDescriptorWrite part off value s
  | .keySlotWrite slot value => Sys2Proof.Machine.execKeySlotWrite slot value s
  | .keyMaterialReady slot => Sys2Proof.Machine.execKeyMaterialReady slot s
  | .getVersion => Sys2Proof.Machine.execGetVersion s
  | .getCapabilities => Sys2Proof.Machine.execGetCapabilities s
  | .negotiateAlgorithms offers => Sys2Proof.Machine.execNegotiateAlgorithms offers s
  | .getDigests => Sys2Proof.Machine.execGetDigests s
  | .getCertificate slot off len => Sys2Proof.Machine.execGetCertificate slot off len s
  | .challenge nonce => Sys2Proof.Machine.execChallenge nonce s
  | .getMeasurements fn index => Sys2Proof.Machine.execGetMeasurements fn index s
  | .keyExchange nonce => Sys2Proof.Machine.execKeyExchange nonce s
  | .spdmFinish verified => Sys2Proof.Machine.execSpdmFinish verified s
  | .keyUpdate => Sys2Proof.Machine.execKeyUpdate s
  | .heartbeat => Sys2Proof.Machine.execHeartbeat s
  | .endSession => Sys2Proof.Machine.execEndSession s
  | .chunkSend bytes last => Sys2Proof.Machine.execChunkSend bytes last s
  | .chunkGet seq => Sys2Proof.Machine.execChunkGet seq s
  | .ideKm stream => Sys2Proof.Machine.execIdeKm stream s
  | .lockInterfaceRequest part => Sys2Proof.Machine.execLockInterfaceRequest part s
  | .startInterfaceRequest part => Sys2Proof.Machine.execStartInterfaceRequest part s
  | .stopInterfaceRequest part => Sys2Proof.Machine.execStopInterfaceRequest part s
  | .ideIntegrityFailure stream => Sys2Proof.Machine.execIdeIntegrityFailure stream s
  | .vfFunctionLevelReset part => Sys2Proof.Machine.execVfFunctionLevelReset part s
  | .firmwareImage component image edOk mlOk => Sys2Proof.Machine.execFirmwareImage component image edOk mlOk s
  | .launchAdmit part => Sys2Proof.Machine.execLaunchAdmit part s
  | .decMessage act => Sys2Proof.Machine.execDecMessage act s
  | .errorToken act => Sys2Proof.Machine.execErrorToken act s
  | .wakeMessage act => Sys2Proof.Machine.execWakeMessage act s
  | .composingThreadStart task => Sys2Proof.Machine.execComposingThreadStart task s
  | .formeCopyReceived core task => Sys2Proof.Machine.execFormeCopyReceived core task s
  | .stampItem core slot => Sys2Proof.Machine.execStampItem core slot s
  | .preempt core => Sys2Proof.Machine.execPreempt core s
  | .imageSaveDone slotid => Sys2Proof.Machine.execImageSaveDone slotid s
  | .resume core slot => Sys2Proof.Machine.execResume core slot s
  | .watchdogExpiry task => Sys2Proof.Machine.execWatchdogExpiry task s
  | .taskCompletion task => Sys2Proof.Machine.execTaskCompletion task s
  | .formeRelease core task => Sys2Proof.Machine.execFormeRelease core task s
  | .nestedFormeRelease core forme => Sys2Proof.Machine.execNestedFormeRelease core forme s
  | .messageArrival act => Sys2Proof.Machine.execMessageArrival act s
  | .handlerThreadStart core slot => Sys2Proof.Machine.execHandlerThreadStart core slot s
  | .remoteFill act => Sys2Proof.Machine.execRemoteFill act s
  | .remoteAccessArrival act => Sys2Proof.Machine.execRemoteAccessArrival act s
  | .syncRequestArrival act => Sys2Proof.Machine.execSyncRequestArrival act s
  | .accessReply act => Sys2Proof.Machine.execAccessReply act s
  | .acknowledgement act => Sys2Proof.Machine.execAcknowledgement act s
  | .walkComplete storey page => Sys2Proof.Machine.execWalkComplete storey page s
  | .fbpopRead storey => Sys2Proof.Machine.execFbpopRead storey s
  | .fbstatDropClear storey => Sys2Proof.Machine.execFbstatDropClear storey s
  | .replayAll storey => Sys2Proof.Machine.execReplayAll storey s
  | .invalVa storey => Sys2Proof.Machine.execInvalVa storey s
  | .invalAll storey => Sys2Proof.Machine.execInvalAll storey s
  | .domainConfigStage slice off value => Sys2Proof.Machine.execDomainConfigStage slice off value s
  | .scmdWb slice => Sys2Proof.Machine.execScmdWb slice s
  | .scmdWbDone slice => Sys2Proof.Machine.execScmdWbDone slice s
  | .domswGo => Sys2Proof.Machine.execDomswGo s
  | .domainSwitchDone => Sys2Proof.Machine.execDomainSwitchDone s
  | .hotnessHalving => Sys2Proof.Machine.execHotnessHalving s
  | .migrationStart part page dest => Sys2Proof.Machine.execMigrationStart part page dest s
  | .migrationFlip part page => Sys2Proof.Machine.execMigrationFlip part page s
  | .copyComplete act => Sys2Proof.Machine.execCopyComplete act s
  | .nearMemoryComplete act => Sys2Proof.Machine.execNearMemoryComplete act s
  | .skupdComplete act => Sys2Proof.Machine.execSkupdComplete act s
  | .counterWatchMet act => Sys2Proof.Machine.execCounterWatchMet act s
  | .triggerFire act => Sys2Proof.Machine.execTriggerFire act s
  | .scWindowClose => Sys2Proof.Machine.execScWindowClose s
  | .matrixOpStart core => Sys2Proof.Machine.execMatrixOpStart core s
  | .matrixOpComplete core => Sys2Proof.Machine.execMatrixOpComplete core s
  | .handoffLand act => Sys2Proof.Machine.execHandoffLand act s
  | .galleryPutArrival act => Sys2Proof.Machine.execGalleryPutArrival act s
  | .galleryMatchRequest act => Sys2Proof.Machine.execGalleryMatchRequest act s
  | .galleryCancelArrival act => Sys2Proof.Machine.execGalleryCancelArrival act s
  | .putAnswer act => Sys2Proof.Machine.execPutAnswer act s
  | .retryReissue act => Sys2Proof.Machine.execRetryReissue act s
  | .redirectReissue act => Sys2Proof.Machine.execRedirectReissue act s
  | .rangeEntryAck hall fabric => Sys2Proof.Machine.execRangeEntryAck hall fabric s
  | .splitFlip hall => Sys2Proof.Machine.execSplitFlip hall s
  | .splitDrain hall => Sys2Proof.Machine.execSplitDrain hall s
  | .splitDone hall => Sys2Proof.Machine.execSplitDone hall s
  | .landingArrival act => Sys2Proof.Machine.execLandingArrival act s
  | .landingAck act => Sys2Proof.Machine.execLandingAck act s
  | .landingFlipSeen landing => Sys2Proof.Machine.execLandingFlipSeen landing s
  | .lownWrite landing value => Sys2Proof.Machine.execLownWrite landing value s
  | .lcfgWrite storey landing value => Sys2Proof.Machine.execLcfgWrite storey landing value s
  | .collectiveArrival act => Sys2Proof.Machine.execCollectiveArrival act s
  | .collectiveResult act => Sys2Proof.Machine.execCollectiveResult act s
  | .packetDelivery act => Sys2Proof.Machine.execPacketDelivery act s
  | .transportGiveUp act => Sys2Proof.Machine.execTransportGiveUp act s
  | .functionFence kind reason unit => Sys2Proof.Machine.execFunctionFence kind reason unit s
  | .deferredFencedTrap slotid => Sys2Proof.Machine.execDeferredFencedTrap slotid s
  | .debugRelease slotid newPc => Sys2Proof.Machine.execDebugRelease slotid newPc s
  | .powerOnReset => Sys2Proof.Machine.execPowerOnReset s
  | .packageReset => Sys2Proof.Machine.execPackageReset s
  | .debugReset core => Sys2Proof.Machine.execDebugReset core s
  | .lifeCycleChange target verified => Sys2Proof.Machine.execLifeCycleChange target verified s
  | .wipeComplete storey => Sys2Proof.Machine.execWipeComplete storey s
  | .powerRemoved => Sys2Proof.Machine.execPowerRemoved s
  | .thrRise power temp => Sys2Proof.Machine.execThrRise power temp s
  | .thrFall power temp => Sys2Proof.Machine.execThrFall power temp s
  | .thermalTrip temp => Sys2Proof.Machine.execThermalTrip temp s
  | .thermalOff => Sys2Proof.Machine.execThermalOff s
  | .msiXVectorUnmask fn vector => Sys2Proof.Machine.execMsiXVectorUnmask fn vector s
  | .poolModuleFailure module => Sys2Proof.Machine.execPoolModuleFailure module s
  | .bouncedRequestReissue act => Sys2Proof.Machine.execBouncedRequestReissue act s
  | .mirroredChange act => Sys2Proof.Machine.execMirroredChange act s
  | .sourceHomeNotice act => Sys2Proof.Machine.execSourceHomeNotice act s
  | .rankCompletionReport act => Sys2Proof.Machine.execRankCompletionReport act s

end Sys2Proof.Machine
end

