-- ==== Sys2Proof/Machine/Turns.lean ====
section
/-!
DEFINITION. Turns: what acts next (log 1, DESIGN CHOICE): the rotation of a core (R121), the fetch (R38), one issue, the events that
are due, the default policy when the agenda is empty.
-/

namespace Sys2Proof.Machine

open Sys2Proof

/-! ### The rotation (R121) -/

/-- A thread has something to do at this cycle: an issue, a held trap, or the next step of EXIT. A cancelled one issues no
further instruction (R391). -/
def State.runnable (s : State) (id : Nat) : Bool :=
  match s.thr? id with
  | none => false
  | some t =>
    if t.cancelled || t.halted then false
    else decide (t.early ≤ s.cycle) && match t.park with
      | none => true
      | some w => s.cleared id t w || s.canRaise id

/-- The cycle of a slot's last issue; a slot that has not issued counts as having issued at cycle -16. -/
def Core.last (c : Core) (slot : Nat) : Int :=
  match c.lastIssue.look slot with
  | some n => n
  | none => -16

/-- Cycles from the present one to the slot's next own position. -/
def State.toOwn (s : State) (slot : Nat) : Nat := (slot + 16 - s.cycle % 16) % 16

/-- A slot may take a position that is lent. -/
def State.eligible (s : State) (core slot : Nat) : Bool :=
  s.runnable (slotidOf core slot) && decide ((s.core core).last slot ≤ (s.cycle : Int) - 8) && decide (8 ≤ s.toOwn slot)

/-- The slot that issues at the present cycle. -/
def State.pickSlot (s : State) (core : Nat) : Option Nat :=
  if s.runnable (slotidOf core (s.cycle % 16)) then some (s.cycle % 16)
  else minBy (fun n => ((s.core core).last n + 16).toNat) ((List.range 16).filter (s.eligible core))

/-! ### Fetch (R32, R38) -/

/-- What the fetch of the issuing thread finds. -/
inductive Fetch where
  | run (s : State) (i : Instr)
  | trap (s : State) (cause : Nat) (val : Addr)
  | wait (w : Wait)

/-- The word at the pc decodes, or it is an illegal instruction. -/
def fetchWord (s : State) (bs : List Byte) : Fetch :=
  match decode bs with
  | .ok (i, _) => .run s i
  | .error _ => .trap s 1 (BitVec.ofNat 64 (leNat (bs.take 4)))

/-- The fetch of the issuing thread: the limit and the right of sg1, then the place of the word (log 15, DEDUCED). -/
def State.fetch (s : State) : Fetch :=
  let pc : Addr := s.me.pc.zeroExtend 64
  let a := s.segAddr 1 s.me.pc.toNat
  if (s.seg 1).limit.toNat < s.me.pc.toNat + 4 || !spaceZeros a.toNat then .trap s 3 pc
  else if !(s.seg 1).has rgtX || s.guardedHere a 4 then .trap s 4 pc
  else match s.target a with
    | .own off =>
      if (s.core s.myCore).movingBytes off 4 then .wait (.split s.myCore off 4)
      else fetchWord s (s.readLoc s.myPart (.sram s.myCore (s.tcmRead s.cur off)) 4)
    | .core c off =>
      if s.coreFenced c || s.wipesForeign s.myPart c then .trap s 7 pc
      else if (s.core c).movingBytes off 4 || s.coreWiping c then .wait (.split c off 4)
      else fetchWord s (if (s.core c).guarded off 4 then List.replicate 4 0 else s.readLoc s.myPart (.sram c off) 4)
    | .global va =>
      if (s.windowAt s.myPart va).isSome then .trap s 6 (BitVec.ofNat 64 va)
      else match s.translate s.myCore s.myPart va .fetch with
        | .wait w => .wait w
        | .ok u e =>
          let l := Loc.phys e.cls (e.phys va) e.key
          if u.locFenced l then .trap u 7 pc
          else fetchWord (u.reach (storeyOf u.myCore) u.myPart 0 l) (u.readOwn u.cur u.myPart l 4)
    | .sys _ _ _ => .trap s 4 pc

/-! ### One issue -/

/-- What an issue itself changes: the slot's record, its earliest next issue, and a wait that has ended. -/
def State.beginIssue (s : State) (id : Nat) : State :=
  ({ s.modCore (coreOf id) (fun c => { c with lastIssue := c.lastIssue.put (slotOf id) s.cycle }) with cur := id }).modThr id
    fun t => { t with early := s.cycle + 8, park := none }

/-- The thread in a slot acts: one that has issued EXIT goes on with it, a held trap is raised (R390), and otherwise an
instruction issues. -/
def State.issueSlot (s : State) (id : Nat) : Host.Outcome State Fault Refusal :=
  let u := s.beginIssue id
  if (s.thr id).exiting then .next (u.exitStep id)
  else if s.canRaise id then .next (u.raiseHeld id)
  else match u.fetch with
    | .trap v c a => .next (v.takeTrap id c a v.me.pc)
    | .wait w => .next (u.park w)
    | .run v i => exec i v

/-- A core takes its issue position of the present cycle. -/
def State.issueTurn (s : State) (core : Nat) : Host.Outcome State Fault Refusal :=
  let s0 := s.modCore core fun c => { c with turned := s.cycle + 1 }
  match s.pickSlot core with
  | none => .next s0
  | some slot => s0.issueSlot (slotidOf core slot)

/-! ### Events that are due

The default policy performs an event through its meaning, and an event that would change nothing is not due. -/

/-- What an event brings about. -/
abbrev Ev := State → Host.Outcome State Fault Refusal

/-- The event of a Gallery operation at its home. -/
def GOp.event (op : GOp) (id : Nat) : Ev :=
  if op.puts then execGalleryPutArrival id else if op.gets then execGalleryMatchRequest id else execGalleryCancelArrival id

/-- The event that a pending activity may bring about. -/
def eventOf (id : Nat) : ActKind → Ev
  | .load _ _ _ _ _ _ => execRemoteAccessArrival id
  | .store _ _ _ _ => execRemoteAccessArrival id
  | .amo _ _ _ _ _ _ _ _ _ _ => execRemoteAccessArrival id
  | .decEvent _ _ _ _ => execRemoteAccessArrival id
  | .feclr _ _ _ _ => execRemoteAccessArrival id
  | .remap _ _ _ _ _ _ => execRemoteAccessArrival id
  | .remapCfg _ _ _ _ _ _ => execRemoteAccessArrival id
  | .sync _ _ _ => execSyncRequestArrival id
  | .reply _ _ _ _ _ _ _ _ => execAccessReply id
  | .ack _ => execAcknowledgement id
  | .scHold _ _ _ _ _ _ _ _ _ _ => fun s => .next s
  | .scWait _ _ _ _ _ _ _ => execScWindowClose
  | .fill _ _ _ _ _ _ _ => execRemoteFill id
  | .msg _ _ _ => execMessageArrival id
  | .dec _ _ _ _ _ => execDecMessage id
  | .token _ _ => execErrorToken id
  | .wake _ => execWakeMessage id
  | .rankReport _ _ _ _ _ _ => execRankCompletionReport id
  | .copy _ => execCopyComplete id
  | .near _ => execNearMemoryComplete id
  | .sketch _ _ _ _ _ => execSkupdComplete id
  | .watch _ _ _ _ _ => execCounterWatchMet id
  | .trigger _ _ _ _ _ => execTriggerFire id
  | .handoff _ _ _ _ _ _ => execHandoffLand id
  | .putAnswer _ _ _ _ _ => execPutAnswer id
  | .peerAnswer _ _ => execPutAnswer id
  | .gal r _ _ => r.op.event id
  | .delivery _ _ _ _ _ => execGalleryMatchRequest id
  | .galAnswer r _ _ => r.op.event id
  | .retry _ _ _ => execRetryReissue id
  | .redirect _ _ => execRedirectReissue id
  | .mirrorPut _ _ => execMirroredChange id
  | .mirrorWait _ _ => execMirroredChange id
  | .mirrorDel _ _ _ => execMirroredChange id
  | .mirrorGone _ _ _ => execMirroredChange id
  | .splitMsg h p _ _ _ => match p with
    | .copy => execMirroredChange id
    | .flip => execSplitFlip h
    | .drain => execSplitDrain h
    | .done => execSplitDone h
  | .splitAck h _ => execSplitFlip h
  | .rangeEntry h _ _ _ _ => execRangeEntryAck h Config.fabricId
  | .srcNotice _ _ _ => execSourceHomeNotice id
  | .arrival _ _ _ => execLandingArrival id
  | .landAck _ _ _ _ => execLandingAck id
  | .flip n _ _ _ => execLandingFlipSeen n
  | .collIn _ _ _ _ _ => execCollectiveArrival id
  | .collDown _ _ _ => execCollectiveArrival id
  | .collPeer _ _ _ _ => execCollectiveArrival id
  | .collOut _ _ _ _ _ => execCollectiveArrival id
  | .collRun _ _ _ => execCollectiveArrival id
  | .collResult _ _ _ => execCollectiveResult id
  | .packet _ _ _ _ => execPacketDelivery id
  | .away _ _ _ _ _ _ => execPacketDelivery id
  | .bounced _ => execBouncedRequestReissue id

/-- The cores that hold or wait for something. -/
def State.busyCores (s : State) : List Nat := (s.cores.keys ++ s.threads.keys.map coreOf ++ s.images.map fun i => coreOf i.2.slot).dedup

/-- Events of a core's own units. -/
def coreEvents (core : Nat) : List Ev :=
  [execMatrixOpStart core, execMatrixOpComplete core, execPreempt core]
  ++ ((List.range 16).map fun n => [execHandlerThreadStart core n, execStampItem core n, execResume core n, execImageSaveDone (slotidOf core n)]).flatten

/-- Events of the formes that a core holds. -/
def formeEvents (core : Nat) (c : Core) : List Ev :=
  c.formes.map fun f => if f.1 % 2 = 0 then execFormeRelease core (f.1 / 2) else execNestedFormeRelease core f.1

/-- Events of a task. -/
def taskEvents (n : Nat) (t : Task) : List Ev :=
  [execComposingThreadStart n, execWatchdogExpiry n, execTaskCompletion n]
  ++ (if t.forme.isSome then t.record.cores.map fun c => execFormeCopyReceived c n else [])

/-- Events of the package's units. -/
def State.unitEvents (s : State) : List Ev :=
  (s.storeys.map fun st => (st.2.pending.map fun p => execWalkComplete st.1 p.page) ++ (if st.2.wiping then [execWipeComplete st.1] else [])).flatten
  ++ (s.pkg.parts.map fun p => execLaunchAdmit p.1 :: ((List.range 16).filter fun n => p.2.busy.getLsbD n).map fun n => execStagingCaptureDone p.1 n).flatten
  ++ (s.pkg.keys.map fun k => if k.2.a && !k.2.usable then [execKeyMaterialReady k.1] else []).flatten
  ++ (s.slices.map fun x => if x.2.wb then [execScmdWbDone x.1] else []).flatten
  ++ (if s.pkg.domGo then [execDomainSwitchDone] else [])
  ++ (s.pkg.halls.map fun h => if h.2.split.isSome then [execSplitFlip h.1, execSplitDrain h.1, execSplitDone h.1] else []).flatten
  ++ (s.pkg.migrations.map fun m => [(fun u => .next (u.copyLine m.part m.page) : Ev), execMigrationFlip m.part m.page]).flatten
  ++ [execThermalOff, execHotnessHalving]

/-- Every event that the part itself may bring about now. -/
def State.candidates (s : State) : List Ev :=
  (s.acts.map fun a => eventOf a.1 a.2.kind)
  ++ (s.busyCores.map coreEvents).flatten ++ (s.cores.map fun c => formeEvents c.1 c.2).flatten
  ++ (s.pkg.tasks.map fun t => taskEvents t.1 t.2).flatten ++ s.unitEvents

/-- The issues of the present cycle are over: what has happened since is seen from the next cycle on (R124). -/
def State.after (s : State) : State := { s with settled := true }

/-- The states that the events now due lead to. -/
def State.dueEvents (s : State) : List State :=
  s.candidates.filterMap fun e => match e s with
    | .next t => if t = s then none else some t.after
    | _ => none

/-- A core that has not taken its position at this cycle and has a slot for it. -/
def State.isDue (s : State) (core : Nat) : Bool :=
  !s.settled && decide ((s.core core).turned ≤ s.cycle) && (s.pickSlot core).isSome
def State.dueCores (s : State) : List Nat := ((s.threads.keys.map coreOf).dedup).filter s.isDue

/-! ### The default policy -/

/-! ### The clock

Events whose cycle a rule fixes come in that cycle at the latest. -/

/-- Performs an event. -/
def State.doEvent (s : State) (e : Ev) : State := afterRequest (e s) s

/-- The cores whose matrix engine has an entry, or a tile in a receive buffer. -/
def State.mxCores (s : State) : List Nat :=
  (s.cores.filter fun c => !c.2.mx.queue.isEmpty || !c.2.mx.late.isEmpty || c.2.mx.buf0.isSome || c.2.mx.buf1.isSome).map Prod.fst

/-- The landings count the arrivals of a cycle, in their order. -/
def State.countArrivals : Nat → State → State
  | 0, s => s
  | n + 1, s => State.countArrivals n (s.acts.foldl (fun u a => match a.2.kind with
      | .arrival _ _ _ => u.doEvent (execLandingArrival a.1)
      | _ => u) s)

/-- What a cycle ends with: C tiles and hand-offs (R251-R252), arrivals and acknowledgements of landings (R333), the SC
atomics of a window that closes (R225). -/
def State.endCycle (s : State) : State :=
  let s1 := s.mxCores.foldl (fun u c => u.doEvent (execMatrixOpComplete c)) s
  let s2 := s1.acts.foldl (fun u a => match a.2.kind with
    | .handoff _ _ _ _ _ _ => u.doEvent (execHandoffLand a.1)
    | .landAck _ _ _ _ => u.doEvent (execLandingAck a.1)
    | _ => u) s1
  (s2.countArrivals s2.arrivalKeys.length).closeWindow

/-- A thread goes on from the next cycle (R124). -/
def State.fromNext (s : State) (id : Nat) : State := s.modThr id fun t => { t with early := max t.early (s.cycle + 1) }

/-- The cores see what a landing counted 12 cycles ago; a thread that waits for it goes on in the next cycle (R333). -/
def State.seeLanding (s : State) (n : Nat) : State :=
  let u := s.doEvent (execLandingFlipSeen n)
  (s.threads.filter fun t => t.2.park == some (.flip n)).foldl (fun u t => if u.runnable t.1 then u.fromNext t.1 else u) u

/-- A matrix engine at the start of a cycle: tiles move from receive buffers to EMPTY latches (R250), entries join (R246),
the next operation starts, and hand-offs start (R251-R252). Threads that this lets go on issue from the next cycle (R124). -/
def State.mxBegin (s : State) (core : Nat) : State :=
  let q := (s.core core).mx.queue
  let u := (((s.modMx core Matrix.settle).mxJoin core).doEvent (execMatrixOpStart core)).mxHandAll core
  let u1 := q.foldl (fun u e => if (u.thr e.slot).park.isNone then u.fromNext e.slot else u) u
  (s.threads.filter fun t => coreOf t.1 == core && t.2.park.any fun w => !s.cleared t.1 t.2 w && u1.cleared t.1 t.2 w).foldl
    (fun u t => u.fromNext t.1) u1

/-- Cancelled threads stop once their state defers it no longer (R391), and cores whose debug reset has ended their threads are
wiped (R419). -/
def State.endCancelled (s : State) : State :=
  let s1 := ((s.threads.filter fun t => t.2.cancelled).map Prod.fst).foldl (fun u id => if u.defers id then u else u.killThread id) s
  ((s1.cores.filter fun c => c.2.resetting).map Prod.fst).foldl State.resetEnd s1

/-- What a cycle begins with: the end of cancelled threads, flips (R333), matrix engines (R252), watchdogs (R91), the halving of the hotness counters
(R184), the end of a thermal trip (R426). -/
def State.beginCycle (s : State) : State :=
  let s0 := s.endCancelled
  let s1 := s0.acts.foldl (fun u a => match a.2.kind with
    | .flip n _ _ due => if due ≤ s.cycle then u.seeLanding n else u
    | _ => u) s0
  let s2 := s1.mxCores.foldl State.mxBegin s1
  let s3 := s2.pkg.tasks.foldl (fun u t => u.doEvent (execWatchdogExpiry t.1)) s2
  (s3.doEvent execHotnessHalving).doEvent execThermalOff

/-- The clock advances; the tasks that wait for an event word are looked at. -/
def State.clock (s : State) : State := s.endCycle.tick.beginCycle.pollHeld

/-- A due core takes its position; one of several is drawn. -/
def State.issueDue (s : State) : Host.Outcome State Fault Refusal :=
  match s.dueCores with
  | [] => .next s
  | [c] => s.issueTurn c
  | cs => ((s.draw cs.length).2).issueTurn (cs.getD (s.draw cs.length).1 0)

/-- What comes next by itself: first the issues of the cycle (R121-R122), then an event that is due or the clock; one of
several is drawn. -/
def State.byItself (s : State) : Host.Outcome State Fault Refusal :=
  if !s.dueCores.isEmpty then s.issueDue
  else match s.dueEvents with
    | [] => .next s.clock
    | es => .next ((((s.draw (es.length + 1)).2).clock :: ((s.draw (es.length + 1)).2).dueEvents).getD (s.draw (es.length + 1)).1 s.clock)

/-! ### What enters from outside -/

/-- An agent outside the package writes bytes of pool or host memory (R186-R187): the slices' copies of a pool line stay. -/
def State.outsideWrite (s : State) (cls : PClass) (pa : Nat) (bs : List Byte) : State :=
  if cls = .stack then s else s.modRaw cls fun m => m.setMany pa bs

/-- The virtual function that a request of the host goes to. -/
def hostFunction : Instr → Option Nat
  | .stagingWrite p _ _ => some p
  | .ldoor p _ _ => some p
  | .cpop p _ => some p
  | .windowWrite p _ _ => some p
  | .windowRead p _ _ => some p
  | .registerWrite 16 p _ _ => some p
  | .registerWrite 17 (n + 1) _ _ => some n
  | .msiXVectorUnmask (n + 1) _ => some n
  | _ => none

/-- A request that does not come on the TDI's IDE stream with the T bit: rejected in CONFIG_LOCKED and RUN, the TDI as it
was; in the other states it is as any (R64). -/
def State.untrusted (s : State) (i : Instr) : Host.Outcome State Fault Refusal :=
  match hostFunction i with
  | none => .next s
  | some p =>
    if (s.part p).tdi = .locked || (s.part p).tdi = .run then .next { s with out := s.out ++ [.unsupported p] } else exec i s

/-- The turns of a module without power: only power returns (R423). -/
def Turn.whenOff : Turn → Bool
  | .event .powerOnReset => true
  | _ => false

/-- An event row of the opcode table, as against an instruction's word. -/
def isEvent (i : Instr) : Bool := (encode i).isNone

/-- The state after an event. -/
def afterEvent : Host.Outcome State Fault Refusal → Host.Outcome State Fault Refusal
  | .next t => .next t.after
  | x => x

/-- One turn (log 14, DESIGN CHOICE). In STANDBY the links to other packages are down, and nothing enters by them (R423). -/
def State.turn (s : State) (t : Turn) : Host.Outcome State Fault Refusal :=
  if s.pkg.state == .off && !t.whenOff then .next s
  else match t with
    | .issue core => if s.isDue core then s.issueTurn core else .next s
    | .event i => if isEvent i then afterEvent (exec i s) else .next s
    | .incoming flows k => .next (match (if s.pkg.state == .standby then none else k.entered) with
      | some k => (s.post flows k).after
      | none => s.after)
    | .outside cls pa bytes => .next (s.outsideWrite cls pa bytes).after
    | .copyLine part page => .next (s.copyLine part page).after
    | .defineHall hall base size => .next (s.defineHall hall base size).after
    | .untrusted i => if isEvent i then afterEvent (s.untrusted i) else .next s
    | .pfRead bar off size => .next (s.pfRead bar off size).after
    | .pfWrite bar off bytes => .next (s.pfWrite bar off bytes).after
    | .tdispGet part kind => .next (s.tdispGet part kind).after
    | .tick => .next s.clock

/-- Nothing but an issue comes before the issues that are due in a cycle (R121-R122, R124). -/
def Turn.isIssue : Turn → Bool
  | .issue _ => true
  | _ => false

end Sys2Proof.Machine
end

