-- ==== Sys2Proof/Machine/Step.lean ====
section
/-!
DEFINITION. Step: one step of the machine, and the placing of an instruction where the next step fetches it.
-/

namespace Sys2Proof.Machine

open Sys2Proof

/-- One step: the first turn of the agenda, behind the issues that are due, or what the part does next by itself (log 1,
DESIGN CHOICE). -/
def step (s : State) : Host.Outcome State Fault Refusal :=
  match s.agenda with
  | t :: r => if t.isIssue || s.pkg.state == .off || s.dueCores.isEmpty then ({ s with agenda := r }).turn t else s.issueDue
  | [] => if s.pkg.state == .off then .next s else s.byItself

/-- Where `withFetchWord` places its instruction in the TCM of core 0. -/
def fetchOffset : Nat := 0x2000

/-- The thread that fetches it: a handler in slot 3 of core 0, in supervisor mode, whose sg1 is the core's TCM. -/
def State.fetchThread (s : State) : Thread :=
  let code : Seg := { base := BitVec.ofNat 64 (localAddr 0 0), limit := 0x10000, rights := BitVec.ofNat 16 (rgtR + rgtX) }
  s.handlerThread 0 .handler (BitVec.ofNat 32 fetchOffset) code none

/-- A program's instruction stored where the next step fetches it, with all that this takes (log 2, DESIGN CHOICE): storey 0 belongs to
partition 0, whose TDI runs; a thread stands in slot 3 of core 0; cycle and agenda give that slot its position. -/
def State.withFetchWord (s : State) (nbits w : Nat) : State :=
  let s1 := s.modPart 0 fun p => { p with smask := 1, tdi := .run }
  let s2 := s1.modPkg fun g => { g with state := .active }
  let s3 := (s2.sramWrite 0 fetchOffset (leBytes 4 (w % 2 ^ nbits))).modCore 0 fun c => { c with turned := 0 }
  { s3.putThread (slotidOf 0 3) s3.fetchThread with cycle := s.cycle / 16 * 16 + 3, settled := false, agenda := [.issue 0] }

end Sys2Proof.Machine
end

