-- ==== Sys2Proof/Safety.lean ====
section
/-!
DEFINITION. Safety: what statements mean by a safe step and a safe run, and the invariants that they name.
-/

namespace Sys2Proof

open Sys2Proof.Machine

/-- A step answers a next state: neither a fault nor a refusal. -/
def SafeStep (s : State) : Prop := ∃ t, step s = .next t

/-- Every one of the next `n` steps answers a next state. -/
def SafeFor : Nat → State → Prop
  | 0, _ => True
  | n + 1, s => ∃ t, step s = .next t ∧ SafeFor n t

/-- The memories are in canonical form: cells in ascending address order, none that holds what an unlisted address
reads. -/
def MemoryOk (s : State) : Prop := s.memory.wf = true

end Sys2Proof
end

