-- ==== Sys2Proof/Certificates/Slice0/Obligations.lean ====
section
/-!
DEFINITION. Obligations: the statements about the model, each with the rules of the spec that it formalises.
`Ready s ops` says that a thread stands in the issuing slot and that its operands are ready; `done s t` is the outcome of
an instruction that issued in `s`, completed, and left `t` but for the pc, which moves to the next word.
-/

namespace Sys2Proof.Cert

open Sys2Proof Sys2Proof.Machine

/-- A thread stands in the issuing slot, and every operand listed is ready (R123, R137-R138). -/
def Ready (s : State) (ops : List Opnd) : Prop := (s.thr? s.cur).isSome = true ∧ s.blocked ops = none

/-- The outcome of an instruction that issued in `s` and completed with the state `t`: the pc moves to the next word. -/
def done (s t : State) : Host.Outcome State Fault Refusal := .next (t.setPc (s.me.pc + 4))

/-- The outcome of an instruction that issued in `s` and traps with no effect (R386-R387). -/
def traps (s : State) (cause : Nat) (val : Addr) : Host.Outcome State Fault Refusal := .next (s.takeTrap s.cur cause val s.me.pc)

/-- The outcome of an instruction that issued in `s` and waits for an answer, having left `t`: the pc stays on it. -/
def stays (s t : State) (w : Wait) : Host.Outcome State Fault Refusal := .next (s.finish (.stay t w))

/-- The outcome of an instruction that issued in `s` and was performed, having left `t`: its thread waits past it. -/
def holds (s t : State) (w : Wait) : Host.Outcome State Fault Refusal := .next (s.finish (.hold t w))

/-- A thread that may run supervisor-only instructions (R38). -/
def Supervisor (s : State) : Prop := s.me.userMode = false

/-- Two states that differ at most in the thread of the issuing slot. -/
def OnlyMe (s t : State) : Prop :=
  { t with threads := s.threads } = s ∧ ∀ id, id ≠ s.cur → t.thr? id = s.thr? id

/-- The scalar register that an arithmetic, immediate or upper-part instruction or a jump writes (R140-R144). -/
def aluDest : Instr → Option (BitVec 5)
  | .add d _ _ | .sub d _ _ | .and d _ _ | .or d _ _ | .xor d _ _ | .andn d _ _ | .orn d _ _ | .xnor d _ _ => some d
  | .sll d _ _ | .srl d _ _ | .sra d _ _ | .rol d _ _ | .ror d _ _ | .slt d _ _ | .sltu d _ _ => some d
  | .min d _ _ | .max d _ _ | .minu d _ _ | .maxu d _ _ | .mul d _ _ | .mulh d _ _ | .mulhu d _ _ | .mulhsu d _ _ => some d
  | .div d _ _ | .divu d _ _ | .rem d _ _ | .remu d _ _ => some d
  | .clz d _ | .ctz d _ | .popc d _ | .sextb d _ | .sexth d _ | .zexth d _ | .bswap d _ => some d
  | .addi d _ _ | .andi d _ _ | .ori d _ _ | .xori d _ _ | .slti d _ _ | .sltiu d _ _ => some d
  | .slli d _ _ | .srli d _ _ | .srai d _ _ | .lui d _ | .adpc d _ | .jal d _ => some d
  | _ => none

/-- The register operands of the arithmetic instructions, jumps, branches, vector lanes and transfers, in the order in which
they are read: sources by their fields, a destination that is a source after them, a scalar destination last (R137-R145,
R233-R241). -/
def operandsOf : Instr → Option (List Opnd)
  | .add d a b | .sub d a b | .and d a b | .or d a b | .xor d a b | .andn d a b | .orn d a b | .xnor d a b
  | .sll d a b | .srl d a b | .sra d a b | .rol d a b | .ror d a b | .slt d a b | .sltu d a b
  | .min d a b | .max d a b | .minu d a b | .maxu d a b | .mul d a b | .mulh d a b | .mulhu d a b | .mulhsu d a b
  | .div d a b | .divu d a b | .rem d a b | .remu d a b => some [.s a.toNat, .s b.toNat, .d d.toNat]
  | .clz d a | .ctz d a | .popc d a | .sextb d a | .sexth d a | .zexth d a | .bswap d a => some [.s a.toNat, .d d.toNat]
  | .addi d a _ | .andi d a _ | .ori d a _ | .xori d a _ | .slti d a _ | .sltiu d a _ => some [.s a.toNat, .d d.toNat]
  | .slli d a _ | .srli d a _ | .srai d a _ => some [.s a.toNat, .d d.toNat]
  | .lui d _ | .adpc d _ | .jal d _ => some [.d d.toNat]
  | .jalr d a _ => some [.s a.toNat, .d d.toNat]
  | .beq a b _ | .bne a b _ | .blt a b _ | .bge a b _ | .bltu a b _ | .bgeu a b _ => some [.s a.toNat, .s b.toNat]
  | .viadd _ _ a b _ | .visub _ _ a b _ | .vimul _ _ a b _ | .vimin _ _ a b _ | .vimax _ _ a b _ | .viand _ _ a b _
  | .vior _ _ a b _ | .vixor _ _ a b _ | .visll _ _ a b _ | .visrl _ _ a b _ | .visra _ _ a b _
  | .vadd _ _ a b _ | .vsub _ _ a b _ | .vmul _ _ a b _ | .vmin _ _ a b _ | .vmax _ _ a b _ | .vscl _ _ a b _
  | .vcmp _ _ _ a b _ | .vsel _ _ a b _ | .vshuf _ _ a b _ | .vslide _ _ a b _ => some [.v a.toNat, .v b.toNat]
  | .vfma _ vd a b _ | .vfms _ vd a b _ => some [.v a.toNat, .v b.toNat, .v vd.toNat]
  | .viabs _ _ a _ | .vabs _ _ a _ | .vneg _ _ a _ | .vsqrt _ _ a _ | .vrcp _ _ a _ | .vrsq _ _ a _ | .vexp2 _ _ a _
  | .vredsum _ _ a _ | .vredmax _ _ a _ | .vredmin _ _ a _ | .vcvt _ _ _ _ a _ => some [.v a.toNat]
  | .vbcast _ a _ | .kset _ a _ => some [.s a.toNat]
  | .vget d va b _ => some [.v va.toNat, .s b.toNat, .d d.toNat]
  | .vput vd a b _ => some [.v vd.toNat, .s a.toNat, .s b.toNat]
  | .kget d _ _ => some [.d d.toNat]
  | _ => none

/-- An operand has its value, or its send queue has room (R120, R123). -/
def opndReady (s : State) : Opnd → Prop
  | .s n => s.sFullOf s.cur n = true
  | .v n => s.vFullOf s.cur n = true
  | .d n => slotOf s.cur = 0 → (n = 29 ∨ n = 31) → s.sFullOf s.cur n = false

/-- What a thread waits for at an operand that is not ready. -/
def opndWait : Opnd → Wait
  | .s n => .reg n
  | .v n => .vreg n
  | .d n => .room n

end Sys2Proof.Cert

open Sys2Proof Sys2Proof.Machine Sys2Proof.Cert

/-! ### Integer arithmetic (02 R34, 07 R137-R145) -/

/-- R140: the results of the ALU instructions, in every slot, with their words. Division rounds toward zero; by zero it
gives all ones or the dividend, and the one overflow wraps. -/
def Obligations.IntegerResults : Prop :=
  (∀ (s : State) (d a b : BitVec 5), Ready s [.s a.toNat, .s b.toNat, .d d.toNat] →
    let t := s.consumeAll [.s a.toNat, .s b.toNat, .d d.toNat]
    let x := t.rS a.toNat
    let y := t.rS b.toNat
    exec (.add d a b) s = done s (t.wS d.toNat (x + y))
    ∧ exec (.sub d a b) s = done s (t.wS d.toNat (x - y))
    ∧ exec (.and d a b) s = done s (t.wS d.toNat (x &&& y))
    ∧ exec (.or d a b) s = done s (t.wS d.toNat (x ||| y))
    ∧ exec (.xor d a b) s = done s (t.wS d.toNat (x ^^^ y))
    ∧ exec (.andn d a b) s = done s (t.wS d.toNat (x &&& ~~~y))
    ∧ exec (.orn d a b) s = done s (t.wS d.toNat (x ||| ~~~y))
    ∧ exec (.xnor d a b) s = done s (t.wS d.toNat (~~~(x ^^^ y)))
    ∧ exec (.sll d a b) s = done s (t.wS d.toNat (x <<< (y.toNat % 32)))
    ∧ exec (.srl d a b) s = done s (t.wS d.toNat (x >>> (y.toNat % 32)))
    ∧ exec (.sra d a b) s = done s (t.wS d.toNat (x.sshiftRight (y.toNat % 32)))
    ∧ exec (.rol d a b) s = done s (t.wS d.toNat (x.rotateLeft (y.toNat % 32)))
    ∧ exec (.ror d a b) s = done s (t.wS d.toNat (x.rotateRight (y.toNat % 32)))
    ∧ exec (.slt d a b) s = done s (t.wS d.toNat (if x.toInt < y.toInt then 1 else 0))
    ∧ exec (.sltu d a b) s = done s (t.wS d.toNat (if x.toNat < y.toNat then 1 else 0))
    ∧ exec (.min d a b) s = done s (t.wS d.toNat (if x.toInt < y.toInt then x else y))
    ∧ exec (.max d a b) s = done s (t.wS d.toNat (if x.toInt < y.toInt then y else x))
    ∧ exec (.minu d a b) s = done s (t.wS d.toNat (if x.toNat < y.toNat then x else y))
    ∧ exec (.maxu d a b) s = done s (t.wS d.toNat (if x.toNat < y.toNat then y else x))
    ∧ exec (.mul d a b) s = done s (t.wS d.toNat (x * y))
    ∧ exec (.mulh d a b) s = done s (t.wS d.toNat (BitVec.ofInt 32 (x.toInt * y.toInt / 2 ^ 32)))
    ∧ exec (.mulhu d a b) s = done s (t.wS d.toNat (BitVec.ofNat 32 (x.toNat * y.toNat / 2 ^ 32)))
    ∧ exec (.mulhsu d a b) s = done s (t.wS d.toNat (BitVec.ofInt 32 (x.toInt * y.toNat / 2 ^ 32))))
  ∧ (∀ (s : State) (d a b : BitVec 5), Ready s [.s a.toNat, .s b.toNat, .d d.toNat] →
    let t := s.consumeAll [.s a.toNat, .s b.toNat, .d d.toNat]
    let x := t.rS a.toNat
    let y := t.rS b.toNat
    exec (.div d a b) s = done s (t.wS d.toNat
      (if y = 0 then 0xFFFFFFFF else if x = 0x80000000 ∧ y = 0xFFFFFFFF then 0x80000000 else BitVec.ofInt 32 (x.toInt.tdiv y.toInt)))
    ∧ exec (.divu d a b) s = done s (t.wS d.toNat (if y = 0 then 0xFFFFFFFF else BitVec.ofNat 32 (x.toNat / y.toNat)))
    ∧ exec (.rem d a b) s = done s (t.wS d.toNat
      (if y = 0 then x else if x = 0x80000000 ∧ y = 0xFFFFFFFF then 0 else BitVec.ofInt 32 (x.toInt.tmod y.toInt)))
    ∧ exec (.remu d a b) s = done s (t.wS d.toNat (if y = 0 then x else BitVec.ofNat 32 (x.toNat % y.toNat))))
  ∧ (∀ (s : State) (d a : BitVec 5), Ready s [.s a.toNat, .d d.toNat] →
    let t := s.consumeAll [.s a.toNat, .d d.toNat]
    let x := t.rS a.toNat
    (∃ n, exec (.clz d a) s = done s (t.wS d.toNat (BitVec.ofNat 32 n)) ∧ n ≤ 32
      ∧ (∀ i, i < n → x.getLsbD (31 - i) = false) ∧ (n < 32 → x.getLsbD (31 - n) = true))
    ∧ (∃ n, exec (.ctz d a) s = done s (t.wS d.toNat (BitVec.ofNat 32 n)) ∧ n ≤ 32
      ∧ (∀ i, i < n → x.getLsbD i = false) ∧ (n < 32 → x.getLsbD n = true))
    ∧ exec (.popc d a) s = done s (t.wS d.toNat (BitVec.ofNat 32 ((List.range 32).countP fun i => x.getLsbD i)))
    ∧ exec (.sextb d a) s = done s (t.wS d.toNat ((x.setWidth 8).signExtend 32))
    ∧ exec (.sexth d a) s = done s (t.wS d.toNat ((x.setWidth 16).signExtend 32))
    ∧ exec (.zexth d a) s = done s (t.wS d.toNat (x &&& 0xFFFF))
    ∧ exec (.bswap d a) s = done s (t.wS d.toNat
        (x.extractLsb 7 0 ++ x.extractLsb 15 8 ++ x.extractLsb 23 16 ++ x.extractLsb 31 24 : BitVec 32)))
  ∧ (∀ (d a b : BitVec 5), ∀ p ∈ ([(.add d a b, 0), (.sub d a b, 1), (.and d a b, 2), (.or d a b, 3), (.xor d a b, 4), (.andn d a b, 5),
       (.orn d a b, 6), (.xnor d a b, 7), (.sll d a b, 8), (.srl d a b, 9), (.sra d a b, 10), (.rol d a b, 11),
       (.ror d a b, 12), (.slt d a b, 13), (.sltu d a b, 14), (.min d a b, 15), (.max d a b, 16),
       (.minu d a b, 17), (.maxu d a b, 18), (.mul d a b, 19), (.mulh d a b, 20), (.mulhu d a b, 21),
       (.mulhsu d a b, 22), (.div d a b, 23), (.divu d a b, 24), (.rem d a b, 25), (.remu d a b, 26)] : List (Instr × Nat)),
    Sys2Proof.encode p.1 = some (wordRR 1 d.toNat a.toNat b.toNat p.2))
  ∧ (∀ (d a : BitVec 5), ∀ p ∈ ([(.clz d a, 27), (.ctz d a, 28), (.popc d a, 29), (.sextb d a, 30), (.sexth d a, 31), (.zexth d a, 32),
       (.bswap d a, 33)] : List (Instr × Nat)),
    Sys2Proof.encode p.1 = some (wordRR 1 d.toNat a.toNat 0 p.2))
  ∧ (∀ (d a b : BitVec 5) (f : Nat), 34 ≤ f → f < 64 →
    Sys2Proof.decodeWord (wordRR 1 d.toNat a.toNat b.toNat f) = .error .function)

/-- R141-R143: the results of the immediate instructions, of shifts by an immediate and of the upper parts, with their words.
-/
def Obligations.ImmediateResults : Prop :=
  (∀ (s : State) (d a n : BitVec 5) (imm : BitVec 16) (up : BitVec 21),
    (Ready s [.s a.toNat, .d d.toNat] →
      let t := s.consumeAll [.s a.toNat, .d d.toNat]
      let x := t.rS a.toNat
      exec (.addi d a imm) s = done s (t.wS d.toNat (x + imm.signExtend 32))
      ∧ exec (.andi d a imm) s = done s (t.wS d.toNat (x &&& imm.setWidth 32))
      ∧ exec (.ori d a imm) s = done s (t.wS d.toNat (x ||| imm.setWidth 32))
      ∧ exec (.xori d a imm) s = done s (t.wS d.toNat (x ^^^ imm.setWidth 32))
      ∧ exec (.slti d a imm) s = done s (t.wS d.toNat (if x.toInt < imm.toInt then 1 else 0))
      ∧ exec (.sltiu d a imm) s = done s (t.wS d.toNat (if x.toNat < (imm.signExtend 32).toNat then 1 else 0))
      ∧ exec (.slli d a n) s = done s (t.wS d.toNat (x <<< n.toNat))
      ∧ exec (.srli d a n) s = done s (t.wS d.toNat (x >>> n.toNat))
      ∧ exec (.srai d a n) s = done s (t.wS d.toNat (x.sshiftRight n.toNat)))
    ∧ (Ready s [.d d.toNat] →
      exec (.lui d up) s = done s (s.wS d.toNat (BitVec.ofNat 32 (up.toNat * 2048)))
      ∧ exec (.adpc d up) s = done s (s.wS d.toNat (s.me.pc + BitVec.ofNat 32 (up.toNat * 2048)))))
  ∧ (∀ (d a n : BitVec 5) (i : BitVec 16) (up : BitVec 21), ∀ p ∈ ([(.addi d a i, wordRI 2 d.toNat a.toNat i.toNat),
      (.andi d a i, wordRI 3 d.toNat a.toNat i.toNat), (.ori d a i, wordRI 4 d.toNat a.toNat i.toNat),
      (.xori d a i, wordRI 5 d.toNat a.toNat i.toNat), (.slti d a i, wordRI 6 d.toNat a.toNat i.toNat),
      (.sltiu d a i, wordRI 7 d.toNat a.toNat i.toNat), (.slli d a n, wordRI 8 d.toNat a.toNat n.toNat),
      (.srli d a n, wordRI 8 d.toNat a.toNat (1024 + n.toNat)), (.srai d a n, wordRI 8 d.toNat a.toNat (2048 + n.toNat)),
      (.lui d up, wordU 9 d.toNat up.toNat), (.adpc d up, wordU 10 d.toNat up.toNat)] : List (Instr × Nat)),
    Sys2Proof.encode p.1 = some p.2)

/-- R144: the jumps. A JALR whose target is not a multiple of 4 traps MISALIGN and writes no link. R145: the branches.
-/
def Obligations.ControlFlow : Prop :=
  (∀ (s : State) (d a : BitVec 5) (off : BitVec 21) (imm : BitVec 16),
    (Ready s [.d d.toNat] →
      exec (.jal d off) s = .next ((s.wS d.toNat (s.me.pc + 4)).setPc (s.me.pc + BitVec.ofInt 32 (4 * off.toInt))))
    ∧ (Ready s [.s a.toNat, .d d.toNat] →
      let t := s.consumeAll [.s a.toNat, .d d.toNat]
      let target := t.rS a.toNat + imm.signExtend 32
      (target.toNat % 4 = 0 → exec (.jalr d a imm) s = .next ((t.wS d.toNat (s.me.pc + 4)).setPc target))
      ∧ (target.toNat % 4 ≠ 0 → exec (.jalr d a imm) s = traps s 5 (target.setWidth 64))))
  ∧ (∀ (s : State) (a b : BitVec 5) (off : BitVec 13), Ready s [.s a.toNat, .s b.toNat] →
    let t := s.consumeAll [.s a.toNat, .s b.toNat]
    let x := t.rS a.toNat
    let y := t.rS b.toNat
    let go (taken : Prop) [Decidable taken] : Host.Outcome State Fault Refusal :=
      if taken then .next (t.setPc (s.me.pc + BitVec.ofInt 32 (4 * off.toInt))) else done s t
    exec (.beq a b off) s = go (x = y)
    ∧ exec (.bne a b off) s = go (x ≠ y)
    ∧ exec (.blt a b off) s = go (x.toInt < y.toInt)
    ∧ exec (.bge a b off) s = go (y.toInt ≤ x.toInt)
    ∧ exec (.bltu a b off) s = go (x.toNat < y.toNat)
    ∧ exec (.bgeu a b off) s = go (y.toNat ≤ x.toNat))
  ∧ (∀ (a b : BitVec 5) (off : BitVec 13), ∀ p ∈ ([(.beq a b off, 0), (.bne a b off, 1), (.blt a b off, 2), (.bge a b off, 3),
      (.bltu a b off, 4), (.bgeu a b off, 5)] : List (Instr × Nat)),
    Sys2Proof.encode p.1 = some (wordB 13 a.toNat b.toNat p.2 off.toNat))

/-- R123, R138: an arithmetic instruction, jump, branch, vector lane instruction or transfer whose source is empty, or whose
send queue has no room, parks its thread on the first such operand in the order in which the operands are read, and changes
nothing else; one whose operands all have their values, and that may not trap, completes. Every arithmetic instruction with a
scalar destination is among them. -/
def Obligations.OperandsPark : Prop :=
  (∀ (i : Instr) (d : BitVec 5), aluDest i = some d → ∃ srcs, operandsOf i = some (srcs ++ [.d d.toNat]))
  ∧ ∀ (i : Instr) (s : State) (before after : List Opnd) (o : Opnd), (s.thr? s.cur).isSome = true →
    (operandsOf i = some (before ++ o :: after) → (∀ x ∈ before, opndReady s x) → ¬ opndReady s o →
      exec i s = .next (s.modMe fun x => { x with park := some (opndWait o) }))
    ∧ (∀ ops d, operandsOf i = some ops → aluDest i = some d → (∀ x ∈ ops, opndReady s x) →
      ∃ (t : State) (pc : Word), exec i s = .next (t.setPc pc) ∧ t.me.park = s.me.park)

/-- R120, R125-R126, R138: what writing a scalar register does. s0 discards the value; outside slot 0, and below s28
in slot 0, the register holds the value, is full and owned, and no other register or bit changes; in slot 0 a write of
s29 that does not complete a packet only joins the send queue. R138: outside slot 0 an instruction takes nothing from
a queue. In slot 0 a source s28 takes the oldest entry of the request queue and reads it. R229: an instruction that reads
the result register which a delivery has filled is an acquire: it drops the W lines of the core's cache; one that does
not is none. -/
def Obligations.ScalarRegisters : Prop :=
  (∀ (s : State) (n m : Nat) (v : Word), (s.thr? s.cur).isSome = true → n < 32 → m < 32 →
    s.wS 0 v = s
    ∧ (0 < n → (slotOf s.cur ≠ 0 ∨ n < 28) →
        OnlyMe s (s.wS n v) ∧ (s.wS n v).rS n = v ∧ (s.wS n v).sFullOf s.cur n = true
        ∧ (m ≠ n → (s.wS n v).rS m = s.rS m ∧ (s.wS n v).sFullOf s.cur m = s.sFullOf s.cur m)
        ∧ (s.wS n v).rV m = s.rV m ∧ (s.wS n v).rK m = s.rK m)
    ∧ (slotOf s.cur = 0 →
        ((s.core s.myCore).txReq ++ [v]).length < packetWords (((s.core s.myCore).txReq ++ [v]).headD 0) →
        s.wS 29 v = s.modCore s.myCore fun c => { c with txReq := c.txReq ++ [v] }))
  ∧ (∀ (s : State) (n : Nat) (sys : Bool), (s.thr? s.cur).isSome = true → s.me.fresh = [(n, sys)] →
    let u := s.observe [.v n]
    u.me.fresh = [] ∧ u.me.regs = s.me.regs ∧ u.memory = s.memory
    ∧ (∀ l, l ∈ (u.core s.myCore).cache → l ∈ (s.core s.myCore).cache ∧ l.w = false)
    ∧ ∀ m, m ≠ n → s.observe [.v m] = s)
  ∧ (∀ (s : State) (ops : List Opnd), (s.thr? s.cur).isSome = true →
    (slotOf s.cur ≠ 0 → s.consume ops = s)
    ∧ (slotOf s.cur = 0 → ∀ w r, (s.core s.myCore).rxReq = w :: r → (s.me.regs.sOwn.getLsbD 28) = true →
        ((s.consume [.s 28]).core s.myCore).rxReq = r ∧ (s.consume [.s 28]).rS 28 = w
        ∧ (s.consume [.s 28]).memory = s.memory))

/-- The frame of the arithmetic, immediate and upper-part instructions and JAL (R139-R144): outside slot 0 only the
issuing thread changes, and of it only the pc, the destination register and, when the instruction parks, what it waits
for. All of memory and every other register, tag, segment and system register stay. -/
def Obligations.AluFrame : Prop :=
  ∀ (i : Instr) (d : BitVec 5) (s t : State), aluDest i = some d → slotOf s.cur ≠ 0 → exec i s = .next t →
    OnlyMe s t ∧ t.memory = s.memory
    ∧ (∃ r p w rs, t.me = { s.me with regs := r, pc := p, park := w, recs := rs })
    ∧ (∀ n, n ≠ d.toNat → t.rS n = s.rS n ∧ t.sFullOf s.cur n = s.sFullOf s.cur n)
    ∧ (∀ n, t.rV n = s.rV n ∧ t.rK n = s.rK n ∧ t.vFullOf s.cur n = s.vFullOf s.cur n)

namespace Sys2Proof.Cert

/-- An access of `n` bytes at offset `off` of segment `seg` passes the checks of R131 and lies in the issuing core's TCM
at offset `o`, outside the template window and outside bytes whose role an LCSPLIT change is moving. -/
def OwnTcm (t : State) (seg : Nat) (off : Int) (n need align : Nat) (spaces : List Nat) (o : Nat) : Prop :=
  t.checkAccess seg off n need align spaces = none ∧ t.target (t.segAddr seg off) = .own o
  ∧ (t.core t.myCore).movingBytes o n = false ∧ t.granuleAt t.cur o = none

/-- The byte of the issuing core's local memory at an offset. -/
def tcmByte (t : State) (o : Nat) : Byte := t.memory.sram.get (t.myCore * 524288 + o)

/-- The little-endian word there. -/
def tcmWordAt (t : State) (o : Nat) : Word := tcmByte t (o + 3) ++ tcmByte t (o + 2) ++ tcmByte t (o + 1) ++ tcmByte t o

/-- The vector register whose lanes of `w` bits that mask register `k` enables hold what `f` gives them, and whose other
lanes hold what vector register `vd` holds (R231). -/
def lanesOf (q : State) (vd k w : Nat) (f : Nat → Nat) : VWord :=
  ofLanes w ((List.range (512 / w)).map fun j => if (q.rK k).getLsbD (j * (w / 8)) then f j else lane (q.rV vd) w j)

/-- The outcome of an instruction that issued in `s`, read its operands in `q`, completed, and wrote those lanes into
vector register `vd` and raised the flags `fl`. -/
def lanesDone (s q : State) (vd k w : Nat) (f : Nat → Nat) (fl : Nat) : Host.Outcome State Fault Refusal :=
  done s ((q.wVm k vd (lanesOf q vd k w f)).raise fl)

/-- The flags of the enabled lanes together (R53). -/
def flagsOn (s : State) (k w : Nat) (f : Nat → Nat) : Nat :=
  orFlags ((List.range (512 / w)).map fun j => if (s.rK k).getLsbD (j * (w / 8)) then f j else 0)

/-- A word that a load brings is written at issue, unless a remote fill has written the register in this cycle (R128). -/
def given (t : State) (d : Nat) (v : Word) : State := if t.me.filled.look d = some t.cycle then t else t.wS d v

/-- An access of `n` bytes at offset `off` of segment `seg` passes its checks and lies in the issuing core's TCM at offset `o`,
inside the template window or not. -/
def AtTcm (t : State) (seg : Nat) (off : Int) (n need align : Nat) (spaces : List Nat) (o : Nat) : Prop :=
  t.checkAccess seg off n need align spaces = none ∧ t.target (t.segAddr seg off) = .own o
  ∧ (t.core t.myCore).movingBytes o n = false

/-- The state in which a write of the own TCM that found `u` is performed: a template copy fault delays the thread by 24
cycles, and a write outside the window marks its 4 KiB granule as written (R108, R397). -/
def claimed (t u : State) (o : Nat) (fault : Bool) : State :=
  let v := if fault then u.copyFault else u
  if (t.granuleAt t.cur o).isSome then v else v.markWritten t.cur o

/-- A write of a vector register, unless a remote fill has written it in this cycle (R128). -/
def givenV (t : State) (vd k : Nat) (v : VWord) : State :=
  if t.me.filled.look (32 + vd) = some t.cycle then t else t.wVm k vd v

/-- A synchronising access of the issuing core's own word at `o`: no live task counts in the word, nothing waits at
it, and the instruction need not wait for a release. -/
def SyncHere (t : State) (seg : Nat) (off : Int) (need o : Nat) : Prop :=
  OwnTcm t seg off 4 need 4 [1] o ∧ t.liveCounter t.myCore o = none ∧ t.syncQueues t.myCore o = {}

end Sys2Proof.Cert

/-! ### Loads and stores (10 R190-R202) -/

/-- R190-R191, R364: a scalar load from the own TCM completes at issue; bytes and halfwords are extended as the form says. One
from another core of the storey reads at issue what the thread would see there, zeros from a guarded region, and traps
FENCED from a fenced core. One from further away leaves one request, which names its place, and its thread waits past it; a
line that the core's cache holds answers without one; and a page that is not there parks the thread. -/
def Obligations.ScalarLoads : Prop :=
  ∀ (s : State) (d a : BitVec 5) (seg : BitVec 3) (imm : BitVec 10) (o : Nat), Ready s [.s a.toNat, .d d.toNat] →
    let t := s.consumeAll [.s a.toNat, .d d.toNat]
    let off (n : Nat) : Int := (t.rS a.toNat).toNat + imm.toInt * n
    (OwnTcm t seg.toNat (off 1) 1 1 1 [0, 1] o →
      exec (.ldb d a seg imm) s = done s (given t d.toNat ((tcmByte t o).signExtend 32))
      ∧ exec (.ldbu d a seg imm) s = done s (given t d.toNat ((tcmByte t o).setWidth 32)))
    ∧ (OwnTcm t seg.toNat (off 2) 2 1 2 [0, 1] o →
      exec (.ldh d a seg imm) s = done s (given t d.toNat ((tcmByte t (o + 1) ++ tcmByte t o : BitVec 16).signExtend 32))
      ∧ exec (.ldhu d a seg imm) s = done s (given t d.toNat ((tcmByte t (o + 1) ++ tcmByte t o : BitVec 16).setWidth 32)))
    ∧ (OwnTcm t seg.toNat (off 4) 4 1 4 [0, 1, 3] o →
      exec (.ldw d a seg imm) s = done s (given t d.toNat (tcmWordAt t o)))
    ∧ (∀ p ∈ ([(.ldb d a seg imm, 1, true), (.ldbu d a seg imm, 1, false), (.ldh d a seg imm, 2, true), (.ldhu d a seg imm, 2, false),
          (.ldw d a seg imm, 4, false)] : List (Instr × Nat × Bool)),
      let n := p.2.1
      let addr := t.segAddr seg.toNat (off n)
      let dest : LoadDest := .scalar d.toNat n p.2.2
      let value (bs : List Byte) : Word := if p.2.2 then BitVec.ofInt 32 (sval (8 * n) (leNat bs)) else BitVec.ofNat 32 (leNat bs)
      let asks (u : State) (q : Piece) : Host.Outcome State Fault Refusal :=
        holds s (u.post [(0, u.myCore, u.unitOf q.loc)] (.load u.cur t.me.pc addr (t.seg seg.toNat).hint.toNat [q] dest)) (.reply u.nextAct)
      t.checkAccess seg.toNat (off n) n 1 n (if n = 4 then [0, 1, 3] else [0, 1]) = none →
      (∀ c w, t.target addr = .core c w →
        let q : Piece := { loc := .sram c w, n := n, foot := addrOff addr, size := n, addr := addr }
        (storeyOf c = storeyOf t.myCore →
          (t.coreFenced c = true → exec p.1 s = traps s 7 addr)
          ∧ (t.coreFenced c = false → (t.core c).movingBytes w n = true → exec p.1 s = .next (s.park (.split c w n)))
          ∧ (t.coreFenced c = false → (t.core c).movingBytes w n = false → exec p.1 s = done s (given t d.toNat (value
              (if (t.core c).guarded (addrOff addr) n then List.replicate n 0 else t.readOwn t.cur t.myPart (.sram c w) n)))))
        ∧ (storeyOf c ≠ storeyOf t.myCore → exec p.1 s = asks t q))
      ∧ (∀ va, t.target addr = .global va → t.windowAt t.myPart va = none → t.windowAt t.myPart (va + n - 1) = none →
        (∀ w, t.translate t.myCore t.myPart va .read = .wait w → exec p.1 s = .next (s.park w))
        ∧ (∀ v e, t.translate t.myCore t.myPart va .read = .ok v e →
          let l := Loc.phys e.cls (e.phys va) e.key
          ((t.seg seg.toNat).rights.getLsbD 5 = false ∨ e.c = false →
            exec p.1 s = asks (v.flushLine l) { loc := l, n := n, addr := addr })
          ∧ (∀ line, (t.seg seg.toNat).rights.getLsbD 5 = true → e.c = true → t.sketching = false →
              v.cachedLine t.myCore t.myPart (va / 256) e.cls (e.phys va / 256) = some line →
              exec p.1 s = holds s (v.postFree (.reply t.cur t.me.pc addr dest ((line.bytes.drop (va % 256)).take n) false false none))
                (.reply v.nextAct)))))

/-- R190, R172: a scalar store to the own TCM completes at issue. The stored bytes read as the register's low bytes, in
little-endian order; every other byte of every memory reads as before, and so does every register. R83: a store to a word in
which a live task counts leaves it. R107-R109: a store into a template granule that the impression does not own first takes a
free granule of the forme area and copies the granule that it reads into it, and delays the thread; without a free granule it
traps SHADOW_FULL. R191, R170, R364: a store to another core or to global memory leaves one request that counts in UNACK, or
joins the write-combining buffer, while there is room (stores that are still combined keep their room, the model's choice,
log 68); one to a remap window traps. -/
def Obligations.ScalarStores : Prop :=
  ∀ (s : State) (d a : BitVec 5) (seg : BitVec 3) (imm : BitVec 10) (o : Nat), Ready s [.s a.toNat, .s d.toNat] →
    s.cur < 131072 → MemoryOk s →
    let t := s.consumeAll [.s a.toNat, .s d.toNat]
    let off (n : Nat) : Int := (t.rS a.toNat).toNat + imm.toInt * n
    let stored (n : Nat) (u : State) : Prop := (t.liveCounter t.myCore o = none → ∀ c, c < n → tcmByte u (o + c) = (t.rS d.toNat).extractLsb' (8 * c) 8)
      ∧ (t.liveCounter t.myCore o ≠ none → u.memory.sram = s.memory.sram)
      ∧ (∀ c, c < t.myCore * 524288 + o ∨ t.myCore * 524288 + o + n ≤ c → u.memory.sram.get c = s.memory.sram.get c)
      ∧ u.memory.stack = s.memory.stack ∧ u.memory.pool = s.memory.pool ∧ u.memory.host = s.memory.host
      ∧ u.me.pc = s.me.pc + 4
      ∧ ∀ m, u.rS m = t.rS m ∧ u.rV m = t.rV m ∧ u.rK m = t.rK m
    (OwnTcm t seg.toNat (off 1) 1 2 1 [0, 1] o → ∃ u, exec (.stb d a seg imm) s = .next u ∧ stored 1 u)
    ∧ (OwnTcm t seg.toNat (off 2) 2 2 2 [0, 1] o → ∃ u, exec (.sth d a seg imm) s = .next u ∧ stored 2 u)
    ∧ (OwnTcm t seg.toNat (off 4) 4 2 4 [0, 1, 3] o → ∃ u, exec (.stw d a seg imm) s = .next u ∧ stored 4 u)
    ∧ (∀ g f launch sz n i b c, t.granuleAt t.cur o = some g → t.window t.cur = some (f, launch, sz) → t.me.kind = .impression n f i b c →
      let src := t.granuleMap t.cur g
      (∀ x, t.me.own.look g = some (.owned x) → t.tcmWrite t.cur o = some (t, x * 256 + o % 256, false))
      ∧ ((∀ x, t.me.own.look g ≠ some (.owned x)) →
        (t.takeGranule t.myCore launch = none → t.tcmWrite t.cur o = none)
        ∧ (∀ x w, t.takeGranule t.myCore launch = some (x, w) → x ≠ src → ∃ u, t.tcmWrite t.cur o = some (u, x * 256 + o % 256, true)
          ∧ u.me.own.look g = some (.owned x) ∧ (∀ k, k ≠ g → u.me.own.look k = t.me.own.look k)
          ∧ (∀ c, c < 256 → tcmByte u (x * 256 + c) = tcmByte t (src * 256 + c))
          ∧ (∀ c, c < 64 → u.wordFull t.myCore (x * 256 + 4 * c) = t.wordFull t.myCore (src * 256 + 4 * c))
          ∧ (∀ c, c < t.myCore * 524288 + x * 256 ∨ t.myCore * 524288 + x * 256 + 256 ≤ c → u.memory.sram.get c = t.memory.sram.get c)
          ∧ u.me.regs = t.me.regs ∧ u.me.pc = t.me.pc)))
    ∧ (∀ p ∈ ([(.stb d a seg imm, 1), (.sth d a seg imm, 2), (.stw d a seg imm, 4)] : List (Instr × Nat)),
      let n := p.2
      let addr := t.segAddr seg.toNat (off n)
      let bytes := leBytes n (t.rS d.toNat).toNat
      let g := t.seg seg.toNat
      let asks (u : State) (q : Put) : State :=
        (u.addUnack u.cur).post [(0, u.myCore, u.unitOf q.loc)] (.store u.cur addr g.hint.toNat [q])
      t.checkAccess seg.toNat (off n) n 2 n (if n = 4 then [0, 1, 3] else [0, 1]) = none →
      (AtTcm t seg.toNat (off n) n 2 n (if n = 4 then [0, 1, 3] else [0, 1]) o →
        (t.tcmWrite t.cur o = none → exec p.1 s = traps s 10 addr)
        ∧ (∀ u o' fault, t.tcmWrite t.cur o = some (u, o', fault) →
            exec p.1 s = done s ((claimed t u o fault).writeLoc t.myPart 0 (.sram t.myCore o') bytes)))
      ∧ (∀ c w, t.target addr = .core c w →
        (t.unackWait = none → exec p.1 s =
          done s (asks t { loc := .sram c w, bytes := bytes, foot := addrOff addr, size := n, addr := addr }))
        ∧ (t.unackWait ≠ none → exec p.1 s = .next (s.park (.unackRoom 1))))
      ∧ (∀ va, t.target addr = .global va → (t.windowAt t.myPart va ≠ none → exec p.1 s = traps s 6 addr)
        ∧ (t.windowAt t.myPart va = none → ∀ v e, t.translate t.myCore t.myPart va .write = .ok v e →
          let l := Loc.phys e.cls (e.phys va) e.key
          let q : Put := { loc := l, bytes := bytes, foot := addrOff addr, size := n, addr := addr }
          let x := v.updateLine v.myCore (l, bytes)
          (g.rights.getLsbD 5 = false ∨ e.c = false → (asks (x.flushLine l) q).owed v.cur ≤ 1023 →
            exec p.1 s = done s (asks (x.flushLine l) q))
          ∧ (g.rights.getLsbD 5 = true → e.c = true → let u := x.combine e.cls (e.phys va / 256) g.hint.toNat addr [q]
            u.owed v.cur ≤ 1023 → exec p.1 s = done s u))))

/-- R131-R132, R164: the first check that fails decides the trap of a scalar or full/empty load or store, which then has no
effect. Step 1, SEG_LIMIT: the offset is negative, the access passes the limit, or a bit that its space fixes at zero is set.
Step 2, SEG_RIGHTS: a right is missing, the form may not reach the space, the bytes lie in a guarded region of the own TCM
(R98, R169, R427), or an address of space 11 is not a multiple of 4. Step 3, MISALIGN: the address is not a multiple of the
size. The trap's value is the address. -/
def Obligations.ScalarAccessTraps : Prop :=
  ∀ (s : State) (d a : BitVec 5) (seg : BitVec 3) (imm : BitVec 10), ∀ p ∈ ([
      (.ldb d a seg imm, .d d.toNat, 1, [0], [0, 1]), (.ldbu d a seg imm, .d d.toNat, 1, [0], [0, 1]),
      (.ldh d a seg imm, .d d.toNat, 2, [0], [0, 1]), (.ldhu d a seg imm, .d d.toNat, 2, [0], [0, 1]),
      (.ldw d a seg imm, .d d.toNat, 4, [0], [0, 1, 3]), (.stb d a seg imm, .s d.toNat, 1, [1], [0, 1]),
      (.sth d a seg imm, .s d.toNat, 2, [1], [0, 1]), (.stw d a seg imm, .s d.toNat, 4, [1], [0, 1, 3]),
      (.ldfe d a seg imm, .d d.toNat, 4, [0, 4], [1]), (.ldff d a seg imm, .d d.toNat, 4, [0, 4], [1]),
      (.stfe d a seg imm, .s d.toNat, 4, [1, 4], [1]), (.stff d a seg imm, .s d.toNat, 4, [1, 4], [1])]
        : List (Instr × Opnd × Nat × List Nat × List Nat)),
    Ready s [.s a.toNat, p.2.1] →
    let t := s.consumeAll [.s a.toNat, p.2.1]
    let n := p.2.2.1
    let off : Int := (t.rS a.toNat).toNat + imm.toInt * n
    let g := t.me.segs.lookD seg.toNat {}
    let addr : Addr := g.base + BitVec.ofInt 64 off
    let space := addr.toNat / 2 ^ 62
    let low := addr.toNat % 2 ^ 62
    let unzero : Prop := if space = 0 ∨ space = 3 then low / 2 ^ 48 ≠ 0
      else if space = 1 then low / 2 ^ 45 ≠ 0 ∨ low / 2 ^ 19 % 2 ^ 13 ≠ 0
      else low / 2 ^ 45 ≠ 0 ∨ low / 2 ^ 12 % 2 ^ 20 ≠ 0 ∨ low % 4 ≠ 0
    let beyond : Prop := off < 0 ∨ (g.limit.toNat : Int) < off + n ∨ unzero
    let c := t.core t.myCore
    let guarded : Prop := space = 1 ∧ low / 2 ^ 32 = t.myCore ∧ c.guarded (low % 2 ^ 19) n = true ∧ c.movingBytes (low % 2 ^ 19) n = false
    let unfit : Prop := (∃ r ∈ p.2.2.2.1, g.rights.getLsbD r = false) ∨ space ∉ p.2.2.2.2 ∨ guarded ∨ (space = 3 ∧ addr.toNat % 4 ≠ 0)
    (beyond → exec p.1 s = traps s 3 addr)
    ∧ (¬ beyond → unfit → exec p.1 s = traps s 4 addr)
    ∧ (¬ beyond → ¬ unfit → addr.toNat % n ≠ 0 → exec p.1 s = traps s 5 addr)

/-- R192-R194: synchronising accesses to a word of the own TCM at which nothing waits. LDFE of a full word reads it
and leaves it empty; LDFF leaves it full; STFE of an empty word and STFF of any write it and leave it full, once the
thread's own stores are performed and with what the core still combined sent. R193: LDFE
and LDFF of an empty word, and STFE of a full one, wait at the tail of their queue, and the thread parks with the pc past
the instruction; the word's bytes stay. R195: FECLR of no words has no effect; of one word of the own TCM at which nothing
waits it leaves the word empty. R107-R109: in the template window the four accesses take the granule as a store does, and
trap SHADOW_FULL without one. R194: a word of another storey's core, and for a store or FECLR of any other core, is
reached by one request. -/
def Obligations.SyncAccesses : Prop :=
  (∀ (s : State) (d a : BitVec 5) (seg : BitVec 3) (imm : BitVec 10) (o : Nat), s.cur < 131072 →
    (Ready s [.s a.toNat, .d d.toNat] →
      let t := s.consumeAll [.s a.toNat, .d d.toNat]
      SyncHere t seg.toNat ((t.rS a.toNat).toNat + imm.toInt * 4) 17 o → t.wordFull t.myCore o = true →
      exec (.ldfe d a seg imm) s =
        done s (((t.setWordFull t.myCore o false).wS d.toNat (tcmWordAt t o)).acquire t.myCore (t.seg seg.toNat).scope)
      ∧ exec (.ldff d a seg imm) s = done s ((t.wS d.toNat (tcmWordAt t o)).acquire t.myCore (t.seg seg.toNat).scope))
    ∧ (Ready s [.s a.toNat, .s d.toNat] →
      let t := s.consumeAll [.s a.toNat, .s d.toNat]
      SyncHere t seg.toNat ((t.rS a.toNat).toNat + imm.toInt * 4) 18 o → t.relWait = none →
      let u := ((t.sendAll.markWritten t.cur o).setWordFull t.myCore o true).writeLoc t.myPart 0 (.sram t.myCore o)
        (leBytes 4 (t.rS d.toNat).toNat)
      (t.wordFull t.myCore o = false → exec (.stfe d a seg imm) s = done s u)
      ∧ exec (.stff d a seg imm) s = done s u))
  ∧ (∀ (s : State) (d a : BitVec 5) (seg : BitVec 3) (imm : BitVec 10) (o : Nat) (op : SyncOp), s.cur < 131072 →
    Ready s [.s a.toNat, .d d.toNat] →
    let t := s.consumeAll [.s a.toNat, .d d.toNat]
    OwnTcm t seg.toNat ((t.rS a.toNat).toNat + imm.toInt * 4) 4 17 4 [1] o → t.liveCounter t.myCore o = none →
    t.wordFull t.myCore o = false →
    let i : Instr := if op = .ldfe then .ldfe d a seg imm else .ldff d a seg imm
    (op = .ldfe ∨ op = .ldff) →
    ∃ u r, exec i s = .next u ∧ r.slot = t.cur ∧ r.op = op ∧ r.d = d.toNat
      ∧ (u.syncQueues t.myCore o).full = (t.syncQueues t.myCore o).full ++ [r]
      ∧ u.memory.sram = s.memory.sram ∧ u.me.pc = s.me.pc + 4 ∧ u.me.park = some (.reply 0))
  ∧ (∀ (s : State) (d a : BitVec 5) (seg : BitVec 3) (imm : BitVec 10) (o : Nat), s.cur < 131072 →
    Ready s [.s a.toNat, .s d.toNat] →
    let t := s.consumeAll [.s a.toNat, .s d.toNat]
    OwnTcm t seg.toNat ((t.rS a.toNat).toNat + imm.toInt * 4) 4 18 4 [1] o → t.liveCounter t.myCore o = none → t.relWait = none →
    t.wordFull t.myCore o = true →
    ∃ u r, exec (.stfe d a seg imm) s = .next u ∧ r.slot = t.cur ∧ r.op = .stfe ∧ r.value = t.rS d.toNat
      ∧ (u.syncQueues t.myCore o).empty = (t.syncQueues t.myCore o).empty ++ [r]
      ∧ u.memory.sram = s.memory.sram ∧ u.me.pc = s.me.pc + 4 ∧ u.me.park = some (.reply 0))
  ∧ (∀ (s : State) (d a : BitVec 5) (seg : BitVec 3) (imm : BitVec 10) (op : SyncOp),
    let i : Instr := match op with
      | .ldfe => .ldfe d a seg imm
      | .ldff => .ldff d a seg imm
      | .stfe => .stfe d a seg imm
      | .stff => .stff d a seg imm
    let ops : List Opnd := [.s a.toNat, if op.store then .s d.toNat else .d d.toNat]
    Ready s ops →
    let t0 := s.consumeAll ops
    let off : Int := (t0.rS a.toNat).toNat + imm.toInt * 4
    let addr := t0.segAddr seg.toNat off
    t0.checkAccess seg.toNat off 4 (if op.store then 18 else 17) 4 [1] = none →
    (op.store = true → t0.relWait = none) →
    let t := if op.store then t0.sendAll else t0
    let req : SyncReq := ⟨t.cur, op, if op.store then 0 else d.toNat, t.rS d.toNat, op.store, t.me.pc, addr, (t0.seg seg.toNat).scope⟩
    (∀ o, t.target addr = .own o → (t.core t.myCore).movingBytes o 4 = false → t.tcmWrite t.cur o = none → exec i s = traps s 10 addr)
    ∧ (∀ o u o', t.target addr = .own o → (t.core t.myCore).movingBytes o 4 = false → t.tcmWrite t.cur o = some (u, o', true) →
      let v := if op.store then claimed t u o true else u.copyFault
      let w := (v.syncAt t.myCore o' { req with remote := false }).serve t.myCore o'
      (v.syncNow t.myCore o' op = true →
        exec i s = done s (if op.store then w else (w.wS d.toNat (v.tcmWord t.myCore o')).acquire v.myCore (t0.seg seg.toNat).scope))
      ∧ (v.syncNow t.myCore o' op = false → exec i s = holds s (v.syncWait t.myCore o' { req with remote := false }) (.reply 0)))
    ∧ (∀ c o, t.target addr = .core c o → op.store = false → storeyOf c ≠ storeyOf t.myCore →
      exec i s = holds s (t.send .request t.myCore c (.sync req c o)) (.reply t.nextAct))
    ∧ (∀ c o, t.target addr = .core c o → op.store = true → t.unackWait = none →
      exec i s = done s ((t.addUnack t.cur).send .request t.myCore c (.sync req c o))))
  ∧ (∀ (s : State) (seg : BitVec 3) (a b : BitVec 5) (o : Nat), s.cur < 131072 → Ready s [.s a.toNat, .s b.toNat] →
    let t := s.consumeAll [.s a.toNat, .s b.toNat]
    let off : Int := (t.rS a.toNat).toNat
    let n := (t.rS b.toNat).toNat
    (t.rS b.toNat = 0 → exec (.feclr seg a b) s = done s t)
    ∧ (∀ c, n ≠ 0 → t.checkAccess seg.toNat off (4 * n) 18 4 [1] = none → t.target (t.segAddr seg.toNat off) = .core c o →
        t.unackWait = none → exec (.feclr seg a b) s = done s ((t.addUnack t.cur).send .request t.myCore c (.feclr t.cur c o n)))
    ∧ (t.rS b.toNat = 1 → SyncHere t seg.toNat (t.rS a.toNat).toNat 18 o →
        exec (.feclr seg a b) s = done s ((t.markWritten t.cur o).setWordFull t.myCore o false)))

/-- R196-R198: an atomic on a word of the own TCM reads it into d and writes the operator's result, in one step; with
a release in the order it first waits for the thread's own stores and sends what the core still combines, and with an
acquire in the order it drops the cache's W lines. R196: AMOCAS writes b where the word equals what d held, and leaves the
word where it does not; d receives the old value. R198: an SC atomic stands at its home until the end of its window, and
its thread waits; the place in which it stands until then is the model's (log 27). A write to a word in which a live task
counts has no effect, and the atomic returns the count (R83; the value returned is the model's, log 25). R107-R109: an atomic
in a template granule that the impression does not own is performed in the granule that it takes; without one it traps
SHADOW_FULL. R191, R196: on a word of another core or of global memory it leaves one request that counts in UNACK, and its
thread waits past it. -/
def Obligations.AtomicResults : Prop :=
  ∀ (s : State) (order seg : BitVec 3) (d a b : BitVec 5) (o : Nat), s.cur < 131072 → order.toNat ≤ 4 →
    let sent (t : State) : State := if 2 ≤ order.toNat then t.sendAll else t
    let ready (ops : List Opnd) (u : State) (o' : Nat) (fault : Bool) : Prop := Ready s ops
      ∧ AtTcm (s.consumeAll ops) seg.toNat ((s.consumeAll ops).rS a.toNat).toNat 4 11 4 [0, 1] o
      ∧ (2 ≤ order.toNat → (s.consumeAll ops).relWait = none)
      ∧ (sent (s.consumeAll ops)).tcmWrite s.cur o = some (u, o', fault)
    let gives (t u : State) (o' : Nat) (fault : Bool) (op : Nat) (new : Word) : Host.Outcome State Fault Refusal :=
      let m := claimed (sent t) u o fault
      let u := (m.writeLoc t.myPart 0 (.sram t.myCore o') (leBytes 4 new.toNat)).wS d.toNat (tcmWordAt m o')
      if order = 4 then
        .next ((m.postFree (.scHold t.cur s.me.pc (t.segAddr seg.toNat (t.rS a.toNat).toNat)
            (.sram t.myCore o') op (t.rS b.toNat) (t.rS d.toNat) d.toNat (t.seg seg.toNat).scope false)).modMe fun x =>
          { x with pc := s.me.pc + 4, recs := [], park := some (.reply m.nextAct) })
      else done s (if order = 1 ∨ order = 3 then u.acquire t.myCore (t.seg seg.toNat).scope else u)
    (∀ (t : State) (w : Nat), t.granuleAt t.cur w = none → t.tcmWrite t.cur w = some (t, w, false)) ∧
    ∀ (u : State) (o' : Nat) (fault : Bool),
    let gives (t : State) := gives t u o' fault
    let ready (ops : List Opnd) : Prop := ready ops u o' fault
    (ready [.s a.toNat, .s b.toNat, .d d.toNat] →
      let t := s.consumeAll [.s a.toNat, .s b.toNat, .d d.toNat]
      let old := tcmWordAt (claimed (sent t) u o fault) o'
      let x := t.rS b.toNat
      exec (.amoadd order d a seg b) s = gives t 0 (old + x)
      ∧ exec (.amoswap order d a seg b) s = gives t 1 x
      ∧ exec (.amoand order d a seg b) s = gives t 3 (old &&& x)
      ∧ exec (.amoor order d a seg b) s = gives t 4 (old ||| x)
      ∧ exec (.amoxor order d a seg b) s = gives t 5 (old ^^^ x)
      ∧ exec (.amomin order d a seg b) s = gives t 6 (if x.toInt < old.toInt then x else old)
      ∧ exec (.amomax order d a seg b) s = gives t 7 (if old.toInt < x.toInt then x else old)
      ∧ exec (.amominu order d a seg b) s = gives t 8 (if x.toNat < old.toNat then x else old)
      ∧ exec (.amomaxu order d a seg b) s = gives t 9 (if old.toNat < x.toNat then x else old))
    ∧ (ready [.s a.toNat, .s b.toNat, .s d.toNat, .d d.toNat] →
      let t := s.consumeAll [.s a.toNat, .s b.toNat, .s d.toNat, .d d.toNat]
      let old := tcmWordAt (claimed (sent t) u o fault) o'
      exec (.amocas order d a seg b) s = gives t 2 (if old = t.rS d.toNat then t.rS b.toNat else old))
    ∧ (∀ p ∈ ([(.amoadd order d a seg b, 0), (.amoswap order d a seg b, 1), (.amocas order d a seg b, 2), (.amoand order d a seg b, 3),
          (.amoor order d a seg b, 4), (.amoxor order d a seg b, 5), (.amomin order d a seg b, 6), (.amomax order d a seg b, 7),
          (.amominu order d a seg b, 8), (.amomaxu order d a seg b, 9)] : List (Instr × Nat)),
      let ops : List Opnd := [.s a.toNat, .s b.toNat] ++ (if p.2 = 2 then [.s d.toNat] else []) ++ [.d d.toNat]
      Ready s ops →
      let t0 := s.consumeAll ops
      let t := sent t0
      let addr := t0.segAddr seg.toNat (t0.rS a.toNat).toNat
      let asks (u : State) (l : Loc) : Host.Outcome State Fault Refusal :=
        holds s ((u.addUnack u.cur).send .request u.myCore (u.unitOf l)
          (.amo u.cur t.me.pc addr l p.2 (t.rS b.toNat) (t.rS d.toNat) d.toNat order.toNat (t0.seg seg.toNat).scope)) (.reply u.nextAct)
      t0.checkAccess seg.toNat (t0.rS a.toNat).toNat 4 11 4 [0, 1] = none → (2 ≤ order.toNat → t0.relWait = none) →
      (∀ w, t.target addr = .own w → (t.core t.myCore).movingBytes w 4 = false → t.tcmWrite t.cur w = none → exec p.1 s = traps s 10 addr)
      ∧ (∀ c w, t.target addr = .core c w → t.unackWait = none → exec p.1 s = asks t (.sram c w))
      ∧ (∀ va, t.target addr = .global va → (t.windowAt t.myPart va ≠ none → exec p.1 s = traps s 6 addr)
        ∧ (t.windowAt t.myPart va = none → ∀ v e, t.translate t.myCore t.myPart va .atomic = .ok v e →
          let l := Loc.phys e.cls (e.phys va) e.key
          (e.cls = .host → exec p.1 s = traps s 4 addr)
          ∧ (e.cls ≠ .host → (v.flushLine l).unackWait = none → exec p.1 s = asks (v.flushLine l) l))))

/-- R199-R200: FENCE and DRAIN. An acquire drops the W lines of the core's cache at flight scope or wider; a release and
DRAIN wait until UNACK = 0 and the thread's combined stores have left, and leave the core's write-combining buffer empty. -/
def Obligations.FenceResults : Prop :=
  ∀ (s : State) (scope : BitVec 3), (s.thr? s.cur).isSome = true →
    let acq := s.acquire s.myCore (Scope.ofCode scope.toNat)
    exec (.fence 0 scope) s = done s acq
    ∧ (s.relWait = none → exec (.fence 1 scope) s = done s s.sendAll
        ∧ exec (.fence 2 scope) s = done s (s.sendAll.acquire s.myCore (Scope.ofCode scope.toNat))
        ∧ exec .drain s = done s s.sendAll ∧ (s.sendAll.core s.myCore).wcb = [] ∧ s.sendAll.memory = s.memory)
    ∧ (∀ w, s.relWait = some w →
        w = .unackZero ∧ exec (.fence 1 scope) s = .next (s.park w) ∧ exec (.fence 2 scope) s = .next (s.park w)
        ∧ exec .drain s = .next (s.park w))
    ∧ acq.memory = s.memory ∧ (∀ l, l ∈ (acq.core s.myCore).cache → l ∈ (s.core s.myCore).cache)
    ∧ (scope ≠ 0 → ∀ l, l ∈ (acq.core s.myCore).cache → l.w = false)

/-- R201-R202: vector loads whose pieces are all known at issue, as those of the own TCM are, write the enabled bytes or
words at issue; vector stores complete once their pieces are performed or on their way. A contiguous store of which no byte
of a part is enabled sends that part without bytes. The bytes: a VLD of the own TCM gives each enabled byte of vd the byte at
its place, and VLDS and VLDX each enabled word; VST leaves each enabled byte at its place, VSTS and VSTX each enabled word
that no later word overlaps, and every other byte of the memory and every register stays. R109: a store that finds no granule
for a copy fault traps SHADOW_FULL with its address. -/
def Obligations.VectorMemory : Prop :=
  ∀ (s : State) (vd vb : BitVec 4) (seg k : BitVec 3) (a b : BitVec 5) (imm : BitVec 4) (u : State) (bs : List Byte),
    let base (t : State) : Int := (t.rS a.toNat).toNat + imm.toInt * 64
    let strided (t : State) (e : Nat) : Int := base t + e * (t.rS b.toNat).toInt
    let indexed (t : State) (e : Nat) : Int := base t + sval 32 (lane (t.rV vb.toNat) 32 e)
    let on (t : State) : List Nat := (List.range 16).filter fun e => (t.rK k.toNat).getLsbD (4 * e)
    let dest (t : State) : LoadDest := .vector vd.toNat k.toNat (wordMask (t.rK k.toNat)) ((on t).map (4 * ·))
    let words (t : State) (offs : Nat → Int) (bytes : Nat → List Byte) : List Req :=
      (on t).map fun e => { a := t.segAddr seg.toNat (offs e), n := 4, start := t.segAddr seg.toNat (offs e), size := 4, bytes := bytes e }
    let known (t : State) (ps : List Req) : Prop := t.gather (t.seg seg.toNat) .read (ps.flatMap t.unitReqs) [] true = .known u bs
    let sent (t : State) (ps : List Req) : Prop := t.scatter (t.seg seg.toNat) ps [] ((ps.map Req.a).headD 0) = .ok u
    let bits (t : State) (e : Nat) : List Byte := leBytes 4 (lane (t.rV vd.toNat) 32 e)
    let runs (t : State) : List Req := (runsOf (t.rK k.toNat) (vbytes (t.rV vd.toNat))).flatMap fun p =>
      splitReq 3 { a := t.segAddr seg.toNat (base t) + BitVec.ofNat 64 p.1, n := p.2.length
                   start := t.segAddr seg.toNat (base t), size := 64, bytes := p.2 }
    let whole (t : State) : List Req := (loadReqs (t.segAddr seg.toNat (base t)) 64).flatMap fun q =>
      if ((runs t).filter fun r => r.a.toNat / 256 == q.a.toNat / 256).isEmpty then [q]
      else (runs t).filter fun r => r.a.toNat / 256 == q.a.toNat / 256
    (Ready s [.s a.toNat] →
      let t := s.consumeAll [.s a.toNat]
      t.checkOffset seg.toNat (base t) 64 1 64 [0, 1] = none → known t (loadReqs (t.segAddr seg.toNat (base t)) 64) →
      exec (.vld vd seg a imm k) s = done s (u.deliver (.vector vd.toNat k.toNat (t.rK k.toNat) [0]) bs))
    ∧ (Ready s [.s a.toNat, .s b.toNat] →
      let t := s.consumeAll [.s a.toNat, .s b.toNat]
      t.checkWords seg.toNat 1 ((on t).map (strided t)) = none → known t (words t (strided t) fun _ => []) →
      exec (.vlds vd seg a imm b k) s = done s (u.deliver (dest t) bs))
    ∧ (Ready s [.s a.toNat, .v vb.toNat] →
      let t := s.consumeAll [.s a.toNat, .v vb.toNat]
      t.checkWords seg.toNat 1 ((on t).map (indexed t)) = none → known t (words t (indexed t) fun _ => []) →
      exec (.vldx vd seg a imm vb k) s = done s (u.deliver (dest t) bs))
    ∧ (Ready s [.s a.toNat, .v vd.toNat] →
      let t := s.consumeAll [.s a.toNat, .v vd.toNat]
      t.checkOffset seg.toNat (base t) 64 2 64 [0, 1] = none → sent t (whole t) → exec (.vst vd seg a imm k) s = done s u)
    ∧ (Ready s [.s a.toNat, .s b.toNat, .v vd.toNat] →
      let t := s.consumeAll [.s a.toNat, .s b.toNat, .v vd.toNat]
      t.checkWords seg.toNat 2 ((on t).map (strided t)) = none → sent t (words t (strided t) (bits t)) →
      exec (.vsts vd seg a imm b k) s = done s u)
    ∧ (Ready s [.s a.toNat, .v vb.toNat, .v vd.toNat] →
      let t := s.consumeAll [.s a.toNat, .v vb.toNat, .v vd.toNat]
      t.checkWords seg.toNat 2 ((on t).map (indexed t)) = none → sent t (words t (indexed t) (bits t)) →
      exec (.vstx vd seg a imm vb k) s = done s u)
    ∧ (let here (t : State) (off : Int) (o : Nat) : Prop :=
        t.target (t.segAddr seg.toNat off) = .own o ∧ t.granuleAt t.cur o = none
      let still (t : State) (o n : Nat) : Prop := (t.core t.myCore).movingBytes o n = false
      let kept (t u : State) (p : Nat → Prop) : Prop :=
        (∀ c, ¬ p c → u.memory.sram.get c = t.memory.sram.get c) ∧ u.memory.stack = t.memory.stack
        ∧ u.me.pc = s.me.pc + 4 ∧ ∀ m, u.rS m = t.rS m ∧ u.rV m = t.rV m ∧ u.rK m = t.rK m
      (∀ o, Ready s [.s a.toNat] →
        let t := s.consumeAll [.s a.toNat]
        t.checkOffset seg.toNat (base t) 64 1 64 [0, 1] = none → still t o 64 → (∀ c : Nat, c < 64 → here t (base t + c) (o + c)) →
        ∃ r, exec (.vld vd seg a imm k) s = done s (givenV t vd.toNat k.toNat r)
          ∧ ∀ c, c < 64 → lane r 8 c = if (t.rK k.toNat).getLsbD c then (tcmByte t (o + c)).toNat else lane (t.rV vd.toNat) 8 c)
      ∧ (let loads (i : Instr) (t : State) (offs : Nat → Int) : Prop := ∀ oe : Nat → Nat,
          t.checkWords seg.toNat 1 ((on t).map offs) = none → (∀ e ∈ on t, still t (oe e) 4 ∧ here t (offs e) (oe e)) →
          ∃ r, exec i s = done s (givenV t vd.toNat k.toNat r)
            ∧ ∀ e, e < 16 → lane r 32 e = if (t.rK k.toNat).getLsbD (4 * e) then (tcmWordAt t (oe e)).toNat else lane (t.rV vd.toNat) 32 e
        (Ready s [.s a.toNat, .s b.toNat] →
          let t := s.consumeAll [.s a.toNat, .s b.toNat]
          loads (.vlds vd seg a imm b k) t (strided t))
        ∧ (Ready s [.s a.toNat, .v vb.toNat] →
          let t := s.consumeAll [.s a.toNat, .v vb.toNat]
          loads (.vldx vd seg a imm vb k) t (indexed t)))
      ∧ (s.cur < 131072 → MemoryOk s →
        (∀ o, Ready s [.s a.toNat, .v vd.toNat] →
          let t := s.consumeAll [.s a.toNat, .v vd.toNat]
          t.checkOffset seg.toNat (base t) 64 2 64 [0, 1] = none → still t o 64 → (∀ c : Nat, c < 64 → here t (base t + c) (o + c)) →
          (∀ c, c < 64 → t.liveCounter t.myCore (o + c) = none) →
          ∃ u, exec (.vst vd seg a imm k) s = .next u ∧ (∀ c, c < 64 → (t.rK k.toNat).getLsbD c = true →
              (tcmByte u (o + c)).toNat = lane (t.rV vd.toNat) 8 c)
            ∧ kept t u fun c => ∃ j, j < 64 ∧ (t.rK k.toNat).getLsbD j = true ∧ c = t.myCore * 524288 + o + j)
        ∧ (let stores (i : Instr) (t : State) (offs : Nat → Int) : Prop := ∀ oe : Nat → Nat,
            t.checkWords seg.toNat 2 ((on t).map offs) = none → (∀ e ∈ on t, still t (oe e) 4 ∧ here t (offs e) (oe e)) →
            (∀ e ∈ on t, ∀ c, c < 4 → t.liveCounter t.myCore (oe e + c) = none) →
            ∃ u, exec i s = .next u ∧ (∀ e ∈ on t, (∀ e' ∈ on t, e < e' → oe e' + 4 ≤ oe e ∨ oe e + 4 ≤ oe e') →
                (tcmWordAt u (oe e)).toNat = lane (t.rV vd.toNat) 32 e)
              ∧ kept t u fun c => ∃ e ∈ on t, t.myCore * 524288 + oe e ≤ c ∧ c < t.myCore * 524288 + oe e + 4
          (Ready s [.s a.toNat, .s b.toNat, .v vd.toNat] →
            let t := s.consumeAll [.s a.toNat, .s b.toNat, .v vd.toNat]
            stores (.vsts vd seg a imm b k) t (strided t))
          ∧ (Ready s [.s a.toNat, .v vb.toNat, .v vd.toNat] →
            let t := s.consumeAll [.s a.toNat, .v vb.toNat, .v vd.toNat]
            stores (.vstx vd seg a imm vb k) t (indexed t)))))
    ∧ (∀ o, Ready s [.s a.toNat, .v vd.toNat] →
      let t := s.consumeAll [.s a.toNat, .v vd.toNat]
      t.checkOffset seg.toNat (base t) 64 2 64 [0, 1] = none → (t.core t.myCore).movingBytes o 64 = false →
      (∀ c : Nat, c < 64 → t.target (t.segAddr seg.toNat (base t + c)) = .own (o + c) ∧ t.tcmWrite t.cur (o + c) = none) →
      (∃ c, c < 64 ∧ (t.rK k.toNat).getLsbD c = true) → exec (.vst vd seg a imm k) s = traps s 10 (t.segAddr seg.toNat (base t)))

/-! ### Vectors and masks (12 R230-R243) -/

/-- R231, R233: the integer lanes, of 32 or 8 bits, with their words. A word of the opcode with another T, with X2 or an
unlisted function, or a VIABS with VB set is no instruction. -/
def Obligations.IntegerLanes : Prop :=
  (∀ d a b k t x f : Nat, d < 16 → a < 16 → b < 16 → k < 8 → t < 8 → x < 4 → f < 64 →
    (t ≠ 4 ∧ t ≠ 5) ∨ x ≠ 0 ∨ 12 ≤ f ∨ (f = 11 ∧ b ≠ 0) → ∃ r, Sys2Proof.decodeWord (wordV 23 d a b k t x f) = .error r)
  ∧ ∀ (s : State) (t k : BitVec 3) (vd va vb : BitVec 4), tInt t = true →
    let w : Nat := if t = 4 then 32 else 8
    let val (q : State) (v j : Nat) : BitVec w := BitVec.ofNat w (lane (q.rV v) w j)
    (Ready s [.v va.toNat, .v vb.toNat] →
      let q := s.consumeAll [.v va.toNat, .v vb.toNat]
      let x (j : Nat) : BitVec w := val q va.toNat j
      let y (j : Nat) : BitVec w := val q vb.toNat j
      let n (j : Nat) : Nat := lane (q.rV vb.toNat) w j % w
      let gives (f : Nat → BitVec w) : Host.Outcome State Fault Refusal := lanesDone s q vd.toNat k.toNat w (fun j => (f j).toNat) 0
      exec (.viadd t vd va vb k) s = gives (fun j => x j + y j)
      ∧ exec (.visub t vd va vb k) s = gives (fun j => x j - y j)
      ∧ exec (.vimul t vd va vb k) s = gives (fun j => x j * y j)
      ∧ exec (.vimin t vd va vb k) s = gives (fun j => if (x j).toInt < (y j).toInt then x j else y j)
      ∧ exec (.vimax t vd va vb k) s = gives (fun j => if (x j).toInt < (y j).toInt then y j else x j)
      ∧ exec (.viand t vd va vb k) s = gives (fun j => x j &&& y j)
      ∧ exec (.vior t vd va vb k) s = gives (fun j => x j ||| y j)
      ∧ exec (.vixor t vd va vb k) s = gives (fun j => x j ^^^ y j)
      ∧ exec (.visll t vd va vb k) s = gives (fun j => x j <<< n j)
      ∧ exec (.visrl t vd va vb k) s = gives (fun j => x j >>> n j)
      ∧ exec (.visra t vd va vb k) s = gives (fun j => (x j).sshiftRight (n j)))
    ∧ (Ready s [.v va.toNat] →
      let q := s.consumeAll [.v va.toNat]
      exec (.viabs t vd va k) s = lanesDone s q vd.toNat k.toNat w (fun j =>
        (if (val q va.toNat j).toInt < 0 then - val q va.toNat j else val q va.toNat j).toNat) 0)
    ∧ (∀ p ∈ ([(.viadd t vd va vb k, 0), (.visub t vd va vb k, 1), (.vimul t vd va vb k, 2), (.vimin t vd va vb k, 3),
        (.vimax t vd va vb k, 4), (.viand t vd va vb k, 5), (.vior t vd va vb k, 6), (.vixor t vd va vb k, 7),
        (.visll t vd va vb k, 8), (.visrl t vd va vb k, 9), (.visra t vd va vb k, 10)] : List (Instr × Nat)),
      Sys2Proof.encode p.1 = some (wordV 23 vd.toNat va.toNat vb.toNat k.toNat t.toNat 0 p.2))
    ∧ Sys2Proof.encode (.viabs t vd va k) = some (wordV 23 vd.toNat va.toNat 0 k.toNat t.toNat 0 11)

/-- R234: the floating-point lanes, in FP32 or BF16, with the flags of the enabled lanes. R46-R48: an exact value is rounded
once to the nearest value of the format, ties to even, subnormals kept, and overflows to an infinity; it is tiny below the
smallest normal; zero sums take their signs. R235, R41, R44: NaN, infinite and zero operands. -/
def Obligations.FloatLanes : Prop :=
  (f32.nan = 0x7FC00000 ∧ bf16.nan = 0x7FC0 ∧ f32.infBits false = 0x7F800000 ∧ f32.infBits true = 0xFF800000
    ∧ bf16.infBits false = 0x7F80 ∧ bf16.infBits true = 0xFF80 ∧ f32.signBit true = 0x80000000 ∧ bf16.signBit true = 0x8000)
  ∧ (∀ f ∈ [f32, bf16],
    (∀ (neg : Bool) (m : Nat) (e : Int),
      let r := f.round m e false false
      let low : Int := min e f.qmin
      let top : Int := f.qmin + 2 ^ f.ebits - 4
      let base : Int := min e top
      (r.ovf = true ↔ (2 ^ (f.fbits + 2) - 1) * 2 ^ (top - base).toNat ≤ m * 2 ^ (e - base).toNat)
      ∧ (f.arith neg m e false).1 = (if r.ovf then f.infBits neg else f.signBit neg + r.bits)
      ∧ (f.arith neg m e false).2 = (if r.ovf then flOF + flNX else if r.inexact then flNX + (if r.tiny then flUF else 0) else 0)
      ∧ (r.tiny = true ↔ m ≠ 0 ∧ m * 2 ^ (e - low).toNat < 2 ^ (f.qmin + f.fbits - low).toNat)
      ∧ (r.ovf = false → ∃ (k : Nat) (q : Int), f.val r.bits = .fin false k q ∧ k < 2 ^ (f.fbits + 1)
          ∧ (2 ^ f.fbits ≤ k ∨ q = f.qmin) ∧ (
          let z := min e q
          let x : Int := (m * 2 ^ (e - z).toNat : Nat)
          let y : Int := (k * 2 ^ (q - z).toNat : Nat)
          let u : Int := (2 ^ (q - z).toNat : Nat)
          2 * (x - y).natAbs ≤ u ∧ (2 * ((x - y).natAbs : Int) = u → k % 2 = 0)
          ∧ (k = 2 ^ f.fbits → q ≠ f.qmin → x < y → 4 * ((x - y).natAbs : Int) ≤ u)
          ∧ (r.inexact = true ↔ x ≠ y))))
    ∧ (∀ (x y z : FVal) (a n : Bool) (m : Nat) (e e' : Int),
      let bad : Nat × Nat := (f.nan, flNV)
      let product0 : Prop := (x.isZero = true ∧ y.isInf = true) ∨ (x.isInf = true ∧ y.isZero = true)
      (x = .nan ∨ y = .nan → f.add x y = (f.nan, 0) ∧ f.mul x y = (f.nan, 0))
      ∧ (x = .nan ∨ y = .nan ∨ z = .nan → f.fma x y z = (f.nan, if (x.isZero && y.isInf) || (x.isInf && y.isZero) then flNV else 0))
      ∧ (f.add (.inf a) (.inf (!a)) = bad ∧ f.add (.inf a) (.inf a) = (f.infBits a, 0)
        ∧ f.add (.inf a) (.fin n m e) = (f.infBits a, 0) ∧ f.add (.fin n m e) (.inf a) = (f.infBits a, 0))
      ∧ (product0 → f.mul x y = bad ∧ (z ≠ .nan → f.fma x y z = bad))
      ∧ (x ≠ .nan → y ≠ .nan → ¬ product0 → (x.isInf = true ∨ y.isInf = true) →
        f.mul x y = (f.infBits (Bool.xor x.sign y.sign), 0)
        ∧ (z = .inf (!(Bool.xor x.sign y.sign)) → f.fma x y z = bad)
        ∧ (z ≠ .nan → z ≠ .inf (!(Bool.xor x.sign y.sign)) → f.fma x y z = (f.infBits (Bool.xor x.sign y.sign), 0)))
      ∧ (f.add (.fin true 0 e) (.fin true 0 e') = (f.signBit true, 0) ∧ f.add (.fin true 0 e) (.fin false 0 e') = (0, 0)
        ∧ f.add (.fin false 0 e) (.fin true 0 e') = (0, 0) ∧ f.add (.fin a (m + 1) e) (.fin (!a) (m + 1) e) = (0, 0))
      ∧ (f.sqrt (.fin true (m + 1) e) = bad ∧ f.sqrt (.inf true) = bad ∧ f.sqrt (.inf false) = (f.infBits false, 0)
        ∧ f.sqrt (.fin n 0 e) = (f.signBit n, 0) ∧ f.sqrt .nan = (f.nan, 0))
      ∧ (f.rsq (.fin true (m + 1) e) = bad ∧ f.rsq (.inf true) = bad ∧ f.rsq (.inf false) = (0, 0)
        ∧ f.rsq (.fin n 0 e) = (f.infBits n, 0) ∧ f.rsq .nan = (f.nan, 0))
      ∧ (f.rcp (.fin n 0 e) = (f.infBits n, 0) ∧ f.rcp (.inf n) = (f.signBit n, 0) ∧ f.rcp .nan = (f.nan, 0))
      ∧ (f.exp2 (.inf false) = (f.infBits false, 0) ∧ f.exp2 (.inf true) = (0, 0) ∧ f.exp2 .nan = (f.nan, 0)))
    ∧ (∀ (w v : Nat) (i : Int), w < 2 ^ f.width → v < 2 ^ f.width →
      (f.val w = .nan ∨ f.val v = .nan → f.minmax true w v = (f.nan, 0) ∧ f.minmax false w v = (f.nan, 0))
      ∧ (f.val w = .nan → f.abs w = f.nan ∧ f.negBits w = f.nan ∧ f.scale w i = (f.nan, 0))
      ∧ (f.val w ≠ .nan → f.abs w = w % 2 ^ (f.width - 1) ∧ f.negBits w = (w + 2 ^ (f.width - 1)) % 2 ^ f.width)
      ∧ (∀ n, f.val w = .inf n → f.scale w i = (w, 0)) ∧ (∀ n e, f.val w = .fin n 0 e → f.scale w i = (w, 0))
      ∧ (f.minmax true (f.signBit true) 0 = (0, 0) ∧ f.minmax false 0 (f.signBit true) = (f.signBit true, 0))))
  ∧ ∀ (s : State) (t k : BitVec 3) (vd va vb : BitVec 4), tFlt t = true →
    let f : Fmt := if t = 0 then f32 else bf16
    let w := f.width
    let a (q : State) (j : Nat) : Nat := lane (q.rV va.toNat) w j
    let b (q : State) (j : Nat) : Nat := lane (q.rV vb.toNat) w j
    let d (q : State) (j : Nat) : Nat := lane (q.rV vd.toNat) w j
    let gives (q : State) (g : Nat → Nat × Nat) : Host.Outcome State Fault Refusal :=
      lanesDone s q vd.toNat k.toNat w (fun j => (g j).1 % 2 ^ w) (flagsOn q k.toNat w fun j => (g j).2)
    (Ready s [.v va.toNat, .v vb.toNat] →
      let q := s.consumeAll [.v va.toNat, .v vb.toNat]
      exec (.vadd t vd va vb k) s = gives q (fun j => f.add (f.val (a q j)) (f.val (b q j)))
      ∧ exec (.vsub t vd va vb k) s = gives q (fun j => f.add (f.val (a q j)) (f.val (b q j)).negate)
      ∧ exec (.vmul t vd va vb k) s = gives q (fun j => f.mul (f.val (a q j)) (f.val (b q j)))
      ∧ exec (.vmin t vd va vb k) s = gives q (fun j => f.minmax false (a q j) (b q j))
      ∧ exec (.vmax t vd va vb k) s = gives q (fun j => f.minmax true (a q j) (b q j))
      ∧ exec (.vscl t vd va vb k) s = gives q (fun j => f.scale (a q j) (sval w (b q j))))
    ∧ (Ready s [.v va.toNat, .v vb.toNat, .v vd.toNat] →
      let q := s.consumeAll [.v va.toNat, .v vb.toNat, .v vd.toNat]
      exec (.vfma t vd va vb k) s = gives q (fun j => f.fma (f.val (a q j)) (f.val (b q j)) (f.val (d q j)))
      ∧ exec (.vfms t vd va vb k) s = gives q (fun j => f.fma (f.val (a q j)) (f.val (b q j)) (f.val (d q j)).negate))
    ∧ (Ready s [.v va.toNat] →
      let q := s.consumeAll [.v va.toNat]
      exec (.vabs t vd va k) s = gives q (fun j => (f.abs (a q j), 0))
      ∧ exec (.vneg t vd va k) s = gives q (fun j => (f.negBits (a q j), 0))
      ∧ exec (.vsqrt t vd va k) s = gives q (fun j => f.sqrt (f.val (a q j)))
      ∧ exec (.vrcp t vd va k) s = gives q (fun j => f.rcp (f.val (a q j)))
      ∧ exec (.vrsq t vd va k) s = gives q (fun j => f.rsq (f.val (a q j)))
      ∧ exec (.vexp2 t vd va k) s = gives q (fun j => f.exp2 (f.val (a q j))))

/-- R236-R237: compare, select, shuffle and slide. R238-R239, R53: the reductions write lane 0 and clear the other lanes;
VCVT writes the lanes that both types have, clears the lanes beyond them whatever the mask, and raises the flags of the enabled
lanes that it converts. -/
def Obligations.LaneSelection : Prop :=
  (∀ (s : State) (cond : BitVec 2) (t kd k : BitVec 3) (vd va vb : BitVec 4), tAny t = true →
    Ready s [.v va.toNat, .v vb.toNat] →
    let q := s.consumeAll [.v va.toNat, .v vb.toNat]
    let w := laneW t.toNat
    let on (j : Nat) : Bool := (q.rK k.toNat).getLsbD (j * (w / 8))
    let a (j : Nat) : Nat := lane (q.rV va.toNat) w j
    let b (j : Nat) : Nat := lane (q.rV vb.toNat) w j
    (tArith t = true → ∃ m, exec (.vcmp cond t kd va vb k) s = done s (q.wKm k.toNat kd.toNat m)
      ∧ ∀ i, i < 64 → m.getLsbD i =
        if on (i / (w / 8)) then cmpLane cond.toNat t.toNat (a (i / (w / 8))) (b (i / (w / 8))) else (q.rK kd.toNat).getLsbD i)
    ∧ (∃ r, exec (.vsel t vd va vb k) s = done s (q.wV vd.toNat r) ∧ ∀ j, j < 512 / w → lane r w j = if on j then a j else b j)
    ∧ exec (.vshuf t vd va vb k) s = lanesDone s q vd.toNat k.toNat w (fun j => a (b j % (512 / w))) 0
    ∧ exec (.vslide t vd va vb k) s = lanesDone s q vd.toNat k.toNat w (fun j =>
        let x : Int := j + sval 32 (lane (q.rV vb.toNat) 32 0)
        if 0 ≤ x ∧ x < (512 / w : Nat) then a x.toNat else 0) 0)
  ∧ (∀ (s : State) (mode : BitVec 2) (t k : BitVec 3) (src vd va : BitVec 4), Ready s [.v va.toNat] →
    let q := s.consumeAll [.v va.toNat]
    let w := laneW t.toNat
    let xs := ((List.range (512 / w)).filter fun j => (q.rK k.toNat).getLsbD (j * (w / 8))).map fun j => lane (q.rV va.toNat) w j
    let red (op : Nat) : State := (q.wV vd.toNat (ofLanes w [(reduceLanes op t.toNat xs).1])).raise (reduceLanes op t.toNat xs).2
    exec (.vredsum t vd va k) s = done s (red 0)
    ∧ exec (.vredmax t vd va k) s = done s (red 1)
    ∧ exec (.vredmin t vd va k) s = done s (red 2)
    ∧ (t = 4 → reduceLanes 0 4 xs = ((xs.map (sval 32)).sum % 2 ^ 32 |>.toNat, 0))
    ∧ (let n := min (512 / w) (512 / laneW src.toNat)
      let g (j : Nat) : Nat × Nat := convert (elemT t.toNat) (elemT src.toNat) mode.toNat (lane (q.rV va.toNat) (laneW src.toNat) j)
      ∃ r, exec (.vcvt mode t src vd va k) s = done s ((q.wVm k.toNat vd.toNat r).raise
          (flagsOn q k.toNat w fun j => if j < n then (g j).2 else 0))
        ∧ ∀ j, j < 512 / w → lane r w j =
            if n ≤ j then 0 else if (q.rK k.toNat).getLsbD (j * (w / 8)) then (g j).1 % 2 ^ w else lane (q.rV vd.toNat) w j))

/-- R240-R241: mask registers, and transfers between scalar, vector and mask registers. A write of k0 is discarded, and
k0 reads all ones. A mask instruction with T, K, X2, bit 3 of a register field or an unused VB set is no instruction. -/
def Obligations.MaskTransfer : Prop :=
  (∀ d a b k t x f : Nat, d < 16 → a < 16 → b < 16 → k < 8 → t < 8 → x < 4 → 8 ≤ f → f < 12 →
    t ≠ 0 ∨ k ≠ 0 ∨ x ≠ 0 ∨ 8 ≤ d ∨ 8 ≤ a ∨ 8 ≤ b ∨ (10 ≤ f ∧ b ≠ 0) →
    ∃ r, Sys2Proof.decodeWord (wordV 25 d a b k t x f) = .error r)
  ∧ ∀ (s : State) (kd ka kb m wsel : BitVec 3) (d a b : BitVec 5) (vd va : BitVec 4), (s.thr? s.cur).isSome = true →
    m.toNat < 3 → wsel.toNat < 2 →
    let w : Nat := 32 / 2 ^ m.toNat
    exec (.kand kd ka kb) s = done s (s.wK kd.toNat (s.rK ka.toNat &&& s.rK kb.toNat))
    ∧ exec (.kor kd ka kb) s = done s (s.wK kd.toNat (s.rK ka.toNat ||| s.rK kb.toNat))
    ∧ exec (.knot kd ka) s = done s (s.wK kd.toNat (~~~ s.rK ka.toNat))
    ∧ exec (.kmov kd ka) s = done s (s.wK kd.toNat (s.rK ka.toNat))
    ∧ s.rK 0 = BitVec.allOnes 64 ∧ (∀ v, s.wK 0 v = s)
    ∧ (∀ p ∈ ([(.kand kd ka kb, wordV 25 kd.toNat ka.toNat kb.toNat 0 0 0 8), (.kor kd ka kb, wordV 25 kd.toNat ka.toNat kb.toNat 0 0 0 9),
        (.knot kd ka, wordV 25 kd.toNat ka.toNat 0 0 0 0 10), (.kmov kd ka, wordV 25 kd.toNat ka.toNat 0 0 0 0 11)] : List (Instr × Nat)),
      Sys2Proof.encode p.1 = some p.2)
    ∧ (Ready s [.d d.toNat] →
        exec (.kget d ka wsel) s = done s (s.wS d.toNat ((s.rK ka.toNat).extractLsb' (32 * wsel.toNat) 32)))
    ∧ (Ready s [.s a.toNat] →
        let t := s.consumeAll [.s a.toNat]
        exec (.kset kd a wsel) s = done s (t.wKpart kd.toNat
          (if wsel = 0 then (t.rK kd.toNat).extractLsb' 32 32 ++ t.rS a.toNat else t.rS a.toNat ++ (t.rK kd.toNat).extractLsb' 0 32))
        ∧ ∃ r, exec (.vbcast vd a m) s = done s (t.wV vd.toNat r)
          ∧ ∀ j, j < 512 / w → lane r w j = (t.rS a.toNat).toNat % 2 ^ w)
    ∧ (Ready s [.v va.toNat, .s b.toNat, .d d.toNat] →
        let t := s.consumeAll [.v va.toNat, .s b.toNat, .d d.toNat]
        exec (.vget d va b m) s = done s (t.wS d.toNat
          (BitVec.ofNat 32 (lane (t.rV va.toNat) w ((t.rS b.toNat).toNat % (512 / w))))))
    ∧ (Ready s [.v vd.toNat, .s a.toNat, .s b.toNat] →
        let t := s.consumeAll [.v vd.toNat, .s a.toNat, .s b.toNat]
        ∃ r, exec (.vput vd a b m) s = done s (t.wVpart vd.toNat r)
          ∧ ∀ j, j < 512 / w → lane r w j =
            if j = (t.rS b.toNat).toNat % (512 / w) then (t.rS a.toNat).toNat % 2 ^ w else lane (t.rV vd.toNat) w j)

/-- R105-R106, R126: what writing a vector or mask register does: only that register of the issuing thread changes. A write
that covers part of a register leaves the whole register's new value owned and full, as a whole write does, changes no other
register, and takes a copy fault of 4 cycles where the register is not owned. k0 takes no write. R229: a whole write of a
result register ends what a delivery has left to acquire there; a partial one keeps it. -/
def Obligations.VectorWrite : Prop :=
  ∀ (s : State) (n m : Nat) (v : VWord) (c : Mask), (s.thr? s.cur).isSome = true → n < 16 → m < 16 →
    OnlyMe s (s.wV n v) ∧ (s.wV n v).rV n = v ∧ (s.wV n v).vFullOf s.cur n = true
    ∧ (m ≠ n → (s.wV n v).rV m = s.rV m) ∧ (s.wV n v).rS m = s.rS m ∧ (s.wV n v).rK m = s.rK m
    ∧ (s.wV n v).me.fresh = s.me.fresh.del n
    ∧ (let t := s.wVpart n v
      OnlyMe s t ∧ t.rV n = v ∧ t.vFullOf s.cur n = true ∧ t.me.regs.vOwn.getLsbD n = true
      ∧ t.me.early = s.me.early + (if s.me.regs.vOwn.getLsbD n then 0 else 4)
      ∧ (m ≠ n → t.rV m = s.rV m ∧ t.vFullOf s.cur m = s.vFullOf s.cur m) ∧ t.rS m = s.rS m ∧ t.rK m = s.rK m
      ∧ t.me.fresh = s.me.fresh ∧ t.me.pc = s.me.pc ∧ t.me.tags = s.me.tags)
    ∧ (let t := s.wKpart n c
      (n = 0 → t = s) ∧ (0 < n → n < 8 →
        OnlyMe s t ∧ t.rK n = c ∧ t.me.regs.kOwn.getLsbD n = true
        ∧ t.me.early = s.me.early + (if s.me.regs.kOwn.getLsbD n then 0 else 4)
        ∧ (m ≠ n → t.rK m = s.rK m) ∧ t.rV m = s.rV m ∧ t.rS m = s.rS m
        ∧ t.me.fresh = s.me.fresh ∧ t.me.pc = s.me.pc ∧ t.me.tags = s.me.tags))
    ∧ (0 < n → n < 8 → OnlyMe s (s.wK n c) ∧ (s.wK n c).rK n = c ∧ (m ≠ n → (s.wK n c).rK m = s.rK m)
        ∧ (s.wK n c).rV m = s.rV m ∧ (s.wK n c).rS m = s.rS m)

namespace Sys2Proof.Cert

/-- The least tag of a mask with a property. -/
def FirstTag (m : BitVec 64) (p : Nat → Prop) (n : Nat) : Prop :=
  n < 64 ∧ m.getLsbD n = true ∧ p n ∧ ∀ j, j < n → ¬ (m.getLsbD j = true ∧ p j)

/-- No tag of a mask has a property. -/
def NoTag (m : BitVec 64) (p : Nat → Prop) : Prop := ∀ j, j < 64 → ¬ (m.getLsbD j = true ∧ p j)

end Sys2Proof.Cert

/-! ### Tags and copies (11 R203-R213) -/

/-- R204-R205: the tag instructions. WTANY and TFIRST name the lowest selected tag that shows SET, and acquire; with none
they give 64, but WTANY waits while a selected tag is in flight. WTALL waits for all. TCLR clears, TSTAT reads. R222, R229, R292:
the acquire is at package scope, and at system scope where the tag shows the delivery of a system hall (log 37). -/
def Obligations.TagInstructions : Prop :=
  ∀ (s : State) (d a : BitVec 5) (n : Nat),
    let mask (t : State) : BitVec 64 := t.rS (a.toNat + 1) ++ t.rS a.toNat
    let isSet (t : State) (j : Nat) : Prop := (t.me.tagOf j).set = true
    let flying (t : State) (j : Nat) : Prop := (t.me.tagOf j).inflight ≠ 0
    (Ready s [.s a.toNat, .s (a.toNat + 1), .d d.toNat] →
      let t := s.consumeAll [.s a.toNat, .s (a.toNat + 1), .d d.toNat]
      let found : State := (t.wS d.toNat (BitVec.ofNat 32 n)).acquire t.myCore (if (t.me.tagOf n).sys then .sys else .pkg)
      (FirstTag (mask t) (isSet t) n → exec (.wtany d a) s = done s found ∧ exec (.tfirst d a) s = done s found)
      ∧ (NoTag (mask t) (isSet t) → exec (.tfirst d a) s = done s (t.wS d.toNat 64)
          ∧ (NoTag (mask t) (flying t) → exec (.wtany d a) s = done s (t.wS d.toNat 64))
          ∧ (¬ NoTag (mask t) (flying t) → exec (.wtany d a) s = .next (s.park (.tagSet (mask t))))))
    ∧ (Ready s [.s a.toNat, .s (a.toNat + 1)] →
      let t := s.consumeAll [.s a.toNat, .s (a.toNat + 1)]
      (NoTag (mask t) (flying t) → NoTag (mask t) (isSet t) → exec (.wtall a) s = done s t)
      ∧ (NoTag (mask t) (flying t) → ¬ NoTag (mask t) (isSet t) →
          (NoTag (mask t) (fun j => isSet t j ∧ (t.me.tagOf j).sys = true) → exec (.wtall a) s = done s (t.acquire t.myCore .pkg))
          ∧ (¬ NoTag (mask t) (fun j => isSet t j ∧ (t.me.tagOf j).sys = true) → exec (.wtall a) s = done s (t.acquire t.myCore .sys)))
      ∧ (¬ NoTag (mask t) (flying t) → exec (.wtall a) s = .next (s.park (.tagIdle (mask t))))
      ∧ exec (.tclr a) s = done s (t.modMe fun x => x.clearTags (mask t)))
    ∧ (Ready s [.s a.toNat, .d d.toNat] →
      let t := s.consumeAll [.s a.toNat, .d d.toNat]
      let g := t.me.tagOf ((t.rS a.toNat).extractLsb' 0 6).toNat
      let u := t.wS d.toNat (if (t.rS a.toNat).getLsbD 6 then g.recorded else g.status)
      exec (.tstat d a) s = done s (if g.set then u.acquire t.myCore (if g.sys then .sys else .pkg) else u))

/-- R203, R205: what counting an operation on a tag does, and its completion: SET falls with the first one in flight and
rises with the last one's completion; the tag keeps the cause of the first failure, also when that failure carries none.
R203, R207: what issuing an engine operation does: its tag counts one more, the core's queue one more, one act is pending,
and memory and every other thread stay. -/
def Obligations.TagCounting : Prop :=
  (∀ (g : TagSt) (err : Bool) (c : Nat),
    (g.issue.inflight = g.inflight + 1) ∧ (g.inflight = 0 → g.issue = { inflight := 1 })
    ∧ (g.inflight ≠ 0 → g.issue = { g with inflight := g.inflight + 1 })
    ∧ ((g.done err c).inflight = g.inflight - 1) ∧ ((g.done err c).set = true ↔ g.inflight ≤ 1)
    ∧ ((g.done err c).err = (g.err || err)) ∧ (g.err = true → (g.done err c).cause = g.cause)
    ∧ (g.err = false → (g.done true c).cause = c) ∧ (g.done false c).cause = g.cause
    ∧ (g.inflight = 0 → ((g.issue).done false c).set = true ∧ ((g.issue).done false c).inflight = 0))
  ∧ (∀ (t : State) (tag : Nat) (k : ActKind), (t.thr? t.cur).isSome = true → t.cur < 131072 →
    let u := t.engineIssue tag k
    (u.me.tagOf tag).inflight = (t.me.tagOf tag).inflight + 1
    ∧ (∀ n, n ≠ tag → u.me.tagOf n = t.me.tagOf n)
    ∧ (u.core t.myCore).copies = (t.core t.myCore).copies + 1
    ∧ u.acts.look t.nextAct = some { flows := [], kind := k }
    ∧ u.memory = t.memory ∧ (∀ id, id ≠ t.cur → u.thr? id = t.thr? id)
    ∧ u.me.regs = t.me.regs ∧ u.me.pc = t.me.pc)

/-- R206-R209: a copy whose operands pass their checks, and for which there is room, counts on its tag, joins the engine's
queue and completes; it copies nothing at issue, and it sends what the core still combines. One with no bytes to move
completes on its tag at once. CPYG copies at most the bound's rows, or traps where its record asks for that; the tag keeps
the greatest count. -/
def Obligations.CopyIssue : Prop :=
  ∀ (s : State) (hint : BitVec 3) (d a b : BitVec 5) (bs : List Byte) (op : CopyOp) (n : Word),
    Ready s [.s d.toNat, .s a.toNat, .s b.toNat] →
    let t := s.consumeAll [.s d.toNat, .s a.toNat, .s b.toNat]
    let ctl := t.rS d.toNat
    let tag := (ctl.extractLsb' 0 6).toNat
    let dseg := (ctl.extractLsb' 8 3).toNat
    let sseg := (ctl.extractLsb' 12 3).toNat
    let len := (ctl.extractLsb' 16 16).toNat
    let x := (t.rS a.toNat).toNat
    let y := (t.rS b.toNat).toNat
    let v := t.sendAll
    let issued (op : CopyOp) : State :=
      if op.rows.all (fun r => r.2.2 == 0) then (v.tagIssue v.cur op.tag).tagDone v.cur op.tag false 0
      else v.engineIssue op.tag (.copy op)
    (t.issueWait tag = none → t.footprint dseg x (len * 64) 2 = none →
      (t.footprint sseg y (len * 64) 1 = none → exec (.cpy hint d a b) s =
        done s (issued ⟨t.cur, tag, hint.toNat, none, [(t.segAddr dseg x, t.segAddr sseg y, len)]⟩))
      ∧ exec (.cpyf hint d a b) s =
        done s (issued ⟨t.cur, tag, hint.toNat, some (t.rS b.toNat), [(t.segAddr dseg x, 0, len)]⟩))
    ∧ (t.readRecord y 32 = .ok bs → t.planStride ctl hint.toNat x y bs = .ok op → t.issueWait op.tag = none →
      exec (.cpys hint d a b) s = done s (issued op))
    ∧ (let ca : Addr := BitVec.ofNat 64 (dwordAt bs 8)
       let bound := wordAt bs 16
       let rowb := wordAt bs 4
       t.readRecord y 32 = .ok bs → rowb % 64 = 0 → spaceZeros ca.toNat = true → spaceOf ca < 2 → ca.toNat % 4 = 0 →
       t.footprint dseg x (bound * rowb) 2 = none → t.footprint sseg (wordAt bs 0) (bound * rowb) 1 = none →
       t.readCount ca = .ok n →
       (bound < n.toNat → wordAt bs 20 % 2 = 1 → exec (.cpyg hint d a b) s = traps s 14 (n.setWidth 64))
       ∧ ((n.toNat ≤ bound ∨ wordAt bs 20 % 2 = 0) → t.issueWait tag = none →
          exec (.cpyg hint d a b) s = done s ((issued ⟨t.cur, tag, hint.toNat, none,
            [(t.segAddr dseg x, t.segAddr sseg (wordAt bs 0), min n.toNat bound * rowb / 64)]⟩).modTag t.cur tag fun g =>
              { g with
                shape := g.shape || decide (bound < n.toNat)
                recorded := if g.recorded.toNat < n.toNat then n else g.recorded })))

/-- R210-R213: WAITC of a counter that has reached its threshold, or of a dry window's word, writes the value and acquires;
one below parks its thread with a watch at the counter's home, and writes the value that the watch brings when it issues
again. TRIG arms one trigger, which fires at once when the counter has reached the threshold; a copy counts on its tag.
NCMP and NRED join the engine with their tag counted; region B of an NCMP is checked as the region is, and may start at any
offset (the model's reading, log 20). -/
def Obligations.CountersNearMemory : Prop :=
  ∀ (s : State) (seg : BitVec 3) (d a b : BitVec 5) (u : State) (l : Loc) (bs : List Byte),
    (Ready s [.s a.toNat, .s b.toNat, .d d.toNat] →
      let t := s.consumeAll [.s a.toNat, .s b.toNat, .d d.toNat]
      let scope := (t.seg seg.toNat).scope
      (∀ w ws, t.me.ans = some (w :: ws) → exec (.waitc d seg a b) s =
        done s (((t.modMe fun x => { x with ans := none }).wS d.toNat w).acquire t.myCore scope))
      ∧ (t.me.ans = none → t.counterPlace seg.toNat (t.rS a.toNat).toNat = .ok (u, l) →
        let v : Word := u.counterOwn l
        let dry := t.dryWord t.myPart l
        ((t.rS b.toNat).toNat ≤ v.toNat ∨ dry = true →
          exec (.waitc d seg a b) s = done s ((u.wS d.toNat v).acquire u.myCore scope))
        ∧ (v.toNat < (t.rS b.toNat).toNat → dry = false → u.watchFull l = false →
          exec (.waitc d seg a b) s = stays s (u.postFree (.watch u.cur l (t.rS b.toNat) scope none)) .counter)))
    ∧ (Ready s [.s d.toNat, .s a.toNat, .s b.toNat] →
      let t := s.consumeAll [.s d.toNat, .s a.toNat, .s b.toNat]
      (t.counterPlace seg.toNat (t.rS a.toNat).toNat = .ok (u, l) → u.readRecord (t.rS d.toNat).toNat 32 = .ok bs →
        let kind := wordAt bs 0
        let hint := wordAt bs 24 % 4
        let v : Word := u.counterOwn l
        let met : Option Word := if (t.rS b.toNat).toNat ≤ v.toNat then some v else none
        let armed (w : State) (f : Fire) : State :=
          (w.postFree (.trigger u.cur l (t.rS b.toNat) f met)).modMe fun x => { x with armed := x.armed + 1 }
        hint ≠ 3 → u.relWait = none → u.me.armed < 16 → ((t.rS b.toNat).toNat ≤ v.toNat ∨ u.watchFull l = false) →
        (kind = 2 → exec (.trig d seg a b) s = done s (armed u.sendAll
            (.dec (BitVec.ofNat 32 (wordAt bs 8)) (BitVec.ofNat 32 (wordAt bs 4 % 65536)))))
        ∧ ∀ op, kind < 2 → u.planCopy (BitVec.ofNat 32 (wordAt bs 4)) hint (dwordAt bs 8) (dwordAt bs 16)
              (if kind = 1 then some (BitVec.ofNat 32 (wordAt bs 16)) else none) = .ok op →
            (u.me.tagOf op.tag).inflight < 255 →
            exec (.trig d seg a b) s = done s (armed (u.sendAll.tagIssue u.cur op.tag) (.copy op)))
      ∧ (let off := (t.rS a.toNat).toNat
         let len := (t.rS b.toNat).toNat
         let addr := t.segAddr seg.toNat off
         let ctl : Word := BitVec.ofNat 32 (wordAt bs 0)
         let tag := (ctl.extractLsb' 0 6).toNat
         let o := (ctl.extractLsb' 8 2).toNat
         t.regionCheck seg.toNat off len = none → off % 256 = 0 → len % 256 = 0 →
         t.readRecord (t.rS d.toNat).toNat 32 = .ok bs → o ≠ 3 →
         t.checkOffset 0 (wordAt bs 4) 4 2 4 [0, 1] = none → t.issueWait tag = none →
         let op (reduce : Bool) : NearOp :=
           { slot := t.cur, tag := tag, reduce := reduce, op := o, float := ctl.getLsbD 12
             region := fieldOf addr 0 48, other := fieldOf (t.segAddr seg.toNat (dwordAt bs 8)) 0 48
             pattern := BitVec.ofNat 32 (wordAt bs 8), len := len, res := t.segAddr 0 (wordAt bs 4) }
         (o ≠ 2 → (o = 0 → t.regionCheck seg.toNat (dwordAt bs 8) len = none) →
           exec (.ncmp d seg a b) s = done s (t.sendAll.engineIssue tag (.near (op false))))
         ∧ exec (.nred d seg a b) s = done s (t.sendAll.engineIssue tag (.near (op true)))))

/-! ### The matrix engine (13 R244-R264) -/

/-- R247-R248, R250, R258-R263: MFMT accepts the legal format words and traps FORMAT_CTX on the others; MFMTQ sets the
super-scale; MBLD fills its latch, which may be used 5 or 6 cycles later, and parks on a latch that is OUTGOING or FULL and in use;
MMA, MMARB, MMACN and MBPASS join the queue, where their thread waits, or stay out of a full one; R246: where the C tile took
template copy faults the entry joins 24 cycles later for each; MZERO clears its tile. R247: the legal format words: BF16 by
BF16, FP8 by FP8, INT8 by INT8 with ACC set, FP8 by NQ4; every reserved bit zero. The words of R247 with a reserved bit, a
mixed pair or a wrong accumulator are not legal. -/
def Obligations.MatrixIssue : Prop :=
  (∀ (s : State) (d a : BitVec 5) (m l : BitVec 3) (u : State),
    (Ready s [.s a.toNat] →
      let t := s.consumeAll [.s a.toNat]
      let w := t.rS a.toNat
      let off := addrOff (t.segAddr 0 w.toNat)
      let mx := (t.core t.myCore).mx
      (fmtLegal w = true → exec (.mfmt a) s = done s (t.modMe fun x => { x with fmt := w }))
      ∧ (fmtLegal w = false → exec (.mfmt a) s = traps s 12 (w.setWidth 64))
      ∧ exec (.mfmtq a) s = done s (t.modMe fun x => { x with super := w })
      ∧ (t.tileCheck w.toNat (bBytes t.me.fmt) 1 = none → (t.core t.myCore).movingBytes off (bBytes t.me.fmt) = false →
          (mx.latch l.toNat = .empty ∨ ∃ y, mx.latch l.toNat = .full y ∧ mx.inUse l.toNat = false) →
          exec (.mbld a l) s = done s (t.modMx t.myCore fun x => (x.setLatch l.toNat
            (.full ⟨fmtB t.me.fmt, t.tileRead t.cur off (bBytes t.me.fmt)⟩)).setLoaded l.toNat
              (t.cycle + if fmtB t.me.fmt = 7 then 6 else 5)))
      ∧ (t.tileCheck w.toNat (bBytes t.me.fmt) 1 = none → (t.core t.myCore).movingBytes off (bBytes t.me.fmt) = false →
          ((∃ y, mx.latch l.toNat = .outgoing y) ∨ ∃ y, mx.latch l.toNat = .full y ∧ mx.inUse l.toNat = true) →
          exec (.mbld a l) s = .next (s.park (.latch l.toNat))))
    ∧ (Ready s [.s d.toNat] →
      let t := s.consumeAll [.s d.toNat]
      let c := (t.rS d.toNat).toNat
      let co := addrOff (t.segAddr 0 c)
      t.tileCheck c 1024 3 = none → (t.core t.myCore).movingBytes co 1024 = false → t.tileOwn (tileParts co 1024) = some u →
      exec (.mzero d) s = done s (u.tileWrite t.cur co (List.replicate 1024 0)))
    ∧ (let fromBuf := m.getLsbD 1
      let ops : List Opnd := if fromBuf then [.s d.toNat] else [.s d.toNat, .s a.toNat]
      Ready s ops →
      let t := s.consumeAll ops
      let c := (t.rS d.toNat).toNat
      let x := (t.rS a.toNat).toNat
      let co := addrOff (t.segAddr 0 c)
      let ao := addrOff (t.segAddr 0 x)
      t.tileCheck c 1024 3 = none → (t.core t.myCore).movingBytes co 1024 = false →
      (fromBuf = false → t.tileCheck x (aBytes t.me.fmt) 1 = none ∧ (t.core t.myCore).movingBytes ao (aBytes t.me.fmt) = false) →
      t.tileOwn (tileParts co 1024) = some u →
      let entry (op : MxOp) : MxEntry :=
        { slot := t.cur, op := op, latch := if m.getLsbD 0 then 1 else 0, fmt := t.me.fmt, super := t.me.super, c := co
          a := if fromBuf then none else some ao, pc := t.me.pc, join := t.cycle + 1 + (u.me.early - t.me.early) }
      let queued (op : MxOp) : Host.Outcome State Fault Refusal :=
        holds s (u.modMx t.myCore fun q => { q with queue := q.queue ++ [entry op] }) .deferred
      let late (op : MxOp) : Host.Outcome State Fault Refusal :=
        holds s (u.modMx t.myCore fun q => { q with late := q.late ++ [entry op] }) .deferred
      (u.me.early ≤ t.me.early → (u.core u.myCore).mx.queue.length < 2 →
        exec (.mma d a m) s = queued .mma ∧ exec (.mmarb d a m) s = queued .mmarb ∧ exec (.mmacn d a m) s = queued .mmacn)
      ∧ (t.me.early < u.me.early →
        exec (.mma d a m) s = late .mma ∧ exec (.mmarb d a m) s = late .mmarb ∧ exec (.mmacn d a m) s = late .mmacn)
      ∧ (u.me.early ≤ t.me.early → 2 ≤ (u.core u.myCore).mx.queue.length → exec (.mma d a m) s = stays s u .mxRoom
        ∧ exec (.mmarb d a m) s = stays s u .mxRoom ∧ exec (.mmacn d a m) s = stays s u .mxRoom))
    ∧ (Ready s [] → let t := s.consumeAll []
      (2 ≤ (t.core t.myCore).mx.queue.length → exec (.mbpass l) s = .next (s.park .mxRoom))
      ∧ ((t.core t.myCore).mx.queue.length < 2 → exec (.mbpass l) s = .next ((t.modMx t.myCore fun q => { q with queue := q.queue ++
        [{ slot := t.cur, op := .mbpass, latch := l.toNat, fmt := t.me.fmt, super := t.me.super, c := 0, a := none, pc := t.me.pc
           join := t.cycle + 1 }] }).modMe fun y => { y with pc := s.me.pc + 4, recs := [], park := some .deferred }))))
  ∧ ((∀ w : Word, fmtLegal w = true ↔
    (w.extractLsb' 10 22 = 0 ∧
      ((w.extractLsb' 0 8 = 0x11 ∧ w.extractLsb' 8 2 = 0)
        ∨ ((w.extractLsb' 0 4 = 2 ∨ w.extractLsb' 0 4 = 3) ∧ (w.extractLsb' 4 4 = 2 ∨ w.extractLsb' 4 4 = 3) ∧ w.extractLsb' 8 2 = 0)
        ∨ (w.extractLsb' 0 8 = 0x55 ∧ w.getLsbD 8 = true)
        ∨ ((w.extractLsb' 0 4 = 2 ∨ w.extractLsb' 0 4 = 3) ∧ w.extractLsb' 4 4 = 7 ∧ w.extractLsb' 8 2 = 0)))))

namespace Sys2Proof.Cert

/-- Element `i` of a tile of elements of `w` bytes, little-endian (R244). -/
def tileElem (w : Nat) (t : List Byte) (i : Nat) : Nat := leNat ((t.drop (w * i)).take w)

/-- Element B[k][c] as the tile holds it: of an NQ4 tile the code at 4 × (256c + k) bits (R245, R56). -/
def bElem (w : Word) (b : List Byte) (c k : Nat) : Nat :=
  if fmtB w = 7 then (b.getD ((256 * c + k) / 2) 0).toNat / 16 ^ (k % 2) % 16
  else tileElem (if fmtB w = 1 then 2 else 1) b (c * mxK w + k)

/-- The inner accumulator N of R254 after `n` products of a chunk whose exponent is `E`. -/
def innerN (x y : Nat → FVal) (k0 : Nat) (E : Int) : Nat → Int × Bool
  | 0 => (0, false)
  | n + 1 =>
    let st := innerN x y k0 E n
    let a := (x (k0 + n)).dy
    let b := (y (k0 + n)).dy
    let v := st.1 + floorDy ⟨a.m * b.m, a.e + b.e - (E - 17)⟩
    if 2 ^ 23 - 1 < v then (2 ^ 23 - 1, true) else if v < -(2 ^ 23) then (-(2 ^ 23), true) else (v, st.2)

/-- The greatest of `f k0 … f (k0 + n)`. -/
def greatest (f : Nat → Int) (k0 n : Nat) : Int := (List.range n).foldl (fun m i => max m (f (k0 + 1 + i))) (f k0)

/-- The four chunks of R253-R255 in order: each adds its term to the accumulator with one rounding, and its flags. -/
def fourChunks (acc : Nat) (term : Nat → FVal × Nat) : Nat × Nat :=
  (List.range 4).foldl (fun st j =>
    let r := f32.add (f32.val st.1) (term j).1
    (r.1, st.2 ||| (term j).2 ||| r.2)) (acc, 0)

/-- The term of chunk `j`: the exact sum of 16 products rounded once (R253); the inner sum of 32 products (R254); the inner sum of
64 products, scaled by the block's q and by S × 2^-8 (R255). A sum that is zero gives +0 in the latter two. -/
def chunkTerm (w super : Word) (q : Nat → Nat) (x y : Nat → FVal) (ex ey : Nat → Int) (j : Nat) : FVal × Nat :=
  let flag (n : Int × Bool) : Nat := if n.2 then flACC else 0
  if fmtA w = 1 then
    let s := (List.range 16).foldl (fun (t : Dy) i => t.add ((x (16 * j + i)).dy.mul (y (16 * j + i)).dy)) ⟨0, 0⟩
    let minus := (List.range 16).all fun i =>
      ((x (16 * j + i)).isZero || (y (16 * j + i)).isZero) && Bool.xor (x (16 * j + i)).sign (y (16 * j + i)).sign
    let r := f32.ofDy s minus
    (f32.val r.1, r.2)
  else if fmtB w = 7 then
    let E := greatest ex (64 * j) 63
    let n := innerN x y (64 * j) E 64
    match f32.val super.toNat with
    | .fin neg m e => (if n.1 = 0 ∨ q j = 0 then .fin false 0 0
        else .fin (Bool.xor neg (decide (n.1 < 0))) (n.1.natAbs * (q j * m)) (E - 17 + e - 8), flag n)
    | _ => (.nan, flag n)
  else
    let E := greatest ex (32 * j) 31 + greatest ey (32 * j) 31
    let n := innerN x y (32 * j) E 32
    (.fin (decide (n.1 < 0)) n.1.natAbs (E - 17), flag n)

/-- Element (r, c) of the product of a legal format: R256 for integers, and else the rows of R257 in order, then R253-R255. -/
def ElementIs (w super : Word) (a b : List Byte) (r c acc : Nat) (out : Nat × Nat) : Prop :=
  let K := mxK w
  let code (k : Nat) : Nat := bElem w b c k
  let ra (k : Nat) : Nat := tileElem (if fmtA w = 1 then 2 else 1) a (r * K + k)
  if fmtA w = 5 then
    let x : Int := ((List.range K).map fun k => sval 8 (ra k) * sval 8 (code k)).sum + sval 32 acc
    let clamped := w.getLsbD 9 = true ∧ (x < -(2 ^ 31) ∨ 2 ^ 31 - 1 < x)
    (clamped → out = (if x < 0 then 0x80000000 else 0x7FFFFFFF, flSAT)) ∧ (¬ clamped → out = ((x % 2 ^ 32).toNat, 0))
  else
    let fa := mxFmt (fmtA w)
    let fb := mxFmt (fmtB w)
    let s := f32.val super.toNat
    let nq := fmtB w = 7
    let q (j : Nat) : Nat := (b.getD (2048 + 4 * c + j) 0).toNat
    let x (k : Nat) : FVal := fa.val (ra k)
    let y (k : Nat) : FVal := if nq then bf16.val (codebook.getD (code k) 0) else fb.val (code k)
    let ySign (k : Nat) : Bool := if nq then Bool.xor (y k).sign s.sign else (y k).sign
    let yZero (k : Nat) : Prop := (y k).isZero = true ∨ (nq ∧ (q (k / 64) = 0 ∨ s.isZero = true))
    let old := f32.val acc
    let isNan : Prop := old = .nan ∨ (∃ k, k < K ∧ (x k = .nan ∨ y k = .nan)) ∨ (nq ∧ (s.isNan = true ∨ s.isInf = true))
    let bad0 : Prop := ∃ k, k < K ∧ (((x k).isInf = true ∧ yZero k) ∨ ((x k).isZero = true ∧ (y k).isInf = true))
    let inf (n : Bool) : Prop := ∃ k, k < K ∧ ((x k).isInf = true ∨ (y k).isInf = true) ∧ Bool.xor (x k).sign (ySign k) = n
    let clash : Prop := (inf true ∧ inf false) ∨ (∃ n, old = .inf n ∧ inf (!n))
    (isNan → out = (f32.nan, 0))
    ∧ (¬ isNan → bad0 ∨ clash → out = (f32.nan, flNV))
    ∧ (¬ isNan → ¬ bad0 → ¬ clash → ∀ n, inf n ∨ old = .inf n → out = (f32.infBits n, 0))
    ∧ (¬ isNan → ¬ bad0 → (∀ n, ¬ inf n ∧ old ≠ .inf n) →
        out = fourChunks acc (chunkTerm w super q x y (fun k => fp8Exp fa (ra k)) fun k => if nq then 0 else fp8Exp fb (code k)))

end Sys2Proof.Cert

/-- R250-R252, R259, R261, R264: the events of the matrix queue. The first entry that has not started starts when the engine is
free and its latch is full and loaded: with tiles of its formats it reads them, which empties an A buffer, and runs, and the
engine may start the next one 16 cycles later, or one after an MBPASS; with another format it leaves the queue and its thread
traps FORMAT_CTX at the instruction. A running entry ends 17 cycles after its start, an MBPASS at it: it writes its C tile and
raises its flags; an MMA leaves the queue and its thread goes on; another one keeps its entry for its hand-offs, which start in
a later cycle, when the receiving buffer is empty: the latch goes OUTGOING. An operation that runs already sees the
write in its A tile. A hand-off lands in an empty receive buffer; the sender's latch empties. In the next cycle a buffer fills
an empty latch. (One turn is one event, log 1; tiles are read and written each within one event, log 6; two entries that hand
one latch off, log 70.) R253-R257: every element of the product, and its flags. -/
def Obligations.MatrixEvents : Prop :=
  (∀ (s : State) (core : Nat) (e : MxEntry) (t : Tile),
    let mx := (s.core core).mx
    let starts (a : List Byte) (busy : Nat) : Host.Outcome State Fault Refusal :=
      .next ((s.modEntry core e.slot fun x =>
        { x with running := true, aTile := a, bTile := some t, start := s.cycle }).modMx core fun m =>
          let m1 := { m with free := s.cycle + busy, lastStart := some s.cycle }
          if e.op != .mbpass && e.a.isNone then m1.setBuf 2 none else m1)
    let refuses (v : Nat) : Host.Outcome State Fault Refusal :=
      .next ((s.mxFree core e).takeTrapAt e.slot 12 (BitVec.ofNat 64 v) e.pc e.pc)
    mx.latch e.latch = .full t → mx.queue.find? (fun x => !x.running) = some e → e.join ≤ s.cycle → s.mxReady mx = true →
    mx.loaded e.latch ≤ s.cycle →
    (e.op = .mbpass → exec (.matrixOpStart core) s = starts [] 1)
    ∧ (e.op ≠ .mbpass → ∀ off, e.a = some off →
      (t.fmt = fmtB e.fmt → exec (.matrixOpStart core) s = starts (s.tileRead e.slot off (aBytes e.fmt)) 16)
      ∧ (t.fmt ≠ fmtB e.fmt → exec (.matrixOpStart core) s = refuses (t.fmt * 16 + fmtB e.fmt)))
    ∧ (e.op ≠ .mbpass → e.a = none →
      (mx.bufA = none → exec (.matrixOpStart core) s = .next s)
      ∧ ∀ ta, mx.bufA = some ta →
        (t.fmt = fmtB e.fmt → ta.fmt = fmtA e.fmt → exec (.matrixOpStart core) s = starts ta.bytes 16)
        ∧ (t.fmt ≠ fmtB e.fmt → exec (.matrixOpStart core) s = refuses (t.fmt * 16 + fmtB e.fmt + 256))
        ∧ (t.fmt = fmtB e.fmt → ta.fmt ≠ fmtA e.fmt → exec (.matrixOpStart core) s = refuses (ta.fmt * 16 + fmtA e.fmt + 256))))
  ∧ (∀ (s : State) (core : Nat) (e : MxEntry) (b : Tile),
    let q := (s.core core).mx.queue
    q.filter MxEntry.written = [] → (q.map MxEntry.slot).Nodup → e.bTile = some b →
    (q.filter fun x => x.running && !x.written && decide (x.start + (if x.op = .mbpass then 0 else 17) ≤ s.cycle)) = [e] →
    let c := (chunks 4 256 (s.tileRead e.slot e.c 1024)).map leNat
    let p := mxProduct e.fmt e.super e.aTile b.bytes c
    let u := (s.tileWrite e.slot e.c (p.1.flatMap (leBytes 4))).raiseFor e.slot p.2
    let seen := u.modMx core fun m => { m with queue := m.queue.map fun x =>
      if x.slot ≠ e.slot && x.running && !x.written then
        { x with aTile := (x.a.map fun off => u.tileRead x.slot off (aBytes x.fmt)).getD x.aTile } else x }
    let kept (v : State) (legs : Nat) : Host.Outcome State Fault Refusal :=
      .next (v.modEntry core e.slot fun x => { x with written := true, wrote := s.cycle, legs := legs })
    (e.op = .mma → exec (.matrixOpComplete core) s = .next (seen.mxFree core e))
    ∧ (e.op = .mmarb → exec (.matrixOpComplete core) s = kept seen 1)
    ∧ (e.op = .mmacn → exec (.matrixOpComplete core) s = kept seen 3)
    ∧ (e.op = .mbpass → exec (.matrixOpComplete core) s = kept s 1))
  ∧ (∀ (s : State) (core : Nat) (e : MxEntry) (t : Tile),
    let mx := (s.core core).mx
    mx.queue = [e] → e.written = true → e.legs = 1 → e.op ≠ .mmacn → mx.latch e.latch = .full t → e.latch < 2 → e.wrote < s.cycle →
    (s.handFree (ringNext core) e.latch = true → exec (.matrixOpComplete core) s =
      .next (((s.postFree (.handoff core (ringNext core) e.slot e.latch (s.cycle + if t.fmt = 7 then 5 else 4) t)).modMx core fun m =>
        m.setLatch e.latch (.outgoing t)).modEntry core e.slot fun x => { x with legs := 4 }))
    ∧ (s.handFree (ringNext core) e.latch = false →
      ∃ u, exec (.matrixOpComplete core) s = .next u ∧ u.core core = s.core core ∧ u.acts = s.acts ∧ u.memory = s.memory))
  ∧ (∀ (s : State) (act src dst slot buf due : Nat) (tile : Tile) (e : MxEntry),
    s.ready? act = some (.handoff src dst slot buf due tile) → src ≠ dst → buf < 2 → due ≤ s.cycle → slot < 131072 →
    s.coreWiping dst = false → (s.core dst).mx.buf buf = none →
    (s.core src).mx.queue.find? (fun x => x.slot == slot && x.written) = some e → e.latch < 2 →
    ∃ u, exec (.handoffLand act) s = .next u ∧ u.acts = s.acts.del act
      ∧ (u.core dst).mx.buf buf = some tile ∧ (u.core dst).mx.latch0 = (s.core dst).mx.latch0
      ∧ (u.core dst).mx.latch1 = (s.core dst).mx.latch1
      ∧ (∀ y, (s.core src).mx.latch e.latch = .outgoing y → (u.core src).mx.latch e.latch = .empty)
      ∧ (e.legs = 4 → ∀ x ∈ (u.core src).mx.queue, x.slot ≠ e.slot))
  ∧ (∀ (m : Matrix) (n : Nat), n < 2 → ∀ t, m.buf n = some t →
    (m.latch n = .empty → m.settle.latch n = .full t ∧ m.settle.buf n = none)
    ∧ (m.latch n ≠ .empty → m.settle.latch n = m.latch n ∧ m.settle.buf n = some t))
  ∧ (∀ (w super : Word) (a b : List Byte) (c : List Nat), fmtLegal w = true → a.length = aBytes w → b.length = bBytes w →
    c.length = 256 →
    ∃ f : Nat → Nat × Nat, (mxProduct w super a b c).1 = (List.range 256).map (fun i => (f i).1)
      ∧ (mxProduct w super a b c).2 = orFlags ((List.range 256).map fun i => (f i).2)
      ∧ ∀ r col, r < 16 → col < 16 → ElementIs w super a b r col (c.getD (16 * r + col) 0) (f (16 * r + col)))

namespace Sys2Proof.Cert

/-- A supervisor thread issues, with its operands ready. -/
def ReadySup (s : State) (ops : List Opnd) : Prop := Ready s ops ∧ s.me.userMode = false

/-- The supervisor-only instructions (R38). -/
def supervisorOnly : Instr → Bool
  | .halldefDefine _ _ _ | .halldefRetire _ _ _ | .hallq _ _ _ | .split _ _ | .splst _ _ | .cgset _ _ => true
  | .remapcPool _ _ | .remapcDefine _ _ | .remapcReset _ _ | .tret | .halt => true
  | .segld sg _ => sg == 1
  | .sysrd _ n | .syswr _ n | .sysset _ n | .sysclr _ n => sysPriv n.toNat
  | _ => false

end Sys2Proof.Cert

/-! ### Privilege, system registers, traps (06 R129-R130, R154-R167, 21 R385-R388) -/

/-- R38, R154: in user mode a supervisor-only instruction traps PRIV, with its word in TVAL, before its operands are
looked at. R160: ECALL and BREAK complete and trap with causes 8 and 9, TPC naming the next instruction; TRET returns;
HALT holds the thread for the debugger where debug is allowed, and acts as EXIT with cause 9 where the life-cycle state
disables it. -/
def Obligations.PrivilegeAndCalls : Prop :=
  (∀ (i : Instr) (s : State), (s.thr? s.cur).isSome = true → s.me.userMode = true → supervisorOnly i = true →
    exec i s = traps s 2 (wordOf i))
  ∧ (∀ s : State, (s.thr? s.cur).isSome = true →
    exec .ecall s = .next (s.takeTrap s.cur 8 0 (s.me.pc + 4))
    ∧ exec .brk s = .next (s.takeTrap s.cur 9 0 (s.me.pc + 4))
    ∧ (s.me.userMode = false → exec .tret s = .next (s.trapReturn s.cur))
    ∧ (s.me.userMode = false → s.debugOk = true → exec .halt s = .next (s.modMe fun x => { x with halted := true }))
    ∧ (s.me.userMode = false → s.debugOk = false → exec .halt s = .next ((s.modMe fun x =>
        { x with sys := { x.sys.trapped 9 0 x.pc with tstatus := x.sys.tstatus ||| 4 }, exiting := true }).exitStep s.cur)))

/-- R154-R158: reads and writes of system registers, by a thread that may name them. A read of CYCLE's low word
latches the high word. R157, R52, R130: what a write of a system register does: TSCRATCH takes the value, the set or
the cleared bits; ASTAT's bits are cleared by ones; a core register's write joins the core's writes, to commit five
cycles later; an unknown number has no effect. -/
def Obligations.SystemRegisters : Prop :=
  (∀ (s : State) (d : BitVec 5) (n : BitVec 12), (sysPriv n.toNat = false ∨ s.me.userMode = false) →
    (Ready s [.d d.toNat] →
      let t := s.consumeAll [.d d.toNat]
      (n ≠ 0x018 → exec (.sysrd d n) s = done s (t.wS d.toNat (t.readSys t.cur n.toNat)))
      ∧ exec (.cycleLowRead d) s = done s ((t.modMe fun x =>
          { x with sys := { x.sys with cycLatch := BitVec.ofNat 32 (t.cycle / 2 ^ 32) } }).wS d.toNat (BitVec.ofNat 32 t.cycle))
      ∧ exec (.sysrd d 0x018) s = exec (.cycleLowRead d) s
      ∧ s.readSys s.cur 0 = BitVec.ofNat 32 s.cur ∧ s.readSys s.cur 0x019 = s.me.sys.cycLatch)
    ∧ (Ready s [.s d.toNat] →
      let t := s.consumeAll [.s d.toNat]
      exec (.syswr d n) s = done s (t.writeSys n.toNat 0 (t.rS d.toNat))
      ∧ exec (.sysset d n) s = done s (t.writeSys n.toNat 1 (t.rS d.toNat))
      ∧ exec (.sysclr d n) s = done s (t.writeSys n.toNat 2 (t.rS d.toNat))))
  ∧ (∀ (s : State) (v : Word), (s.thr? s.cur).isSome = true →
    ((s.writeSys 0x105 0 v).me.sys.tscratch = v)
    ∧ ((s.writeSys 0x105 1 v).me.sys.tscratch = s.me.sys.tscratch ||| v)
    ∧ ((s.writeSys 0x105 2 v).me.sys.tscratch = s.me.sys.tscratch &&& ~~~v)
    ∧ ((s.writeSys 0x008 0 v).me.sys.astat = s.me.sys.astat &&& ~~~v)
    ∧ OnlyMe s (s.writeSys 0x105 0 v) ∧ OnlyMe s (s.writeSys 0x008 0 v)
    ∧ (((s.writeSys 0x202 0 v).core s.myCore).commits = (s.core s.myCore).commits ++ [⟨s.myCore, 0x202, 0, v, s.cycle + 5⟩])
    ∧ s.writeSys 0x00F 0 v = s)

/-- R387: trap entry through a usable vector entry 0x3F: TPC, TCAUSE, TVAL and TVALH receive the pc, the cause and the
value; PMODE the mode; MODE is set; the code segment is saved and becomes the handler's; the pc comes from TVEC.
Nothing of the thread's registers changes. R388: a trap of a trap-active thread, or without a usable vector entry,
ends the thread as EXIT with its error: the saved registers receive the trap, bit 2 of TSTATUS is set, and its slot
only has the steps of EXIT left. -/
def Obligations.TrapEntry : Prop :=
  (∀ (s u : State) (id cause cls prio : Nat) (val : Addr) (pc entry : Word) (seg : Seg), (s.thr? id).isSome = true →
    (s.thr id).trapActive = false → s.vecEntry (coreOf id) 0x3F = .usable u cls prio entry seg → cause < 32 →
    let x := s.thr id
    let y := (s.takeTrap id cause val pc).thr id
    y.sys.tpc = pc ∧ y.sys.tcause = BitVec.ofNat 32 cause ∧ y.sys.tval = val.setWidth 32
    ∧ y.sys.tvalh = (val >>> 32).setWidth 32
    ∧ y.sys.tstatus.getLsbD 0 = true ∧ y.sys.tstatus.getLsbD 1 = x.sys.tstatus.getLsbD 0
    ∧ y.pc = x.sys.tvec ∧ y.segs.lookD 1 {} = seg ∧ y.savedSeg = x.segs.lookD 1 {} ∧ y.trapActive = true
    ∧ y.park = none ∧ y.regs = x.regs ∧ y.tags = x.tags ∧ y.sys.astat = x.sys.astat ∧ y.sys.tvec = x.sys.tvec
    ∧ ∀ j, j ≠ id → (s.takeTrap id cause val pc).thr? j = s.thr? j)
  ∧ (∀ (s u : State) (id cause : Nat) (val : Addr) (pc : Word), (s.thr? id).isSome = true →
    ((s.thr id).trapActive = true ∧ u = s ∨ (s.thr id).trapActive = false ∧ s.vecEntry (coreOf id) 0x3F = .unusable u) →
    let x := s.thr id
    let y := (s.takeTrap id cause val pc).thr id
    y.exiting = true ∧ y.sys.tstatus.getLsbD 2 = true ∧ y.sys.tpc = pc ∧ y.sys.tcause = BitVec.ofNat 32 cause
    ∧ y.regs = x.regs ∧ y.pc = x.pc ∧ (s.takeTrap id cause val pc).memory = u.memory
    ∧ ∀ j, j ≠ id → (s.takeTrap id cause val pc).thr? j = s.thr? j)

/-- R160, R388: TRET after a trap gives back the pc, the mode and the code segment that the trap saved, and leaves every
register of the thread. -/
def Obligations.TrapThenReturn : Prop :=
  ∀ (s u : State) (id cause cls prio : Nat) (val : Addr) (pc entry : Word) (seg : Seg), (s.thr? id).isSome = true →
    (s.thr id).trapActive = false → s.vecEntry (coreOf id) 0x3F = .usable u cls prio entry seg →
    let x := s.thr id
    let y := ((s.takeTrap id cause val pc).trapReturn id).thr id
    y.pc = pc ∧ y.userMode = x.userMode ∧ y.segs.lookD 1 {} = x.segs.lookD 1 {} ∧ y.trapActive = false ∧ y.regs = x.regs
    ∧ ∀ n, n ≠ 1 → y.segs.lookD n {} = x.segs.lookD n {}

/-- R161-R162, R166-R167: SEGLD with a valid descriptor loads its segment register and no other; with one that is not
valid, or a supervisor's in user mode, it traps SEG_RIGHTS with the descriptor's index; past the table's last it traps
SEG_LIMIT. SEGRD reads the words of a segment register. -/
def Obligations.SegmentRegisters : Prop :=
  ∀ (s : State) (sg w : BitVec 3) (d a : BitVec 5) (bs : List Byte),
    (Ready s [.s a.toNat] → (sg ≠ 1 ∨ s.me.userMode = false) →
      let t := s.consumeAll [.s a.toNat]
      let i := (t.rS a.toNat).toNat
      let va : Addr := BitVec.ofNat 64 (t.me.sdtBase + 16 * i)
      let usable : Prop := descValid (leNat bs) = true ∧ (descSup (leNat bs) = false ∨ s.me.userMode = false)
      (t.me.sdtLast < i → exec (.segld sg a) s = traps s 3 (BitVec.ofNat 64 i))
      ∧ (i ≤ t.me.sdtLast → spaceZeros va.toNat = true → t.recordFrom {} va 16 = .ok bs →
          (usable → exec (.segld sg a) s =
            done s (t.modMe fun x => { x with segs := x.segs.put sg.toNat (descSeg (leNat bs)) }))
          ∧ (¬ usable → exec (.segld sg a) s = traps s 4 (BitVec.ofNat 64 i))))
    ∧ (Ready s [.d d.toNat] →
      let t := s.consumeAll [.d d.toNat]
      let g := t.me.segs.lookD sg.toNat {}
      exec (.segrd d sg w) s = done s (t.wS d.toNat
        (if w = 0 then g.base.setWidth 32 else if w = 1 then (g.base >>> 32).setWidth 32 else if w = 2 then g.limit
         else BitVec.ofNat 32 (g.rights.toNat + g.scope.no * 65536))))

/-! ### Messages, presence, tasks (07 R146-R153) -/

/-- R146-R147: MSG and RPUT to a core of the partition leave one request that counts in UNACK and change no memory;
one to another partition has no effect. A type that the sender may not use traps PRIV. R148-R149: EMPTY and EMPTYV clear
a presence bit and keep the value; TESTP reads one; WFM gives the presence bits when an exposed register has been
filled or none is empty, and else waits for a fill. s0 has no presence bit to clear. Log 19: bits [18:12] and [1:0] of a
selector are not looked at here (the model's reading). -/
def Obligations.MessagesAndPresence : Prop :=
  (∀ (s : State) (vd : BitVec 4) (d a b : BitVec 5),
    (Ready s [.s d.toNat, .s a.toNat, .s b.toNat] →
      let t := s.consumeAll [.s d.toNat, .s a.toNat, .s b.toNat]
      let w := t.rS d.toNat
      let type := w.toNat % 256
      let core := w.toNat / 256 % 8192
      let allowed : Prop := type ≠ 62 ∧ type ≠ 63 ∧ (s.me.userMode = true → 64 ≤ type)
      (¬ allowed → exec (.msg d a b) s = traps s 2 (w.setWidth 64))
      ∧ (allowed → t.inMyPart core = false → exec (.msg d a b) s = done s t)
      ∧ (allowed → t.inMyPart core = true → t.unackWait = none → exec (.msg d a b) s =
          done s ((t.addUnack t.cur).send .request t.myCore core
            (.msg (some t.cur) core ⟨type, t.rS a.toNat, t.rS b.toNat, msgOrigin t.cur type⟩))))
    ∧ (let target (t : State) : Nat := ((t.rS a.toNat).extractLsb' 19 13).toNat
      let filled (t : State) (vec : Bool) (v : VWord) : Host.Outcome State Fault Refusal :=
        let sel := t.rS a.toNat
        done s ((t.addUnack t.cur).send .request t.myCore (target t) (.fill (some t.cur) (target t) (sel.extractLsb' 8 4).toNat vec
          (sel.extractLsb' 2 5).toNat v (decide (sel.extractLsb' 0 2 = 0))))
      (Ready s [.s a.toNat, .s b.toNat] →
        let t := s.consumeAll [.s a.toNat, .s b.toNat]
        (t.inMyPart (target t) = false → exec (.rput a b) s = done s t)
        ∧ (t.inMyPart (target t) = true → t.unackWait = none →
            exec (.rput a b) s = filled t false ((t.rS b.toNat).setWidth 512)))
      ∧ (Ready s [.s a.toNat, .v vd.toNat] →
        let t := s.consumeAll [.s a.toNat, .v vd.toNat]
        (t.inMyPart (target t) = false → exec (.rputv vd a) s = done s t)
        ∧ (t.inMyPart (target t) = true → t.unackWait = none → exec (.rputv vd a) s = filled t true (t.rV vd.toNat)))))
  ∧ (∀ (s : State) (d x : BitVec 5) (vd : BitVec 4), (s.thr? s.cur).isSome = true →
    exec (.empty d) s = done s (s.emptyS d.toNat)
    ∧ s.emptyS 0 = s
    ∧ (d ≠ 0 → (slotOf s.cur ≠ 0 ∨ d.toNat < 28) →
        OnlyMe s (s.emptyS d.toNat) ∧ (s.emptyS d.toNat).rS d.toNat = s.rS d.toNat
        ∧ (s.emptyS d.toNat).sFullOf s.cur d.toNat = false
        ∧ ∀ n, n < 32 → n ≠ d.toNat → (s.emptyS d.toNat).sFullOf s.cur n = s.sFullOf s.cur n ∧ (s.emptyS d.toNat).rS n = s.rS n)
    ∧ (∃ u, exec (.emptyv vd) s = done s u ∧ OnlyMe s u ∧ u.rV vd.toNat = s.rV vd.toNat ∧ u.vFullOf s.cur vd.toNat = false)
    ∧ (Ready s [.d d.toNat] →
      exec (.testp d x) s = done s (s.wS d.toNat (if s.sFullOf s.cur x.toNat then 1 else 0))
      ∧ exec (.testpVector d vd) s = done s (s.wS d.toNat (if s.vFullOf s.cur vd.toNat then 1 else 0))
      ∧ (s.me.ans = none → s.exposedEmpty = 0 → exec (.wfm d) s = done s (s.wS d.toNat s.exposed))
      ∧ (s.me.ans = none → s.exposedEmpty ≠ 0 → exec (.wfm d) s = stays s s (.fillOf s.exposedEmpty))
      ∧ (∀ ws, s.me.ans = some ws → exec (.wfm d) s = done s ((s.modMe fun x => { x with ans := none }).wS d.toNat s.exposed))))

/-- R150-R151: SPAWN admits the task of its record; DEC sends one decrement, and one of another partition, or of zero, has no
effect but the release; DEC of an event word in the own TCM decrements it there, and of another core's one request does. A
selector that is not a multiple of 4 traps MISALIGN, and one with a bit of [18:12] set SEG_LIMIT. -/
def Obligations.TaskInstructions : Prop :=
  ∀ (s u : State) (seg : BitVec 3) (a b : BitVec 5) (bs : List Byte),
    (Ready s [.s a.toNat] →
      let t := s.consumeAll [.s a.toNat]
      let off := (t.rS a.toNat).toNat
      t.checkOffset 0 off 256 1 64 [0, 1] = none → t.relWait = none → t.pkg.tasks.length < 4096 → t.pkg.thr ≠ 3 →
      t.sendAll.recordAt off 256 = .ok bs → t.sendAll.admitRecord t.myPart 0 false bs = .ok u → exec (.spawn a) s = done s u)
    ∧ (Ready s [.s a.toNat, .s b.toNat] →
      let t := s.consumeAll [.s a.toNat, .s b.toNat]
      (let sel := t.rS a.toNat
       let n := (t.rS b.toNat).toNat % 65536
       let core := sel.toNat / 524288
       (sel.toNat % 4 ≠ 0 → exec (.dec a b) s = traps s 5 (sel.setWidth 64))
       ∧ (sel.toNat % 4 = 0 → sel.toNat / 4096 % 128 ≠ 0 → exec (.dec a b) s = traps s 3 (sel.setWidth 64))
       ∧ (sel.toNat % 4 = 0 → sel.toNat / 4096 % 128 = 0 → t.relWait = none →
         ((n = 0 ∨ t.inMyPart core = false) → exec (.dec a b) s = done s t.sendAll)
         ∧ (n ≠ 0 → t.inMyPart core = true → exec (.dec a b) s = done s ((t.sendAll.addUnack t.cur).send .request t.myCore core
              (.dec (some t.cur) core (sel.toNat % 4096) n false)))))
      ∧ (∀ o, s.cur < 131072 → OwnTcm t seg.toNat (t.rS a.toNat).toNat 4 11 4 [0, 1] o → t.relWait = none →
        exec (.decEvent seg a b) s =
          done s ((t.markWritten t.cur o).sendAll.decEventAt t.myPart (.sram t.myCore o) ((t.rS b.toNat).toNat % 2 ^ 31)))
      ∧ (∀ c o, t.checkAccess seg.toNat (t.rS a.toNat).toNat 4 11 4 [0, 1] = none → t.relWait = none →
        t.target (t.segAddr seg.toNat (t.rS a.toNat).toNat) = .core c o → exec (.decEvent seg a b) s =
          done s ((t.sendAll.addUnack t.cur).send .request t.myCore c
            (.decEvent (some t.cur) (t.segAddr seg.toNat (t.rS a.toNat).toNat) (.sram c o) ((t.rS b.toNat).toNat % 2 ^ 31)))))

/-! ### Formes and threads (05 R97-R124, 07 R152) -/

/-- R102, R110-R113, R115-R116: FREEZE completes the composed forme with every register that the thread sees and its
presence, its segment registers, format and template copy, and frees the slot; TSTW and TSTV store into the
template copy; NEST queues the sub-items; NJOIN waits for the nested formes; FINFO reads; YIELD without waiting work goes
on. -/
def Obligations.FormeInstructions : Prop :=
  ∀ (s u : State) (d a b : BitVec 5) (vd : BitVec 4) (sel : BitVec 3) (f : Forme) (k : Task) (n sz item sub depth fk : Nat),
    (Ready s [] → s.me.kind = .composing n → s.quiet s.cur s.me = true →
      (s.core s.myCore).formes.look (formeKey n) = some f → s.task? n = some k →
      ∃ w, exec .freeze s = .next w
        ∧ (∀ k', w.task? n = some k' → k'.compose = .ready ∧ k'.composed = true ∧
            k'.image = s.readTemplate s.myCore f k.hdr.tplSz ∧
            ∃ f', k'.forme = some f' ∧ f'.complete = true ∧ f'.map = f.map ∧ f'.segs = s.me.segs ∧ f'.fmt = s.me.fmt
              ∧ f'.super = s.me.super
              ∧ (∀ i, 0 < i → i < 32 → f'.regs.s.lookD i 0 = s.rS i ∧ f'.regs.sFull.getLsbD i = s.sFullOf s.cur i)
              ∧ (∀ i, i < 16 → f'.regs.v.lookD i 0 = s.rV i ∧ f'.regs.vFull.getLsbD i = s.vFullOf s.cur i)
              ∧ (∀ i, 0 < i → i < 8 → f'.regs.k.lookD i 0 = s.rK i))
        ∧ ((s.threads.map Prod.fst).Pairwise (· < ·) → w.thr? s.cur = none))
    ∧ (let stores (t : State) (n : Nat) : Prop :=
        t.formeHere = some (f, sz) ∧ t.relWait = none ∧ (t.rS a.toNat).toNat < sz ∧ (t.rS a.toNat).toNat % n = 0
      let stored (t : State) (bs : List Byte) : Host.Outcome State Fault Refusal :=
        let o := f.place (t.rS a.toNat).toNat
        done s ((List.range (bs.length / 4)).foldl
          (fun v j => (v.setWordFull t.myCore (o + 4 * j) true).serve t.myCore (o + 4 * j))
          (t.sendAll.writeLoc t.myPart 0 (.sram t.myCore o) bs))
      (Ready s [.s d.toNat, .s a.toNat] →
        let t := s.consumeAll [.s d.toNat, .s a.toNat]
        stores t 4 → exec (.tstw d a) s = stored t (leBytes 4 (t.rS d.toNat).toNat))
      ∧ (Ready s [.v vd.toNat, .s a.toNat] →
        let t := s.consumeAll [.v vd.toNat, .s a.toNat]
        stores t 64 → exec (.tstv vd a) s = stored t (leBytes 64 (t.rV vd.toNat).toNat)))
    ∧ (Ready s [.s a.toNat, .s b.toNat] →
      let t := s.consumeAll [.s a.toNat, .s b.toNat]
      t.me.kind = .impression n fk item sub depth →
      (depth = 3 → exec (.nest a b) s = traps s 15 (wordOf (.nest a b)))
      ∧ (depth ≠ 3 → (t.rS b.toNat).toNat % 4 = 0 →
        (t.rS a.toNat = 0 → exec (.nest a b) s = done s t)
        ∧ (t.rS a.toNat ≠ 0 → t.relWait = none → t.sendAll.nestForme n item depth (t.rS a.toNat).toNat (t.rS b.toNat) = some u →
            exec (.nest a b) s = done s (u.delay 32))))
    ∧ (Ready s [] → (s.me.nested = [] → exec .njoin s = done s s)
      ∧ (s.me.nested ≠ [] → exec .njoin s = .next (s.park .join))
      ∧ (s.yields = false → exec .yield s = done s s)
      ∧ (s.yields = true → exec .yield s = .next ((s.setPc (s.me.pc + 4)).preemptOne s.myCore s.cur)))
    ∧ (Ready s [.d d.toNat] → exec (.finfo d sel) s = done s (s.wS d.toNat (s.formeInfo sel.toNat))
      ∧ (s.me.kind = .impression n fk item sub depth → s.formeInfo 0 = BitVec.ofNat 32 item
          ∧ s.formeInfo 1 = BitVec.ofNat 32 sub ∧ s.formeInfo 2 = BitVec.ofNat 32 depth))

/-- R152: EXIT of a thread with nothing outstanding sends what its core still combines and retires it; a handler's slot is
then free of it. -/
def Obligations.ExitRetires : Prop :=
  ∀ s : State, Ready s [] → s.me.nested = [] →
    let x := s.modMe fun x => { x with exiting := true }
    let u := (x.withdrawTriggers s.cur).flushWcb s.myCore fun e => e.slot == s.cur
    let v := u.flushWcb s.myCore fun _ => true
    x.outstanding s.cur (fun r => r.mode == .wait) = [] → u.quiet s.cur (u.thr s.cur) = true →
    exec .exit s = .next (v.retire s.cur) ∧ ((v.thr s.cur).kind = .handler → v.retire s.cur = v.freeSlot s.cur)
    ∧ ((v.threads.map Prod.fst).Nodup → (v.freeSlot s.cur).thr? s.cur = none)

/-! ### The Gallery (14 R265-R312) -/

/-- R293-R298: PUT and PUTG of a legal key to a hall of the partition send one request to the key's home, counted in UNACK
and on the tag, and empty the result register when it is one of v8-v15; a hall that is not the partition's answers NOHALL
at once; an illegal key traps. -/
def Obligations.PutInstructions : Prop :=
  ∀ (s : State) (vd : BitVec 4) (a b : BitVec 5) (h : Hall), Ready s [.v vd.toNat, .s a.toNat, .s b.toNat] →
    let t := s.consumeAll [.v vd.toNat, .s a.toNat, .s b.toNat]
    let key := t.rV vd.toNat
    let cw := t.rS b.toNat
    let tag := tagOfCw cw
    let len := vlane key 4
    let off := (t.rS a.toNat).toNat
    let addr := t.segAddr (segOfCw cw) off
    let v := t.sendAll
    let u := (v.addUnack t.cur).tagIssue t.cur tag
    let req (putg : Bool) : GReq :=
      { op := if putg then .putg else .put, slot := some t.cur, fabric := Config.fabricId, no := v.nextAct, part := t.myPart
        hall := hallOf cw, tmpl := key, vd := vd.toNat, tag := tag, addr := addr.toNat }
    let sent (putg : Bool) : Host.Outcome State Fault Refusal :=
      done s ((if 8 ≤ vd.toNat then u.emptyV vd.toNat else u).sendGal (req putg) (h.homePackage key) (t.homeSlice (hallOf cw) h key))
    (keyBad key = true → exec (.put vd a b) s = traps s 11 (wordOf (.put vd a b))
      ∧ exec (.putg vd a b) s = traps s 11 (wordOf (.putg vd a b)))
    ∧ (keyBad key = false → (t.me.tagOf tag).inflight < 255 → t.hallFor t.myPart (hallOf cw) = none →
      exec (.put vd a b) s = done s (t.noHall vd.toNat tag) ∧ exec (.putg vd a b) s = done s (t.noHall vd.toNat tag))
    ∧ (keyBad key = false → (t.me.tagOf tag).inflight < 255 → t.hallFor t.myPart (hallOf cw) = some h → t.relWait = none →
      ((len = 0 ∨ (t.checkAccess (segOfCw cw) off len 1 1 [1] = none ∧ addrCore addr = t.myCore ∧ addr.toNat % 64 = 0)) →
        exec (.put vd a b) s = sent false)
      ∧ ((len = 0 ∨ (t.checkAccess (segOfCw cw) off len 1 1 [0] = none ∧ addr.toNat % 256 = 0
          ∧ t.putgPages addr (fieldOf addr 0 48) (regionPages (fieldOf addr 0 48) len) = none)) →
        exec (.putg vd a b) s = sent true))

/-- R294, R299-R300: READ and TAKE of a legal template send one request to the template's home, counted on the tag, and
empty the result register, where the destination lies in no remap window. In the continuation mode the place, the
mailbox and the counter come from a record. A hall that is not the partition's answers NOHALL at once; an illegal template,
or one that leaves a home field open, traps. -/
def Obligations.GetInstructions : Prop :=
  ∀ (s : State) (mode : BitVec 3) (vd : BitVec 4) (a b : BitVec 5) (h : Hall) (bs : List Byte),
    Ready s [.v vd.toNat, .s a.toNat, .s b.toNat] →
    let t := s.consumeAll [.v vd.toNat, .s a.toNat, .s b.toNat]
    let tpl := t.rV vd.toNat
    let cw := t.rS b.toNat
    let tag := tagOfCw cw
    let off := (t.rS a.toNat).toNat
    let addr := t.segAddr (segOfCw cw) off
    let req (take : Bool) (dest mbox : Nat) (ctr : Word) : GReq :=
      { op := if take then .take else .read, slot := some t.cur, fabric := Config.fabricId, no := t.nextAct, part := t.myPart
        hall := hallOf cw, tmpl := tpl, vd := vd.toNat, tag := tag, mode := gmodeOf mode, addr := dest, mbox := mbox, ctr := ctr }
    let sent (take : Bool) (dest mbox : Nat) (ctr : Word) : Host.Outcome State Fault Refusal :=
      done s (((t.tagIssue t.cur tag).emptyV vd.toNat).sendGal (req take dest mbox ctr) (h.homePackage tpl) (t.homeSlice (hallOf cw) h tpl))
    let illegal : Prop := exec (.read mode vd a b) s = traps s 11 (wordOf (.read mode vd a b))
      ∧ exec (.take mode vd a b) s = traps s 11 (wordOf (.take mode vd a b))
    (tplBad tpl = true → illegal)
    ∧ (tplBad tpl = false → t.hallFor t.myPart (hallOf cw) = none → (t.me.tagOf tag).inflight < 255 →
      exec (.read mode vd a b) s = done s (t.noHall vd.toNat tag) ∧ exec (.take mode vd a b) s = done s (t.noHall vd.toNat tag))
    ∧ (tplBad tpl = false → t.hallFor t.myPart (hallOf cw) = some h → homeExact h.homef tpl = false → illegal)
    ∧ (tplBad tpl = false → t.hallFor t.myPart (hallOf cw) = some h → homeExact h.homef tpl = true →
      (t.me.tagOf tag).inflight < 255 →
      (mode.toNat < 2 → t.checkAccess (segOfCw cw) off (vlane tpl 4) 2 64 [0, 1] = none →
        t.windowHit t.myPart (BitVec.ofNat 64 addr.toNat) (vlane tpl 4) = none →
        exec (.read mode vd a b) s = sent false addr.toNat 0 0
        ∧ exec (.take mode vd a b) s = sent true addr.toNat 0 0)
      ∧ (mode = 2 → t.readRecord off 32 = .ok bs → t.contCheck (segOfCw cw) bs (vlane tpl 4) (t.segAddr 0 off) = none →
        t.windowHit t.myPart (BitVec.ofNat 64 (dwordAt bs 0)) (vlane tpl 4) = none →
        exec (.read mode vd a b) s = sent false (dwordAt bs 0) (dwordAt bs 8) (BitVec.ofNat 32 (wordAt bs 16))
        ∧ exec (.take mode vd a b) s = sent true (dwordAt bs 0) (dwordAt bs 8) (BitVec.ofNat 32 (wordAt bs 16))))

/-- R302-R306: TCANCEL gives 0 where nothing waits, and else sends its cancels and gives the number withdrawn once they are
answered; HALLDEF, HALLQ, SPLIT and SPLST give their code or value in d. R266, R303: HALLDEF's retirement refuses a
reserved hall (2), one that is not defined (5), another partition's (4) and a busy one (3); else the definition and its
heap parts go. -/
def Obligations.HallInstructions : Prop :=
  (∀ (s u : State) (d a b : BitVec 5) (c : Nat) (bs : List Byte),
    (Ready s [.s b.toNat, .d d.toNat] →
      let t := s.consumeAll [.s b.toNat, .d d.toNat]
      let cw := t.rS b.toNat
      let w := t.outstanding t.cur fun r => r.hall == hallOf cw && r.tag == tagOfCw cw
      (t.me.ans = none → w = [] → exec (.tcancel d b) s = done s (t.wS d.toNat 0))
      ∧ (t.me.ans = none → w ≠ [] → exec (.tcancel d b) s = stays s (t.sendCancels false w) .answer)
      ∧ (∀ n, t.me.ans = some [n] → exec (.tcancel d b) s =
        done s ((t.modMe fun x => { x with ans := none, withdrawn := 0 }).wS d.toNat n)))
    ∧ (ReadySup s [.s a.toNat, .s b.toNat, .d d.toNat] →
      let t := s.consumeAll [.s a.toNat, .s b.toNat, .d d.toNat]
      let v := t.sendAll
      (t.relWait = none → t.rS b.toNat = 0 → v.hallDefine (t.rS a.toNat).toNat = .ok (u, c) →
        exec (.halldefDefine d a b) s = done s (u.wS d.toNat (BitVec.ofNat 32 c))
        ∧ exec (.halldefRetire d a b) s = done s (u.wS d.toNat (BitVec.ofNat 32 c)))
      ∧ (t.relWait = none → t.rS b.toNat = 1 →
        let r := v.hallRetire ((t.rS a.toNat).toNat % 65536)
        exec (.halldefRetire d a b) s = done s (r.1.wS d.toNat (BitVec.ofNat 32 r.2))
        ∧ exec (.halldefDefine d a b) s = done s (r.1.wS d.toNat (BitVec.ofNat 32 r.2)))
      ∧ (t.relWait = none → t.rS b.toNat ≠ 0 → t.rS b.toNat ≠ 1 →
        exec (.halldefDefine d a b) s = done s (v.wS d.toNat 1) ∧ exec (.halldefRetire d a b) s = done s (v.wS d.toNat 1))
      ∧ exec (.hallq d a b) s = done s (t.wS d.toNat
          (BitVec.ofNat 32 (t.hallQuery ((t.rS a.toNat).toNat % 65536) ((t.rS a.toNat).toNat / 65536) (t.rS b.toNat).toNat))))
    ∧ (ReadySup s [.s a.toNat, .d d.toNat] →
      let t := s.consumeAll [.s a.toNat, .d d.toNat]
      (t.readRecord (t.rS a.toNat).toNat 16 = .ok bs →
        exec (.split d a) s = done s ((t.splitStart bs).1.wS d.toNat (BitVec.ofNat 32 (t.splitStart bs).2)))
      ∧ (∀ h, t.hallFor t.myPart ((t.rS a.toNat).toNat % 65536) = some h →
        (h.split = none → exec (.splst d a) s = done s (t.wS d.toNat 0))
        ∧ ∀ sp, h.split = some sp → exec (.splst d a) s = done s (t.wS d.toNat
            (BitVec.ofNat 32 (sp.phase.code + (if sp.isSrc then 8 else 0) + (if sp.isDst then 16 else 0)))))))
  ∧ (∀ (s : State) (n : Nat) (h : Hall), n < 65536 →
    (65504 ≤ n → s.hallRetire n = (s, 2))
    ∧ (n < 65504 → s.hall? n = none → s.hallRetire n = (s, 5))
    ∧ (n < 65504 → s.hall? n = some h → h.part ≠ s.myPart → s.hallRetire n = (s, 4))
    ∧ (n < 65504 → s.hall? n = some h → h.part = s.myPart → s.hallBusy n none = true → s.hallRetire n = (s, 3))
    ∧ (n < 65504 → s.hall? n = some h → h.part = s.myPart → s.hallBusy n none = false → (s.pkg.halls.map Prod.fst).Nodup →
        (s.hallRetire n).2 = 0 ∧ (s.hallRetire n).1.hall? n = none ∧ (s.hallRetire n).1.memory = s.memory))

/-- R269: a tuple matches a template exactly when every masked bit of its fields agrees, its payload fits, and its format
agrees where the template asks. -/
def Obligations.TemplateMatch : Prop :=
  ∀ (t : Tuple) (p : VWord), t.f.length = 4 →
    (t.matchesT p = true ↔
      (∀ n, n < 4 → (t.f.getD n 0 ^^^ BitVec.ofNat 32 (vlane p n)) &&& BitVec.ofNat 32 (vlane p (8 + n)) = 0)
      ∧ t.len ≤ vlane p 4 ∧ (vlane p 5 / 16 % 2 = 1 → t.fmt = vlane p 5 % 16))

/-! ### Sketches (16 R313-R325) -/

/-- R318-R323: the sketch instructions on an attached slot; on a detached one they trap SEG_RIGHTS. SKUPD counts in UNACK
and on its tag and goes on; SKQRY, SKADD and SKCLR wait for the slice engines. SKADD answers 2 without a source, 1 for
sketches of two shapes and 3 for ones that overlap. R317, R315: the bucket of an index in a row, whose counter lies in the
row, and its sign: the top bits of the product of the salted index and the row's multiplier, and the bit below them. -/
def Obligations.SketchInstructions : Prop :=
  (∀ (s : State) (n : BitVec 3) (d a : BitVec 5) (vd va vb : BitVec 4) (k q : Sketch) (bs : List Byte),
    (Ready s [.s a.toNat] →
      let t := s.consumeAll [.s a.toNat]
      t.readRecord (t.rS a.toNat).toNat 32 = .ok bs →
      (sketchDesc bs = some (some k) → exec (.skset n a) s = done s (t.modMe fun x => { x with sketches := x.sketches.put n.toNat k }))
      ∧ (sketchDesc bs = some none → exec (.skset n a) s = done s (t.modMe fun x => { x with sketches := x.sketches.del n.toNat }))
      ∧ (sketchDesc bs = none → exec (.skset n a) s = traps s 4 (t.segAddr 0 (t.rS a.toNat).toNat)))
    ∧ (let trap := traps s 4 (BitVec.ofNat 64 n.toNat)
      let attached (t : State) (i : Instr) (p : Prop) : Prop :=
        (t.me.sketches.look n.toNat = none → exec i s = trap) ∧ (t.me.sketches.look n.toNat = some k → p)
      (Ready s [.s d.toNat, .v va.toNat, .v vb.toNat] →
        let t := s.consumeAll [.s d.toNat, .v va.toNat, .v vb.toNat]
        let tag := (t.rS d.toNat).toNat % 64
        let ups := k.updates (t.rV va.toNat) (t.rV vb.toNat)
        attached t (.skupd n d va vb) (t.unackWait = none → (t.me.tagOf tag).inflight < 255 → exec (.skupd n d va vb) s =
          done s (((t.tagIssue t.cur tag).addUnack t.cur).skSend k (.upd tag ups.1) ups.2)))
      ∧ (Ready s [.v va.toNat] →
        let t := s.consumeAll [.v va.toNat]
        let reads := ((List.range 16).map fun m => (List.range k.depth).map fun j =>
          let h := k.hash j (BitVec.ofNat 32 (vlane (t.rV va.toNat) m))
          (k.counter j h.1, h.2)).flatten
        let u := t.skSend k (.qry vd.toNat reads []) false
        attached t (.skqry n vd va) (exec (.skqry n vd va) s = holds s u (.reply u.nextAct.pred)))
      ∧ (Ready s [.s a.toNat, .d d.toNat] →
        let t := s.consumeAll [.s a.toNat, .d d.toNat]
        let src := (t.rS a.toNat).toNat
        let shape (q : Sketch) := (q.depth, q.log2w, q.salt, q.scale)
        let overlap : Prop := k.base ≠ q.base ∧ k.base < q.base + 4 * q.count ∧ q.base < k.base + 4 * k.count
        let u := t.skSend k (.add d.toNat q 0 none) false
        attached t (.skadd n d a)
          (((8 ≤ src ∨ t.me.sketches.look src = none) → exec (.skadd n d a) s = done s (t.wS d.toNat 2))
          ∧ (src < 8 → t.me.sketches.look src = some q →
            (shape k ≠ shape q → exec (.skadd n d a) s = done s (t.wS d.toNat 1))
            ∧ (shape k = shape q → overlap → exec (.skadd n d a) s = done s (t.wS d.toNat 3))
            ∧ (shape k = shape q → ¬ overlap → t.relWait = none →
                exec (.skadd n d a) s = holds s u (.reply u.nextAct.pred)))))
      ∧ (Ready s [] →
        let u := s.skSend k (.clr 0) false
        attached s (.skclr n) (s.relWait = none → exec (.skclr n) s = holds s u (.reply u.nextAct.pred)))))
  ∧ (∀ (k : Sketch) (j : Nat) (i : Word), k.log2w ≤ 31 →
    let p := (i ^^^ k.salt).toNat
      * [0xB5A31C6F, 0x7C19E4D3, 0xD26B8F15, 0x4E97A33B, 0xA1F56C27, 0x63D80B99, 0xF04CD7A1].getD j 0 % 2 ^ 32
    (k.hash j i).1 = p / 2 ^ (32 - k.log2w) ∧ (k.hash j i).1 < 2 ^ k.log2w
    ∧ ((k.hash j i).2 = true ↔ p / 2 ^ (31 - k.log2w) % 2 = 1)
    ∧ (∀ b, k.counter j b = k.base + 4 * (j * 2 ^ k.log2w + b))
    ∧ (j < k.depth → k.base ≤ k.counter j (k.hash j i).1 ∧ k.counter j (k.hash j i).1 + 4 ≤ k.base + 4 * k.count))

/-! ### Landings, collectives, remap windows, gate heaps (17-19) -/

/-- R331-R335: the landing instructions. LANDA and LANDAW send one arrival, and their acknowledgement completes LANDA
with its generation recorded; LANDW goes on when the thread has not arrived or its generation has flipped, and else
waits; LANDQ reads the status of a landing of the partition. R333: the arrival that completes a landing's count flips
its generation and starts the count again; another one only counts. -/
def Obligations.LandingInstructions : Prop :=
  (∀ (s : State) (d a : BitVec 5) (g : Word),
    (Ready s [.s a.toNat] →
      let t := s.consumeAll [.s a.toNat]
      let n := (t.rS a.toNat).toNat
      let r := t.me.arrivals.lookD n {}
      let clear : State := t.modMe fun t => { t with ans := none }
      let sent : State := t.sendAll.postFree (.arrival t.cur n (t.cycle + 12))
      (n ≤ 31 → t.landingMine n = true → (t.landing n).count ≠ 0 →
        (t.me.ans = none → t.relWait = none →
          exec (.landa a) s = stays s sent .answer ∧ exec (.landaw a) s = stays s sent .answer)
        ∧ (r.arr = false → exec (.landw a) s = done s clear)
        ∧ (r.arr = true → (t.landing n).seenGen ≠ r.gen →
            exec (.landw a) s = done s ((clear.modArrival n fun r => { r with arr := false }).acquire t.myCore .pkg))
        ∧ (r.arr = true → (t.landing n).seenGen = r.gen → exec (.landw a) s = .next (s.park (.flip n))))
      ∧ (t.me.ans = some [g] → exec (.landa a) s = done s ((t.arrived n g).modMe fun x => { x with ans := none })
        ∧ ((t.landing n).seenGen ≠ g → ∃ u, exec (.landaw a) s = done s u ∧ (u.me.arrivals.lookD n {}).arr = false)
        ∧ ((t.landing n).seenGen = g → ∃ u, exec (.landaw a) s = stays s u (.flip n) ∧ u.me.ans = some [g, 1]))
      ∧ (31 < n → t.me.ans = none → exec (.landa a) s = traps s 3 ((t.rS a.toNat).setWidth 64)
          ∧ exec (.landw a) s = traps s 3 ((t.rS a.toNat).setWidth 64) ∧ exec (.landaw a) s = traps s 3 ((t.rS a.toNat).setWidth 64)))
    ∧ (Ready s [.s a.toNat, .d d.toNat] →
      let t := s.consumeAll [.s a.toNat, .d d.toNat]
      let n := (t.rS a.toNat).toNat
      exec (.landq d a) s = done s (t.wS d.toNat (if t.landingMine n then (t.landing n).lstat else 0))))
  ∧ (∀ l : Landing, (l.arrived + 1 = l.count → l.countOne.gen = l.gen + 1 ∧ l.countOne.arrived = 0)
    ∧ (l.arrived + 1 ≠ l.count → l.countOne.gen = l.gen ∧ l.countOne.arrived = l.arrived + 1)
    ∧ l.countOne.count = l.count ∧ l.countOne.part = l.part)

/-- R338-R342, R347: the collective instructions. CGPUT and CGPUTV leave one contribution and a record that is PENDING;
CGGET and CGGETV of a READY record write the result, drop the record and acquire, and of a PENDING one wait; CGSET installs
an entry, and traps on an invalid one. -/
def Obligations.CollectiveInstructions : Prop :=
  ∀ (s : State) (d a b : BitVec 5) (vd vb : BitVec 4) (e : CollEntry) (r : CollRec) (bs : List Byte),
    (let group (t : State) : Nat := (t.rS a.toNat).toNat % 64
      let rec? (t : State) : Option CollRec := t.me.colls.find? fun r => r.group == group t
      let puts (t : State) (vec : Bool) (ls : List Nat) : Prop :=
        (t.node false (storeyOf t.myCore) (group t)).entry = some e ∧ e.en = true ∧ e.part = t.myPart ∧ e.vec = vec
        ∧ (e.op = 6 → ls.headD 0 < 8 ∧ (t.me.sketches.look (ls.headD 0)).isSome = true)
        ∧ (∀ r, rec? t = some r → r.ready = true) ∧ (rec? t = none → t.me.colls.length < 4) ∧ t.relWait = none
      let contributed (t : State) (ls : List Nat) : Host.Outcome State Fault Refusal :=
        let g := group t
        let st := storeyOf t.myCore
        let fresh : CollRec := { group := g, vec := e.vec, sys := e.sys, ready := false, result := 0 }
        done s ((t.sendAll.modMe fun x => { x with colls :=
            if (rec? t).isSome then (x.colls.map fun r => if r.group = g then fresh else r) else x.colls ++ [fresh] }).send .collective
          t.myCore (nodeUnit false st) (.collIn false st g 0
            (contribution e t.cur (sval 16 ((t.rS a.toNat).toNat / 65536)) ls
              (((t.me.sketches.look (ls.headD 0)).map fun k => (t.myPart, t.myCore, k)).toList)))) ;
      (Ready s [.s a.toNat, .s b.toNat] →
        let t := s.consumeAll [.s a.toNat, .s b.toNat]
        puts t false [(t.rS b.toNat).toNat] → exec (.cgput a b) s = contributed t [(t.rS b.toNat).toNat])
      ∧ (Ready s [.s a.toNat, .v vb.toNat] →
        let t := s.consumeAll [.s a.toNat, .v vb.toNat]
        puts t true (lanes (t.rV vb.toNat) 32) → exec (.cgputv a vb) s = contributed t (lanes (t.rV vb.toNat) 32)))
    ∧ (let scope : Scope := if r.sys then .sys else .pkg
      (Ready s [.s a.toNat, .d d.toNat] →
        let t := s.consumeAll [.s a.toNat, .d d.toNat]
        let g := (t.rS a.toNat).toNat % 64
        t.me.colls.find? (fun r => r.group == g) = some r → r.vec = false →
        (r.ready = true → exec (.cgget d a) s = done s
          (((t.wS d.toNat (r.result.setWidth 32)).modMe fun t => { t with colls := t.colls.filter fun x => x.group != g }).acquire t.myCore scope))
        ∧ (r.ready = false → exec (.cgget d a) s = .next (s.park (.collReady g))))
      ∧ (Ready s [.s a.toNat] →
        let t := s.consumeAll [.s a.toNat]
        let g := (t.rS a.toNat).toNat % 64
        t.me.colls.find? (fun r => r.group == g) = some r → r.vec = true →
        (r.ready = true → exec (.cggetv vd a) s = done s
          (((t.wV vd.toNat r.result).modMe fun t => { t with colls := t.colls.filter fun x => x.group != g }).acquire t.myCore scope))
        ∧ (r.ready = false → exec (.cggetv vd a) s = .next (s.park (.collReady g)))))
    ∧ (ReadySup s [.s a.toNat, .s b.toNat] →
      let t := s.consumeAll [.s a.toNat, .s b.toNat]
      let w := t.rS a.toNat
      let g := w.toNat % 64
      let off := (t.rS b.toNat).toNat
      let ne := w.getLsbD 15
      let node := w.toNat / 256 % 128
      let x := parseEntry t.myPart bs
      t.readRecord off 32 = .ok bs →
      (w.toNat / 65536 ≠ 0 ∨ w.toNat / 64 % 4 ≠ 0 ∨ (x.en = true ∧ x.invalid ne node (wordAt bs 0) = true) →
        exec (.cgset a b) s = traps s 4 (t.segAddr 0 off))
      ∧ (w.toNat / 65536 = 0 → w.toNat / 64 % 4 = 0 → (ne = true → node < 2) →
        (ne = false → t.partOfStorey node = some t.myPart) →
        (∀ y, (t.node ne node g).entry = some y → y.en = true → y.part = t.myPart) →
        (x.en = true → x.invalid ne node (wordAt bs 0) = false) → t.relWait = none → (t.node ne node g).busy = false →
        exec (.cgset a b) s = done s ((t.sendAll.modNode ne node g fun y => { y with entry := some x }).runNode ne node g)))

/-- R359-R361: what an offer of HSIFT does to a gate heap. A NaN is not taken; an offer to a heap with room is; in a full
heap it replaces the root where the root is worse, and is dropped where it is not; the heap never holds more than its
capacity, and every entry comes from the heap or the offer. R360: which of two entries is worse, and an offer to a heap of at
most 16 entries keeps its order: no child of an entry is worse than it. -/
def Obligations.GateHeapOffer : Prop :=
  ∀ (k : Nat) (l : List HeapEntry) (new : HeapEntry), l.length ≤ k →
    (heapOffer k l new).length ≤ k ∧ l.length ≤ (heapOffer k l new).length
    ∧ (∀ e, e ∈ heapOffer k l new → e = new ∨ e ∈ l)
    ∧ ((f32.val new.1).isNan = true → heapOffer k l new = l)
    ∧ ((f32.val new.1).isNan = false → l.length < k → (heapOffer k l new).Perm (new :: l))
    ∧ (∀ root r, (f32.val new.1).isNan = false → l.length = k → l = root :: r →
        (HeapEntry.worse root new = true → (heapOffer k l new).Perm (new :: r))
        ∧ (HeapEntry.worse root new = false → heapOffer k l new = l))
    ∧ (let nan (x : HeapEntry) : Prop := (f32.val x.1).isNan = true
      let ordered (l : List HeapEntry) : Prop := ∀ i c, (c = 2 * i + 1 ∨ c = 2 * i + 2) → c < l.length →
        HeapEntry.worse (l.getD c (0, 0)) (l.getD i (0, 0)) = false
      (k ≤ 16 → ordered l → ordered (heapOffer k l new))
      ∧ ∀ x y : HeapEntry, HeapEntry.worse x y = true ↔ ((nan x ∧ ¬ nan y) ∨ (nan x ∧ nan y ∧ y.2 < x.2)
          ∨ (¬ nan x ∧ ¬ nan y ∧ ((f32.val x.1).less (f32.val y.1) = true
            ∨ ((f32.val x.1).less (f32.val y.1) = false ∧ (f32.val y.1).less (f32.val x.1) = false ∧ y.2 < x.2)))))

/-- R359-R366, R369: HSIFT of a legal heap in the own TCM completes; REMAPW and REMAPC send one operation to the remap
unit as a release, and complete when it answers; an answer that carries a trap traps, and REMAPC traps on a selector
with bits that are not zero. -/
def Obligations.ExpertInstructions : Prop :=
  ∀ (s u : State) (a b : BitVec 5) (bs : List Byte) (c lo hi : Word),
    let t := s.consumeAll [.s a.toNat, .s b.toNat]
    let sel := t.rS a.toNat
    let off := (t.rS a.toNat).toNat
    let o := addrOff (t.segAddr 0 off)
    let word (i : Nat) : Nat := leNat (t.ownBytes (o + 4 * i) 4)
    let k := word 0 % 32
    let fill := word 0 / 256 % 32
    let passes := word 0 / 65536 % 65536
    let old : List HeapEntry := (List.range fill).map fun i => (word (2 + 2 * i), word (3 + 2 * i))
    let new := heapOffer k old ((t.rS b.toNat).toNat, passes)
    let head := (o, leBytes 4 ((passes + 1) % 65536 * 65536 + new.length * 256 + k))
    let changed := (new.zipIdx.filter fun p => old[p.2]? != some p.1).map fun p =>
      (o + 8 + 8 * p.2, leBytes 4 p.1.1 ++ leBytes 4 p.1.2)
    (Ready s [.s a.toNat, .s b.toNat] → t.checkAccess 0 off 8 3 1 [1] = none → addrCore (t.segAddr 0 off) = t.myCore → off % 8 = 0 →
      (t.core t.myCore).movingBytes o 8 = false → 1 ≤ k → k ≤ 16 → fill ≤ k → word 0 / 32 % 8 = 0 → word 0 / 8192 % 8 = 0 →
      t.checkAccess 0 off (8 + 8 * k) 3 1 [1] = none → (t.core t.myCore).movingBytes o (8 + 8 * k) = false →
      State.writeRuns (head :: changed) t = some u → exec (.hsift a b) s = done s u)
    ∧ (Ready s [.s a.toNat, .s b.toNat] → t.me.ans = none → fieldOf sel 8 2 ≠ 3 → t.relWait = none →
      let sent := stays s (t.sendAll.send .request t.myCore 16403
        (.remap t.cur t.myPart (fieldOf sel 8 2) (fieldOf sel 0 6) sel (t.rS b.toNat))) .answer
      exec (.remapwAppend a b) s = sent ∧ exec (.remapwRelease a b) s = sent ∧ exec (.remapwClose a b) s = sent)
    ∧ (ReadySup s [.s a.toNat, .s b.toNat] → t.me.ans = none → t.readRecord (t.rS b.toNat).toNat 32 = .ok bs → t.relWait = none →
      let addr := t.segAddr 0 (t.rS b.toNat).toNat
      let ends := if fieldOf sel 10 22 = 0 ∧ fieldOf sel 6 2 = 0
        then stays s (t.sendAll.send .request t.myCore 16403
          (.remapCfg t.cur t.myPart (fieldOf sel 8 2) (fieldOf sel 0 6) bs addr)) .answer
        else traps s 4 addr
      exec (.remapcPool a b) s = ends ∧ exec (.remapcDefine a b) s = ends ∧ exec (.remapcReset a b) s = ends)
    ∧ (Ready s [.s a.toNat, .s b.toNat] → t.me.ans = some [] →
      let ends := done s (t.modMe fun x => { x with ans := none })
      exec (.remapwAppend a b) s = ends ∧ exec (.remapwRelease a b) s = ends ∧ exec (.remapwClose a b) s = ends
      ∧ (Supervisor s → exec (.remapcPool a b) s = ends ∧ exec (.remapcDefine a b) s = ends ∧ exec (.remapcReset a b) s = ends))
    ∧ (Ready s [.s a.toNat, .s b.toNat] → t.me.ans = some [c, lo, hi] →
      let trap := traps s c.toNat (hi ++ lo)
      exec (.remapwAppend a b) s = trap ∧ exec (.remapwRelease a b) s = trap ∧ exec (.remapwClose a b) s = trap
      ∧ (Supervisor s → exec (.remapcPool a b) s = trap ∧ exec (.remapcDefine a b) s = trap ∧ exec (.remapcReset a b) s = trap))

/-! ### Registers of the part's units (02 R97, R119-R120, 08 R168-R183, 09 R175-R185) -/

/-- R165, R183, R396, R331-R332, R176, R68, R418: an aligned write of a register of the system window. The storey registers
take the bits that they hold; SAVE registers keep their values while the storey holds images; a write with an effect is the
event of that effect. R97, R119, R120, R86, R168, R171: the writes of core and flight registers take effect. A SLOTCLS field
of code 0 keeps its class; SHPOOL changes while the core holds no forme; an LCSPLIT change empties the cache and drops the
pooled lines, and ends with zero bytes, on whose words no request waited; MVTBASE leaves a running communication thread;
clearing VPOOL drops the pool. Logs 60 and 74: VPOOL stands at offset 0x300 of its flight's block (DESIGN CHOICE), and an
LCSPLIT change empties the whole cache (DESIGN CHOICE). -/
def Obligations.RegisterEvents : Prop :=
  (∀ (s : State) (n l m : Nat) (v : Word), n < 128 → l < 32 → m < 16 →
    exec (.registerWrite 1 n 0x00C v) s = .next (s.modStorey n fun x => { x with fsva := v })
    ∧ exec (.registerWrite 1 n 0x010 v) s = .next (s.modStorey n fun x => { x with fsdest := v.toNat % 8192 })
    ∧ exec (.registerWrite 1 n 0x018 v) s = .next (s.modStorey n fun x => { x with ptrootL := v &&& 0xFFFF0000 })
    ∧ exec (.registerWrite 1 n 0x01C v) s = .next (s.modStorey n fun x => { x with ptrootH := v })
    ∧ ((s.imagesOf n).isEmpty = true →
        exec (.registerWrite 1 n 0x020 v) s = .next (s.modStorey n fun x => { x with saveL := v &&& 0xFFFFF000 })
        ∧ exec (.registerWrite 1 n 0x024 v) s = .next (s.modStorey n fun x => { x with saveH := v &&& 0xFFFF })
        ∧ (v.toNat % 131072 ≤ 65536 →
            exec (.registerWrite 1 n 0x028 v) s = .next (s.modStorey n fun x => { x with saveCnt := v.toNat % 131072 })))
    ∧ ((s.imagesOf n).isEmpty = false → exec (.registerWrite 1 n 0x020 v) s = .next s
        ∧ exec (.registerWrite 1 n 0x024 v) s = .next s ∧ exec (.registerWrite 1 n 0x028 v) s = .next s)
    ∧ (v.getLsbD 31 = true → exec (.registerWrite 1 n 0x02C v) s = .next (s.modStorey n fun x => { x with saveFlt := false }))
    ∧ (v.getLsbD 8 = true → exec (.registerWrite 1 n 0x000 v) s = exec (.fbstatDropClear n) s)
    ∧ (v.toNat % 4 = 1 → exec (.registerWrite 1 n 0x008 v) s = exec (.replayAll n) s)
    ∧ (v.toNat % 4 = 2 → exec (.registerWrite 1 n 0x008 v) s = exec (.invalVa n) s)
    ∧ (v.toNat % 4 = 3 → exec (.registerWrite 1 n 0x008 v) s = exec (.invalAll n) s)
    ∧ exec (.registerWrite 1 n (0x100 + 8 * l) v) s = exec (.lcfgWrite n l v) s
    ∧ exec (.registerWrite 0 0 (0x300 + 4 * l) v) s = exec (.lownWrite l v) s
    ∧ (v.getLsbD 0 = true → v.getLsbD 2 = false → exec (.registerWrite 0 0 0x100 v) s = exec .domswGo s)
    ∧ (v.getLsbD 0 = false → v.getLsbD 2 = true →
        exec (.registerWrite 0 0 0x100 v) s = .next (s.modPkg fun g => { g with domErr := false }))
    ∧ (v.getLsbD 31 = true → exec (.registerWrite 0 0 0x500 v) s = exec .packageReset s)
    ∧ (v.getLsbD 31 = false → v.getLsbD 30 = true →
        exec (.registerWrite 0 0 0x500 v) s = exec (.debugReset (v.toNat % 8192)) s)
    ∧ exec (.registerWrite 2 m 0x100 v) s = exec (.domainConfigStage m 0x100 v) s
    ∧ exec (.registerWrite 2 m 0x104 v) s = exec (.domainConfigStage m 0x104 v) s
    ∧ (v.getLsbD 0 = true → exec (.registerWrite 2 m 0x108 v) s = exec (.scmdWb m) s)
    ∧ exec (.registerWrite 16 m 0x1008 v) s =
        .next (s.modPart m fun x => { x with apstat := x.apstat &&& ~~~(v &&& 0x7E0000) }))
  ∧ (∀ (s : State) (c : Nat) (v : Word), c < 8192 →
    (∃ t, exec (.slotclsWrite c v) s = .next t ∧ t = s.modCore c (fun x => { x with slotcls := (t.core c).slotcls })
      ∧ ∀ i, 0 < i → i < 16 → ((t.core c).slotcls.toNat / 4 ^ i) % 4 =
          if (v.toNat / 4 ^ i) % 4 = 0 then ((s.core c).slotcls.toNat / 4 ^ i) % 4 else (v.toNat / 4 ^ i) % 4)
    ∧ exec (.runctlWrite c v) s = .next (s.modCore c fun x => { x with hold := v.getLsbD 5, margin := v.toNat % 32 })
    ∧ ((s.core c).formes = [] → v.toNat / 65536 % 2048 = 0 ∨ (16 ≤ v.toNat % 2048 ∧
        (v.toNat % 2048 + v.toNat / 65536 % 2048) * 256 ≤ (s.core c).tcmSize) →
        exec (.shpoolWrite c v) s =
          .next (s.modCore c fun x => { x with shBase := v.toNat % 2048, shSize := v.toNat / 65536 % 2048 }))
    ∧ (v.toNat % 4 ≠ (s.core c).lcsplit → (s.core c).formes = [] →
        let old := 0x80000 - cacheBytes (s.core c).lcsplit
        let new := 0x80000 - cacheBytes (v.toNat % 4)
        exec (.lcsplitWrite c v) s = .next ((s.modCore c fun x =>
            { x with
              lcsplit := v.toNat % 4, cache := []
              moving := x.moving ++ [(min old new, max old new, s.cycle + 1024)] }).dropPooled (c / 16)))
    ∧ (∀ lo hi due r, (s.core c).moving = (lo, hi, due) :: r →
        let t := (s.sramClear c lo hi).modCore c fun x => { x with moving := r }
        (t.memory.syncQ.keys.all fun w => decide (w < wordNo c lo) || decide (wordNo c hi ≤ w)) = true →
        exec (.lcsplitChangeDone c) s = .next t)
    ∧ ((s.thr? (16 * c)).isSome = true →
        exec (.mvtbaseWrite c v) s = .next (s.modCore c fun x => { x with mvt := v.toNat / 2048 % 256 * 2048 }))
    ∧ (∀ f, f < 512 → exec (.vpoolWrite f v) s =
        .next ((if v.getLsbD 0 then s else s.dropPooled f).modFlight f fun x => { x with vpool := v.getLsbD 0 })
        ∧ exec (.registerWrite 3 f 0x300 v) s = exec (.vpoolWrite f v) s))

/-- R331-R332, R176-R177, R173, R181-R185: landings get an owner with zero counts and no arrival records, and a count before
the first arrival; staged interleave domains switch together, or DOMERR is set; FBPOP pops the oldest entry; REPLAY_ALL frees
the FAULTED entries, and their threads' cores acquire; the invalidations empty the TLBs; a walk that meets no entry marks its
page FAULTED; the hotness counts halve every 2^24 cycles; a migration sets MIG, and its flip, once every line is copied and
none is marked, ends it. Logs 12 and 14: what a walk, a switch or a migration does by itself is an event, which changes
nothing where its conditions do not hold (DESIGN CHOICE). -/
def Obligations.SystemUnitEvents : Prop :=
  ∀ (s : State) (n : Nat) (v : Word),
    (n < 32 → ∃ t, exec (.lownWrite n v) s = .next t
      ∧ t.landing n = { v := v.getLsbD 4, part := v.toNat % 16 }
      ∧ (∀ id x, s.thr? id = some x → t.thr? id = some { x with arrivals := x.arrivals.del n })
      ∧ (∀ k, k ≠ n → t.landing k = s.landing k))
    ∧ (∀ st, n < 32 → (s.landing n).v = true → s.partOfStorey st = some (s.landing n).part → (s.landing n).arrived = 0 →
        v.toNat % 262144 ≤ 131072 →
        exec (.lcfgWrite st n v) s = .next (s.modLanding n fun l => { l with count := v.toNat % 262144 }))
    ∧ (n < 16 → exec (.domainConfigStage n 0x100 v) s = .next (s.modSlice n fun x => { x with stagedK := v.toNat % 8 })
        ∧ exec (.domainConfigStage n 0x104 v) s = .next (s.modSlice n fun x => { x with stagedMask := v.toNat % 2 ^ 26 })
        ∧ exec (.scmdWb n) s = .next (s.modSlice n fun x => { x with wb := true }))
    ∧ ((s.slice n).wb = true → ∃ t, exec (.scmdWbDone n) s = .next t ∧ (t.slice n).wb = false
        ∧ t.memory.stack = s.memory.stack ∧ (∀ k d, t.memory.dirty.look k = some d → s.memory.dirty.look k = some d))
    ∧ (s.domainBad = true → exec .domswGo s = .next (s.modPkg fun g => { g with domErr := true }))
    ∧ (s.domainBad = false → ∃ t, exec .domswGo s = .next t ∧ t.pkg.domGo = true ∧ t.pkg.domErr = false
        ∧ (∀ i, i < 16 → (t.slice i).k = (s.slice i).stagedK ∧ (t.slice i).hmask = (s.slice i).stagedMask)
        ∧ (∀ i l, l ∈ (t.slice i).lines → l ∈ (s.slice i).lines))
    ∧ exec .domainSwitchDone s = .next (s.modPkg fun g => { g with domGo := false })
    ∧ (∀ p r, (s.storey n).buffer = p :: r →
        exec (.fbpopRead n) s = .next (s.modStorey n fun x => { x with buffer := r, fsva := BitVec.ofNat 32 p.page }))
    ∧ exec (.fbstatDropClear n) s = .next (s.modStorey n fun x => { x with drop := false, ndrop := 0 })
    ∧ (∃ t, exec (.replayAll n) s = .next t
        ∧ (t.storey n).pending = (s.storey n).pending.filter (fun p => p.faulted == false)
        ∧ (∀ k, k ≠ n → t.storey k = s.storey k) ∧ t.threads = s.threads ∧ t.memory = s.memory ∧ t.acts = s.acts
        ∧ ∀ c,
          let freed (id : Nat) (x : Thread) : Prop := coreOf id = c ∧ ∃ p ∈ (s.storey n).pending, p.faulted = true
            ∧ (x.park = some (.descPage n p.page) ∨ ∃ acc va, x.park = some (.page n p.page acc va))
          (∀ id x, (id, x) ∈ s.threads → freed id x →
            t.core c = { s.core c with cache := (s.core c).cache.filter fun l => !l.w })
          ∧ ((∀ id x, (id, x) ∈ s.threads → ¬ freed id x) → t.core c = s.core c))
    ∧ (∃ t, exec (.invalAll n) s = .next t ∧ (t.storey n).tlb = [] ∧ (∀ i, i < 4 → (t.flight (4 * n + i)).tlb = [])
        ∧ { t with storeys := s.storeys, flights := s.flights } = s)
    ∧ (∃ t, exec (.invalVa n) s = .next t
        ∧ (t.storey n).tlb = (s.storey n).tlb.filter (fun e => !e.covers (s.storey n).fsva.toNat)
        ∧ (∀ i, i < 4 → (t.flight (4 * n + i)).tlb = (s.flight (4 * n + i)).tlb.filter fun e => !e.covers (s.storey n).fsva.toNat)
        ∧ { t with storeys := s.storeys, flights := s.flights } = s)
    ∧ (∀ page p, s.pendingPage n page = some p → p.faulted = false →
        s.walk n ((s.partOfStorey n).getD 16) (page * 65536) = .absent → (s.storey n).buffer = [] →
        ∃ t, exec (.walkComplete n page) s = .next t ∧ (t.storey n).buffer = [{ p with faulted := true }]
          ∧ (t.pendingPage n page).any Pending.faulted = true ∧ t.threads = s.threads ∧ t.memory.stack = s.memory.stack)
    ∧ (s.pkg.hotEpoch < s.cycle / 2 ^ 24 → ∃ t, exec .hotnessHalving s = .next t
        ∧ t.pkg.hotEpoch = s.pkg.hotEpoch + 1
        ∧ ∀ page l, s.pkg.hot.look page = some l → t.pkg.hot.look page = some (l.map (· / 2)))
    ∧ (∀ p page dest pte e, s.walk (s.partStorey p) p (page * 65536) = .leaf pte e false → pteClass e = .stack →
        fld e 6 1 = 0 → (s.pkg.migrations.any fun m => m.part == p && m.page == page) = false →
        exec (.migrationStart p page dest) s = .next ((s.writePte (s.partStorey p) p pte (e + 64)).modPkg fun g =>
          { g with migrations := g.migrations ++ [{ part := p, page := page, src := pteTable e / 65536, dest := dest }] }))
    ∧ (∀ part page m, s.pkg.migrations.find? (fun x => x.part == part && x.page == page) = some m →
        (64 ≤ m.copied → m.marked = [] → ∃ t, exec (.migrationFlip part page) s = .next t
          ∧ t.pkg.migrations.map (fun x => (x.part, x.page, x.src, x.dest)) =
              (s.pkg.migrations.filter fun x => !(x.part == part && x.page == page)).map fun x => (x.part, x.page, x.src, x.dest))
        ∧ (m.copied < 64 ∨ m.marked ≠ [] → exec (.migrationFlip part page) s = .next s))

/-! ### The host link and SPDM (04 R57-R78) -/

/-- R64-R68, R73, R77: what a partition in RUN accepts from its host: bytes of a staging slot that is not busy, the doorbell,
the end of a capture, the oldest completion, and the bytes of a block of the window, translated by the partition's tables. A
block that the tables refuse sets WFAULT or is refused, with what the walk did kept. In another TDI state writes set WFAULT
and reads are refused. Logs 31, 32, 33 and 71: the order of LDOOR's checks, the window at absent pages and over remap
windows, and the tables that translate it are the model's choices. -/
def Obligations.HostApertures : Prop :=
  ∀ (s : State) (p : Nat), p < 16 →
    ((s.part p).tdi = .run →
      (∀ k o bytes, k < 16 → o + bytes.length ≤ 256 → (s.part p).busy.getLsbD k = false →
        ((s.part p).staging.lookD k (List.replicate 256 0)).length = 256 →
        ∃ t, exec (.stagingWrite p (256 * k + o) bytes) s = .next t
          ∧ (t.part p).staging.lookD k (List.replicate 256 0) =
              ((s.part p).staging.lookD k (List.replicate 256 0)).take o ++ bytes
                ++ ((s.part p).staging.lookD k (List.replicate 256 0)).drop (o + bytes.length)
          ∧ (t.part p).busy = (s.part p).busy ∧ t.memory = s.memory)
      ∧ (∀ k b, k < 16 → (s.part p).busy.getLsbD k = true → exec (.stagingWrite p (256 * k) [b]) s = .next (s.setAp p 17))
      ∧ (∀ v n, n ≠ 8 → exec (.ldoor p v n) s = .next (s.setAp p 18))
      ∧ (∀ v : BitVec 64, (s.part p).busy.getLsbD (v.toNat / 2 ^ 40 % 16) = true → exec (.ldoor p v 8) s = .next (s.setAp p 17))
      ∧ (∀ v : BitVec 64, (s.part p).busy.getLsbD (v.toNat / 2 ^ 40 % 16) = false → 23 < v.toNat / 2 ^ 32 % 32 →
          exec (.ldoor p v 8) s = .next (s.setAp p 19))
      ∧ (∀ v : BitVec 64, (s.part p).busy.getLsbD (v.toNat / 2 ^ 40 % 16) = false →
          (v.toNat / 2 ^ 37 % 8 ≠ 0 ∨ v.toNat / 2 ^ 44 ≠ 0) → exec (.ldoor p v 8) s = .next (s.setAp p 19))
      ∧ (∀ (v : BitVec 64) h, (s.part p).busy.getLsbD (v.toNat / 2 ^ 40 % 16) = false → v.toNat / 2 ^ 32 % 256 ≤ 23 →
          v.toNat / 2 ^ 44 = 0 → s.hall? (0xFFF0 + p) = some h →
          let k := v.toNat / 2 ^ 40 % 16
          let key : VWord := ofLanes 32 [p, v.toNat / 2 ^ 32 % 32, v.toNat % 2 ^ 32, 0, 256, 0]
          let slice := s.homeSlice (0xFFF0 + p) h key
          let r := s.servePut slice h (tupleOf (0xFFF0 + p) key .none)
            (some ((s.part p).staging.lookD k (List.replicate 256 0), stOK)) none
          (r.2 = stOK → exec (.ldoor p v 8) s = .next (r.1.modPart p fun x => { x with busy := setBit x.busy k true }))
          ∧ (r.2 = stHEAPFULL → exec (.ldoor p v 8) s = .next (s.setAp p 20))
          ∧ (r.2 = stINDEXFULL → exec (.ldoor p v 8) s = .next (s.setAp p 22)))
      ∧ (s.oldestCompletion p = none → exec (.cpop p 8) s = .next (s.toHost p (leBytes 8 0)))
      ∧ (∀ n c, s.oldestCompletion p = some (n, c) → ∃ t, exec (.cpop p 8) s = .next t
          ∧ t.out = s.out ++ [.hostRead p (leBytes 8 (cpopWord c))]
          ∧ ((s.payloadRead p n c).2.1.length = 256 → (s.part p).cwin.length ≤ 256 →
              (t.part p).cwin = (s.payloadRead p n c).2.1))
      ∧ (∀ off bytes u l, ((s.part p).wbase + off) % 64 + bytes.length ≤ 64 → 0 < bytes.length → off + bytes.length ≤ 2 ^ 36 →
          (s.windowPlace p ((s.part p).wbase + off) true = (u, some l) →
            exec (.windowWrite p off bytes) s = .next (u.writeLoc p 0 l bytes))
          ∧ (s.windowPlace p ((s.part p).wbase + off) true = (u, none) →
            exec (.windowWrite p off bytes) s = .next (u.setAp p 21)))
      ∧ (∀ off n va u l, ((s.part p).wbase + off) % 64 + n ≤ 64 → 0 < n → off < 2 ^ 36 →
          s.remapRead p ((s.part p).wbase + off) = some va →
          (s.windowPlace p va false = (u, some l) →
            exec (.windowRead p off n) s = .next ((u.windowReach p l).toHost p (u.readLoc p l n)))
          ∧ (s.windowPlace p va false = (u, none) → exec (.windowRead p off n) s = .next (u.refuseRead p)))
      ∧ (∀ va write, (s.part p).smask = 0 → s.windowPlace p va write = (s, none)))
    ∧ ((s.part p).tdi ≠ .run →
      (∀ o bytes, exec (.stagingWrite p o bytes) s = .next (s.setAp p 21))
      ∧ (∀ v n, exec (.ldoor p v n) s = .next (s.setAp p 21))
      ∧ (∀ n, exec (.cpop p n) s = .next (s.refuseRead p))
      ∧ (∀ off bytes, off + bytes.length ≤ 2 ^ 36 → exec (.windowWrite p off bytes) s = .next (s.setAp p 21))
      ∧ (∀ off n, off < 2 ^ 36 → exec (.windowRead p off n) s = .next (s.refuseRead p)))
    ∧ exec (.windowRead p (2 ^ 36 + 0x1008) 4) s = .next (s.toHost p (leBytes 4 (s.part p).apstatWord.toNat))
    ∧ (∀ k, k < 16 → exec (.stagingCaptureDone p k) s = .next (s.modPart p fun x => { x with busy := setBit x.busy k false }))

/-- R61-R64, R69-R71, R76, R404, R417, R423: the operator's writes and the interface states. A TDI locks, runs and stops;
while it is locked or runs, a write of its descriptor moves it to ERROR; a key slot changes owner while both are unlocked,
and is usable once its material is ready. A write that covers several fields of a descriptor writes each, or moves a locked
TDI to ERROR. Logs 34, 36 and 66: what does not come on the TDI's stream, what becomes of a stopped partition's work, and
of its aperture, are the model's choices. -/
def Obligations.InterfaceEvents : Prop :=
  ∀ (s : State) (p : Nat), p < 16 →
    ((s.part p).tdi = .unlocked →
      (∀ mask : BitVec 128, (∀ n, n < 128 → mask.getLsbD n = true → (s.part p).smask.getLsbD n = false →
          ∀ q, s.partOfStorey n = some q → (s.part q).tdi = .unlocked) →
        let s1 := { s with pkg := { s.pkg with parts := s.pkg.parts.mapVals fun _ x => { x with smask := x.smask &&& ~~~mask } } }
        let s2 := s1.modPart p fun x => { x with smask := mask }
        exec (.smaskWrite p mask) s =
          .next ((maskBits ((s.part p).smask &&& ~~~mask)).foldl (fun s n => s.moveStorey 0 n)
            ((maskBits (mask &&& ~~~(s.part p).smask)).foldl (fun s n => s.moveStorey (s2.part p).sdtb n) s2)))
      ∧ (∀ v : BitVec 64, exec (.partitionDescriptorWrite p 0x10 v) s =
          .next (s.modPart p fun x => { x with wbase := v.toNat / 65536 % 2 ^ 32 * 65536 }))
      ∧ (∀ v : BitVec 64, exec (.partitionDescriptorWrite p 0x18 v) s =
          .next ((maskBits (s.part p).smask).foldl
            (fun s n => s.modStorey n fun x => { x with sdtb := BitVec.ofNat 64 (v.toNat % 2 ^ 48) })
            (s.modPart p fun x => { x with sdtb := BitVec.ofNat 64 (v.toNat % 2 ^ 48) })))
      ∧ (∀ wb sd : BitVec 64,
          let s1 := s.modPart p fun x => { x with wbase := wb.toNat / 65536 % 2 ^ 32 * 65536 }
          let a := BitVec.ofNat 64 (sd.toNat % 2 ^ 48)
          s.pfDescriptor p 0x10 (leBytes 8 wb.toNat ++ leBytes 8 sd.toNat) =
            (maskBits (s.part p).smask).foldl (fun s n => s.modStorey n fun x => { x with sdtb := a })
              (s1.modPart p fun x => { x with sdtb := a }))
      ∧ exec (.lockInterfaceRequest p) s =
          .next ((s.modPart p fun x => { x with tdi := .locked, measure := some (s.configOf p) }).tdisp p true))
    ∧ ((s.part p).tdi = .locked → exec (.startInterfaceRequest p) s =
        .next (((s.modPart p fun x => { x with tdi := .run }).modPkg fun g => { g with state := .active }).tdisp p true))
    ∧ ((s.part p).tdi ≠ .unlocked → exec (.lockInterfaceRequest p) s = .next (s.tdisp p false))
    ∧ ((s.part p).tdi ≠ .locked → exec (.startInterfaceRequest p) s = .next (s.tdisp p false))
    ∧ ((s.part p).tdi = .locked ∨ (s.part p).tdi = .run →
      (∀ mask, exec (.smaskWrite p mask) s = .next (s.toError p))
      ∧ (∀ v, exec (.partitionDescriptorWrite p 0x10 v) s = .next (s.toError p)
        ∧ exec (.partitionDescriptorWrite p 0x18 v) s = .next (s.toError p))
      ∧ (∀ o bs, bs ≠ [] → o < 0x20 → (((s.pfDescriptor p o bs).part p).tdi = .error)))
    ∧ (∃ t, exec (.stopInterfaceRequest p) s = .next (t.tdisp p true) ∧ exec (.vfFunctionLevelReset p) s = .next t
        ∧ (t.part p).tdi = .unlocked ∧ (t.part p).measure = none ∧ (t.part p).staging = [] ∧ (t.part p).busy = 0)
    ∧ exec (.ideIntegrityFailure (p + 1)) s = .next (s.toError p)
    ∧ exec (.ideIntegrityFailure 0) s = .next (s.fence 5 3 0)
    ∧ (∀ (k : Nat) (v : Byte), 0 < k → k < 4096 → let x := s.pkg.keys.lookD k {}
        (x.a = true → (s.part x.part).tdi = .unlocked) →
        (v.getLsbD 7 = true → (s.part (v.toNat % 16)).tdi = .unlocked) → ¬ (v.getLsbD 7 = x.a ∧ v.toNat % 16 = x.part) →
        exec (.keySlotWrite k v) s = .next (s.modPkg fun g =>
          { g with keys := g.keys.put k { a := v.getLsbD 7, part := v.toNat % 16, gen := x.gen + 1, usable := false } }))
    ∧ (∀ k x, s.pkg.keys.look k = some x → x.a = true →
        exec (.keyMaterialReady k) s = .next (s.modPkg fun g => { g with keys := g.keys.put k { x with usable := true } }))
    ∧ (∀ v, v < 8 → (s.part p).msixPending.getLsbD v = true → ∃ t, exec (.msiXVectorUnmask (p + 1) v) s = .next t
        ∧ t.out = s.out ++ [.msix (p + 1) v] ∧ (t.part p).msixPending.getLsbD v = false ∧ (t.part p).msixMasked.getLsbD v = false)
    ∧ (∀ v, v < 8 → (s.part p).msixPending.getLsbD v = false → ∃ t, exec (.msiXVectorUnmask (p + 1) v) s = .next t
        ∧ t.out = s.out ∧ (t.part p).msixMasked.getLsbD v = false)

/-- R58-R60: the responder answers each request once what it rests on has passed: VERSION before CAPABILITIES, those before
ALGORITHMS of both signatures, SHA-384, secp384r1 and AES-256-GCM, those before digests, certificates, challenges and
measurements; a session from KEY_EXCHANGE and FINISH to END_SESSION; an answer above the negotiated size is fetched in
chunks, and a request that chunks carried whole is performed; a firmware image is taken when both signatures verify. What the
answers hold is the model's opaque choice (log 11); a signature has 64 + 3,309 bytes. -/
def Obligations.SpdmEvents : Prop :=
  ∀ (s : State) (n m len : Nat) (bytes : List Byte),
    let x := s.pkg.spdm
    let answered (req : Nat) (y : Spdm) (a : List Nat) : Host.Outcome State Fault Refusal :=
      .next { s with
        out := s.out ++ [if y.size ≠ 0 ∧ y.size < a.length then .spdmLarge req else .spdm req a]
        pkg := { s.pkg with spdm := { y with transcript := y.transcript ++ [req], large := a } } }
    exec .getVersion s = answered 0x84
      { x with
        version := true, caps := false, algs := false, exchange := false, session := false
        transcript := [], chunkIn := [], size := 0 } [0x13]
    ∧ (x.version = true → ∃ k a, exec .getCapabilities s = .next { s with
        draws := s.draws + 1
        out := s.out ++ [if k ≠ 0 ∧ k < a.length then .spdmLarge 0xE1 else .spdm 0xE1 a]
        pkg := { s.pkg with spdm := { x with caps := true, size := k, transcript := x.transcript ++ [0xE1], large := a } } })
    ∧ (x.caps = true → ∃ a, exec (.negotiateAlgorithms true) s = answered 0xE3 { x with algs := true } a)
    ∧ exec (.negotiateAlgorithms false) s = .next (s.spdmError 0xE3)
    ∧ (x.algs = true → (∃ a, a.length = 48 ∧ exec .getDigests s = answered 0x81 x a)
      ∧ exec (.getCertificate 0 n len) s = answered 0x82 x ((certificate.drop n).take len)
      ∧ (∃ a, a.length = 3373 ∧ exec (.challenge n) s = answered 0x83 x a)
      ∧ (0 < m → m < 5 → exec (.getMeasurements n m) s = answered 0xE0 x (s.measurement n m))
      ∧ (0 < n → n ≤ 16 → exec (.getMeasurements n 5) s = answered 0xE0 x (s.measurement n 5))
      ∧ (0 < m → m < 5 → ∃ a, a.length = 3373 ∧ exec (.getMeasurements n (256 + m)) s = answered 0xE0 x (s.measurement n m ++ a))
      ∧ (∃ a, a.length = 3373 ∧ exec (.keyExchange n) s = answered 0xE4 { x with exchange := true } a))
    ∧ (x.algs = false → exec .getDigests s = .next (s.spdmError 0x81) ∧ exec (.challenge n) s = .next (s.spdmError 0x83)
      ∧ exec (.getMeasurements n m) s = .next (s.spdmError 0xE0) ∧ exec (.keyExchange n) s = .next (s.spdmError 0xE4))
    ∧ (x.exchange = true → exec (.spdmFinish true) s = answered 0xE5 { x with exchange := false, session := true } [1])
    ∧ exec (.spdmFinish false) s = .next (s.spdmError 0xE5)
    ∧ (x.session = true → exec .keyUpdate s = answered 0xE9 { x with updates := x.updates + 1 } [1] ∧ exec .heartbeat s = answered 0xE8 x [1]
      ∧ exec .endSession s = answered 0xEC { x with session := false, updates := 0 } [1]
      ∧ (n ≤ 16 → exec (.ideKm n) s = answered 0xFE { x with streams := insertNat n x.streams } [1]))
    ∧ (x.session = false → exec .keyUpdate s = .next (s.spdmError 0xE9) ∧ exec .heartbeat s = .next (s.spdmError 0xE8)
      ∧ exec .endSession s = .next (s.spdmError 0xEC) ∧ exec (.ideKm n) s = .next (s.spdmError 0xFE))
    ∧ (∃ t, exec (.chunkSend bytes false) s = .next t ∧ t.pkg.spdm = { x with chunkIn := x.chunkIn ++ bytes }
        ∧ t.out = s.out ++ [.spdm 0x85 [1]])
    ∧ exec (.chunkSend bytes true) s = .next ({ s.modSpdm (fun y => { y with chunkIn := [] }) with
        out := s.out ++ [OutMsg.spdm 0x85 [1]] }.spdmMessage (x.chunkIn ++ bytes))
    ∧ exec (.chunkGet m) s = .next { s with out := s.out ++ [.spdm 0x86 ((x.large.drop (m * x.size)).take x.size)] }
    ∧ (∃ t, exec (.firmwareImage n m true true) s = .next t ∧ t.pkg.spdm = { x with firmware := x.firmware.put n m }
        ∧ t.out = s.out ++ [.firmware true])
    ∧ exec (.firmwareImage n m false true) s = .next { s with out := s.out ++ [.firmware false] }
    ∧ exec (.firmwareImage n m true false) s = .next { s with out := s.out ++ [.firmware false] }

/-! ### Tasks, threads and messages (05 R79-R124, 07 R127-R136, 16 R387-R403) -/

/-- R82-R85, R88-R95, R103, R113-R114: the task unit. A record that R80 refuses is admitted as a task that fails with status
5 and runs nothing; a task counter counts down to readiness; a token fails its task; a FLAT launch wakes here and its ranks
report, with the failure that they met; a core of the set takes its copy of the forme; a watchdog freezes the queue; a task
that has ended sends what its threads still combine, and once nothing of it is on its way it signals, puts its tuple or
reports, and leaves the run lists; a page of an event word that is not present is pushed to the fault buffer first, and one
whose writes a migration holds is waited for; formes are released. A package that is not ACTIVE, or throttles at level 3,
takes no wake. Logs 44, 59 and 65: the ranks' shares and reports, payloads that fail, and a DEC's offset are the model's
choices. -/
def Obligations.TaskEvents : Prop :=
  ∀ (s : State) (act core off n : Nat),
    let starts (sys : Bool) (k : Nat) : State :=
      if sys then (s.dropAct act).modTask k fun t => { t with sysStart := true } else s.dropAct act
    (∀ (p slice : Nat) (t : Tuple), s.pkg.tasks.length < 4096 → s.pkg.thr ≠ 3 → s.nextLaunch = some p →
      s.launchTuple p = some (slice, t) →
      let read := (s.modPkg fun g => { g with turn := (p + 1) % 16 }).payloadRead p slice t
      (∀ u, read.1.admitRecord p (t.f.getD 2 0) true read.2.1 = .ok u →
        exec (.launchAdmit p) s = .next ((u.modSlice slice fun x =>
          { x with tuples := x.tuples.filter fun y => y.seq != t.seq }).freeHeap slice t)))
    ∧ (∀ p hseq host bs, s.recordBad p bs = true → ∃ u k, s.admitRecord p hseq host bs = .ok u
        ∧ u.task? s.pkg.nextTask = some k ∧ k.status = 5 ∧ k.frozen = true ∧ k.hseq = hseq ∧ u.threads = s.threads)
    ∧ (∀ sender k sys, s.ready? act = some (.dec sender core off n sys) → s.coreFenced core = false → s.coreWiping core = false →
        off < 0x1000 → s.liveCounter core off = some k → 0 < n → n < (s.tcmWord core (off / 4 * 4)).toNat →
        exec (.decMessage act) s = .next (((starts sys k).setCount core (off / 4 * 4)
          ((s.tcmWord core (off / 4 * 4)).toNat - n)).ackTo core sender))
    ∧ (∀ sender k sys, s.ready? act = some (.dec sender core off n sys) → s.coreFenced core = false → s.coreWiping core = false →
        off < 0x1000 → s.liveCounter core off = some k → 0 < n → n = (s.tcmWord core (off / 4 * 4)).toNat →
        exec (.decMessage act) s = .next ((((starts sys k).setCount core (off / 4 * 4) 0).makeReady k).ackTo core sender))
    ∧ (∀ k, s.ready? act = some (.token core off) → s.coreFenced core = false → s.coreWiping core = false →
        off < 0x1000 → s.liveCounter core off = some k →
        exec (.errorToken act) s = .next ((s.dropAct act).failTask k 1 none))
    ∧ (∀ t, s.ready? act = some (.wake t) → s.pkg.tasks.length < 4096 →
        (s.pkg.thr ≠ 3 → s.pkg.state = .active → exec (.wakeMessage act) s =
          .next (((s.dropAct act).addTask { t with ready := false, host := false }).makeReady s.pkg.nextTask))
        ∧ (s.pkg.thr = 3 ∨ s.pkg.state ≠ .active → exec (.wakeMessage act) s = .next s))
    ∧ (∀ rank ran status erred f k, s.ready? act = some (.rankReport n rank ran status erred f) → s.task? n = some k →
        let t := (s.dropAct act).modTask n fun t =>
          { t with reports := insertNat rank t.reports, ran := t.ran + ran, erred := t.erred + erred }
        exec (.rankCompletionReport act) s = .next (if status ≠ 0 then t.failTask n status f else t))
    ∧ (∀ k f u, s.task? n = some k → k.forme = some f → k.record.has core = true → k.gone.contains core = false →
        (s.core core).formes.look (formeKey n) = none → s.coreFenced core = false → s.coreWiping core = false →
        let copy : Forme := { f with segs := s.segsOn k.record.home core f.segs, lent := [], complete := true }
        s.allocForme core n k.hdr copy = some u →
        exec (.formeCopyReceived core n) s =
          .next (u.loadTemplate core ((u.core core).formes.lookD (formeKey n) copy) k.image))
    ∧ (∀ k, s.task? n = some k → k.ready = true → k.status = 0 → k.record.wdog ≠ 0 →
        k.readyAt + k.record.wdog * 65536 ≤ s.cycle → k.record.finish = true → (s.threads.map Prod.fst).Nodup →
        ∃ t, exec (.watchdogExpiry n) s = .next t ∧ t.task? n = some { k with frozen := true, status := 3 }
          ∧ ∀ id x, s.thr? id = some x →
            t.thr? id = some (if x.kind.taskNo = some n then { x with watchdogTrap := true } else x))
    ∧ (∀ k, s.task? n = some k → s.taskDone n k = true →
        (s.writesLeft n = true → exec (.taskCompletion n) s = .next (s.releaseTask n))
        ∧ (∀ a, s.writesLeft n = false → s.signalAbsent k = some a → exec (.taskCompletion n) s =
            .next (s.pageFaulted (storeyOf k.record.home) (a / 65536) .atomic (flightOf k.record.home)))
        ∧ (s.writesLeft n = false → s.signalAbsent k = none → s.signalHeld k = true → exec (.taskCompletion n) s = .next s)
        ∧ (s.writesLeft n = false → s.signalAbsent k = none → s.signalHeld k = false →
          let t := (k.record.succ ++ [k.record.event]).foldl (fun s a => s.signal k a) s
          (k.origin = none → k.host = false → exec (.taskCompletion n) s = .next ((t.forget n).pollHeld))
          ∧ (∀ u, k.origin = none → k.host = true → t.putCompletion k = some u →
              exec (.taskCompletion n) s = .next ((u.forget n).pollHeld))
          ∧ (∀ fabric no, k.origin = some (fabric, no) → exec (.taskCompletion n) s = .next
              ({ t with out := t.out ++ [OutMsg.peer fabric (.rankReport no k.rank k.ran k.status k.erred k.fail)] }.forget n))))
    ∧ (∀ k, ((s.core core).formes.look (formeKey n)).isSome = true → s.task? n = some k → k.compose = .ready →
        k.nextItem core = none → s.coreIdleFor core n = true →
        exec (.formeRelease core n) s = .next ((s.releaseForme core (formeKey n)).modTask n fun k =>
          { k with gone := insertNat core k.gone }))
    ∧ (∀ f id, (s.core core).formes.look n = some f → f.parent = some id → f.left = 0 → f.lent = [] →
        exec (.nestedFormeRelease core n) s = .next ((s.releaseForme core n).modAny id fun t =>
          { t with nested := t.nested.filter fun x => x != n }))

/-- R85-R87, R100, R104, R111, R127, R134-R135, R387, R394-R403: threads and what reaches them. The run list gives a free
work slot the composing thread, the next sub-item or item; a message of a handler class waits in the core's queue and
starts a handler with its words in s16-s18; a fill reaches an exposed register; a pre-empted impression is saved, its
slot waits for the last byte, and it resumes from its image; a pre-emption that waits keeps its victim. A packet for another
package leaves in its receive form, or comes back from a fenced port. Logs 67 and 72: the kept victim and the PRIO that a waiting
message is served by are the model's choices. -/
def Obligations.ThreadEvents : Prop :=
  ∀ (s : State) (act core slot n lv idx : Nat),
    (∀ k u, s.task? n = some k → k.compose = .waiting → k.ready = true → k.status = 0 → k.record.itemCnt ≠ 0 →
      k.hdr.formeNeed ≤ (s.core k.record.home).shSize → s.workSlot k.record.home = some slot →
      s.serve? k.record.home (s.core k.record.home).hold = some (lv, idx, .task n, .compose) →
      s.allocForme k.record.home n k.hdr { task := n, complete := false } = some u →
      ∃ t x, exec (.composingThreadStart n) s = .next t ∧ t.thr? (slotidOf k.record.home slot) = some x
        ∧ x.kind = .composing n ∧ x.pc = BitVec.ofNat 32 k.hdr.proEnt ∧ x.regs = k.firstRegs ∧ x.segs = k.hdr.segs
        ∧ x.userMode = true ∧ x.level = lv)
    ∧ (s.slotFree core slot 2 = true →
      (∀ w, s.serve? core (s.core core).hold = some (lv, idx, .task n, .sub w) →
        ∃ t x, exec (.stampItem core slot) s = .next t ∧ t.thr? (slotidOf core slot) = some x
          ∧ x.kind = .impression n w.forme w.item w.next w.depth ∧ x.pc = w.entry
          ∧ x.regs = impRegs (BitVec.ofNat 32 w.item) (BitVec.ofNat 32 w.next) ∧ x.userMode = true ∧ x.level = lv)
      ∧ (∀ i k, s.serve? core (s.core core).hold = some (lv, idx, .task n, .item i) → s.task? n = some k →
        ∃ t x, exec (.stampItem core slot) s = .next t ∧ t.thr? (slotidOf core slot) = some x
          ∧ x.kind = .impression n (formeKey n) i 0 0 ∧ x.pc = BitVec.ofNat 32 k.hdr.entry
          ∧ x.regs = impRegs (BitVec.ofNat 32 i) 0 ∧ x.userMode = true ∧ x.level = lv)
      ∧ (∀ j, (s.serve? core (s.core core).hold = some (lv, idx, .task n, .join j)
            ∨ s.serve? core (s.core core).hold = some (lv, idx, .task n, .image j)) →
        exec (.resume core slot) s = .next ((s.served core lv idx).restore core slot lv j n)))
    ∧ (∀ sender m, s.ready? act = some (.msg sender core m) → s.coreFenced core = false → s.coreWiping core = false →
      ∀ u prio entry seg, m.type ≠ 0 → m.type ≠ 1 → m.type ≠ 4 → s.vecEntry core m.type = .usable u 1 prio entry seg →
        (u.core core).msgs.length < 64 →
        exec (.messageArrival act) s =
          .next (((u.modCore core fun c => { c with msgs := c.msgs ++ [m] }).dropAct act).ackTo core sender))
    ∧ (∀ sender m page prio, s.ready? act = some (.msg sender core m) → s.coreFenced core = false → s.coreWiping core = false →
      m.type ≠ 0 → m.type ≠ 1 → m.type ≠ 4 → s.vecEntry core m.type = .absent page 1 prio → (s.core core).msgs.length < 64 →
        exec (.messageArrival act) s =
          .next (((s.modCore core fun c => { c with msgs := c.msgs ++ [m] }).dropAct act).ackTo core sender))
    ∧ (∀ m u cls prio entry seg, s.slotFree core slot 1 = true → (s.core core).msgs = [m] →
      s.vecEntry core m.type = .usable u cls prio entry seg →
      ∃ t x, exec (.handlerThreadStart core slot) s = .next t ∧ t.thr? (slotidOf core slot) = some x ∧ (t.core core).msgs = []
        ∧ x.kind = .handler ∧ x.pc = entry ∧ x.segs.look 1 = some seg ∧ x.userMode = false
        ∧ x.regs.s = [(16, m.w0), (17, m.w1), (18, m.s18)])
    ∧ (∀ sender reg v x, s.ready? act = some (.fill sender core slot false reg v true) → s.coreFenced core = false →
      s.coreWiping core = false → s.thr? (slotidOf core slot) = some x → 16 ≤ reg → reg < 32 → ¬ (slot = 0 ∧ 28 ≤ reg) →
      exec (.remoteFill act) s = .next ((((s.dropAct act).fillS (slotidOf core slot) reg (v.truncate 32)).noteFill
        (slotidOf core slot) reg).ackTo core sender))
    ∧ (∀ sender reg v x, s.ready? act = some (.fill sender core slot true reg v true) → s.coreFenced core = false →
      s.coreWiping core = false → s.thr? (slotidOf core slot) = some x → 8 ≤ reg → reg < 16 →
      exec (.remoteFill act) s = .next ((((s.dropAct act).fillV (slotidOf core slot) reg v).noteFill
        (slotidOf core slot) (32 + reg)).ackTo core sender))
    ∧ (∀ id b, ((s.core core).victims = [] ∧ s.wantVictim core = some id) ∨ ((s.core core).victims = [(id, b)] ∧ (s.thr? id).isSome = true) →
      (s.thr id).exiting = false → (s.thr id).halted = false → (s.thr id).cancelled = false →
      (s.defers id = false → exec (.preempt core) s = .next (s.saveThread id))
      ∧ (s.defers id = true → exec (.preempt core) s = .next (s.modCore core fun c =>
          { c with victims := c.victims.put id (c.victims.lookD id false) })))
    ∧ ((s.core core).victims = [] → s.wantVictim core = none → exec (.preempt core) s = .next s)
    ∧ (∃ t, exec (.imageSaveDone n) s = .next t
        ∧ (∀ k im, s.images.look k = some im → t.images.look k = some (if im.slot = n then { im with saved := true } else im))
        ∧ { t with images := s.images } = s)
    ∧ (∀ cls src ws, s.ready? act = some (.packet cls src core ws) → s.coreWiping core = false → s.packetHeld cls src core = false →
      (if cls = .request then (s.core core).rxReq else (s.core core).rxColl).length + ws.length ≤ 64 →
      ∃ t, exec (.packetDelivery act) s = .next t
        ∧ (if cls = .request then (t.core core).rxReq else (t.core core).rxColl) =
            (if cls = .request then (s.core core).rxReq else (s.core core).rxColl) ++ ws)
    ∧ (∀ cls src fabric group ws port, s.ready? act = some (.away cls src fabric group ws port) →
      (s.isFenced 4 port = false → cls ≠ .collective ∨ (s.coreHeld (storeyOf src) src = false
          ∧ s.pathHeld (rowLinks (storeyOf src) (portDie port)) = false) →
        exec (.packetDelivery act) s = .next { s.dropAct act with
          out := s.out ++ [.packet fabric cls (fieldOf (ws.headD 0) 19 13) group (remoteWords src Config.fabricId ws)] })
      ∧ (s.isFenced 4 port = true → exec (.packetDelivery act) s = .next ((s.dropAct act).bouncePacket cls src ws))
      ∧ exec (.transportGiveUp act) s = .next (((s.dropAct act).bouncePacket cls src ws).fence 4 3 port))

/-! ### Traffic between units (08 R172, R191-R198, 09 R207-R213, R328) -/

/-- R172, R191-R198, R210-R213, R225, R227-R228, R320-R325, R365: requests at their targets and what comes back. A load reads
and a store writes the bytes of its place, and in another core's guarded region they read zero and write nothing; an atomic
returns the old word and leaves the new one, an SC atomic at the end of its window and by SLOTID; a synchronising request is
performed or waits; a reply fills its register and lets the thread go on; an acknowledgement lowers UNACK; SC replies end
with their window; engine operations complete on their tags, stall or wait; a sketch operation makes one access at a time;
a met watch gives its value; a fired trigger starts its copy. Logs 6, 27, 38 and 43: the instants of an engine's accesses,
multi-copy atomicity, the order of sketch operations and the restart of a copy are the model's choices. -/
def Obligations.TrafficEvents : Prop :=
  ∀ (s : State) (act id : Nat) (pc : Word) (addr : Addr) (l : Loc),
    let u := s.dropAct act
    let core := s.coreOfAny id
    let part := (s.partOf core).getD 16
    ((∀ k n o, l ≠ .reg k n o) → s.locDenied id l = false → s.locFenced l = false →
      (∀ n hint dest foot size va, s.ready? act = some (.load id pc addr hint [{ loc := l, n := n, foot := foot, size := size, addr := va }] dest) →
        s.locMoving l n = false → s.locWiping l = false → s.sketchAhead act id l n = false →
        let v := u.reach (storeyOf core) part hint l
        exec (.remoteAccessArrival act) s = .next (if s.footGuarded l foot size = true
          then u.replyAs (s.unitOf l) id (.reply id pc addr dest (List.replicate n 0) false false none)
          else (v.dropLoc core l).replyAs (s.unitOf l) id (.reply id pc addr dest (v.readOwn id part l n) false false none)))
      ∧ (∀ hint bs foot size va, s.ready? act = some (.store id addr hint [{ loc := l, bytes := bs, foot := foot, size := size, addr := va }]) →
        s.held act id l bs.length = false →
        exec (.remoteAccessArrival act) s = .next ((if s.footGuarded l foot size = true then u
          else (u.countAt (storeyOf core) part l).writeLoc part hint l bs).replyAs (s.unitOf l) id (.ack id)))
      ∧ (s.held act id l 4 = false → (core = s.unitOf l ∨ s.locGuarded l 4 = false) →
        let v := (u.countAt (storeyOf core) part l).dropLoc core l
        let old : Word := BitVec.ofNat 32 (leNat (v.readEng part l 4))
        (∀ op b e d order sc, s.ready? act = some (.amo id pc addr l op b e d order sc) → order < 4 →
          exec (.remoteAccessArrival act) s = .next ((v.writeEng part 0 l (leBytes 4 (amoNew op old b e).toNat)).replyAs (s.unitOf l) id
            (.reply id pc addr (.scalar d 4 false) (leBytes 4 old.toNat) false true (if order = 1 ∨ order = 3 then some sc else none))))
        ∧ (∀ op b e d sc, s.ready? act = some (.amo id pc addr l op b e d 4 sc) →
          exec (.remoteAccessArrival act) s = .next (u.postFree (.scHold id pc addr l op b e d sc true)))
        ∧ (∀ n, s.ready? act = some (.decEvent (some id) addr l n) → s.locGuarded l 4 = false →
          exec (.remoteAccessArrival act) s = .next (((v.decEventAt part l n).pollHeld).replyAs (s.unitOf l) id (.ack id)))))
    ∧ ((s.scHeld.map Prod.fst).Pairwise (· ≤ ·)
      ∧ (s.cycle % 64 = 63 → s.closeWindow = s.scHeld.foldl (fun w x => w.scPerform x.2) s)
      ∧ ∀ fs op b e d sc c, s.acts.look act = some { flows := fs, kind := .scHold id pc addr l op b e d sc c } →
        s.locDenied id l = false → s.held act id l 4 = false → (core = s.unitOf l ∨ s.locGuarded l 4 = false) →
        let v := (s.countAt (storeyOf core) part l).dropLoc core l
        let old : Word := BitVec.ofNat 32 (leNat (v.readEng part l 4))
        s.scPerform act = (v.writeEng part 0 l (leBytes 4 (amoNew op old b e).toNat)).setAct act
          (.scWait (s.cycle / 64) id pc d old sc c))
    ∧ (∀ c off n, s.ready? act = some (.feclr id c off n) → (s.core c).movingBytes off (4 * n) = false → s.coreWiping c = false →
        s.coreFenced c = false → (s.core c).guarded off (4 * n) = false →
        exec (.remoteAccessArrival act) s = .next ((State.clearWords c n u off).sendAck c id))
    ∧ (∀ r c off, s.ready? act = some (.sync r c off) → s.coreFenced c = false → s.coreWiping c = false →
        (s.core c).movingBytes off 4 = false → (s.core c).guarded off 4 = false →
        (s.syncNow c off r.op = true → exec (.syncRequestArrival act) s =
          .next (((u.syncAnswer c r (s.tcmWord c off)).syncAt c off r).serve c off))
        ∧ (s.syncNow c off r.op = false → exec (.syncRequestArrival act) s = .next (u.syncWait c off r)))
    ∧ (∀ d bs counted acq x, s.ready? act = some (.reply id pc addr (.scalar d 4 false) bs false counted acq) → id < 131072 →
        s.thr? id = some x → x.filled.look d ≠ some s.cycle → slotOf id ≠ 0 → 0 < d → d < 32 →
        ∃ t y, exec (.accessReply act) s = .next t ∧ t.thr? id = some y ∧ y.park = none ∧ y.pc = x.pc
          ∧ y.unack = (if counted then x.unack - 1 else x.unack)
          ∧ y.regs = x.regs.putS d (BitVec.ofNat 32 (leNat (bs.take 4))) ∧ t.cur = s.cur ∧ t.memory = s.memory)
    ∧ (∀ dest bs counted acq x, s.ready? act = some (.reply id pc addr dest bs true counted acq) → id < 131072 → s.thr? id = some x →
        exec (.accessReply act) s = .next ((u.modThr id fun t =>
          { t with unack := if counted then t.unack - 1 else t.unack, pc := pc, park := none }).takeTrap id 7 addr pc))
    ∧ (∀ x, s.ready? act = some (.ack id) → id < 131072 → s.thr? id = some x →
        exec (.acknowledgement act) s = .next (u.modThr id fun t => { t with unack := x.unack - 1 }))
    ∧ (∀ w d v sc counted x, s.acts = [(act, { flows := [], kind := .scWait w id pc d v sc counted })] → w < s.cycle / 64 →
        id < 131072 → s.thr? id = some x → x.filled.look d ≠ some s.cycle → slotOf id ≠ 0 → 0 < d → d < 32 →
        ∃ t y, exec .scWindowClose s = .next t ∧ t.acts = [] ∧ t.thr? id = some y ∧ y.park = none ∧ y.regs = x.regs.putS d v
          ∧ y.unack = (if counted then x.unack - 1 else x.unack))
    ∧ (∀ c, s.ready? act = some (.copy c) →
        let at_ := s.coreOfAny c.slot
        let p := (s.partOf at_).getD 16
        let moved := copyRows c.slot at_ p c.hint c.fill c.rows u
        s.inOrder act at_ p c.addrs = true →
        (∀ w cause, moved = .done w cause → exec (.copyComplete act) s = .next ((w.modCore (w.coreOfAny c.slot) fun x =>
            { x with copies := x.copies - 1 }).tagDone c.slot c.tag (cause != 0) cause))
        ∧ (∀ page acc, moved = .stall page acc →
            exec (.copyComplete act) s = .next (s.pageFaulted (storeyOf at_) page acc (flightOf at_)))
        ∧ (moved = .wait → exec (.copyComplete act) s = .next s))
    ∧ (∀ n w cause, s.ready? act = some (.near n) →
        let at_ := s.coreOfAny n.slot
        let p := (s.partOf at_).getD 16
        s.inOrder act at_ p n.addrs = true → nearRun n at_ p u = .done w cause →
        exec (.nearMemoryComplete act) s = .next ((w.modCore (w.coreOfAny n.slot) fun x =>
          { x with copies := x.copies - 1 }).tagDone n.slot n.tag (cause != 0) cause))
    ∧ (∀ k op sat cause, s.ready? act = some (.sketch id k op sat cause) →
        let next (v : State) (op : SkOp) (sat : Bool) (cause : Nat) : Prop :=
          exec (.skupdComplete act) s = .next (v.setAct act (.sketch id k op sat cause))
        let free (va : Nat) : Prop := s.skFree act id va = true
        let fails (c : Nat) : Nat := if cause = 0 then c else cause
        (∀ tag todo, op = .upd tag todo → todo ≠ [] →
          let may := todo.filter fun x => s.skFree act id x.1
          let y := s.skUpdPick may
          let v := { s with draws := s.draws + 1 }
          (may = [] → exec (.skupdComplete act) s = .next s)
          ∧ (may ≠ [] → y ∈ todo ∧ free y.1 ∧ (todo.find? fun x => x.1 == y.1) = some y
            ∧ (∀ t w, v.skAccess core part y.1 (some fun w => skSum w y.2) = .ok t w →
                next t (.upd tag (todo.erase y)) (sat || skClamps w y.2) cause)
            ∧ (∀ t c, v.skAccess core part y.1 (some fun w => skSum w y.2) = .refused t c →
                next t (.upd tag (todo.erase y)) sat (fails c))))
        ∧ (∀ tag, op = .upd tag [] → free k.stat → sat = false → cause = 0 → exec (.skupdComplete act) s =
            .next ((u.modAny id fun t => { t with unack := t.unack - 1 }).tagDone id tag false 0))
        ∧ (∀ tag t w, op = .upd tag [] → free k.stat → (sat = true ∨ cause ≠ 0) →
            s.skAccess core part k.stat (some fun w => w ||| ((if sat then 1 else 0) ||| (if cause = 0 then 0 else 2))) = .ok t w →
            exec (.skupdComplete act) s =
              .next (((t.dropAct act).modAny id fun t => { t with unack := t.unack - 1 }).tagDone id tag (cause != 0) cause))
        ∧ (∀ vd va neg todo got t w, op = .qry vd ((va, neg) :: todo) got → free va → s.skAccess core part va none = .ok t w →
            next t (.qry vd todo (got ++ [some (if neg then -w.toInt else w.toInt)])) sat cause)
        ∧ (∀ vd got, op = .qry vd [] got → free k.stat → sat = false → cause = 0 → exec (.skupdComplete act) s =
            .next (u.giveTo id fun t => t.keepFill (32 + vd) (t.wV vd (ofLanes 32 ((List.range 16).map (k.estimate got))))))
        ∧ (∀ d src n t w, op = .add d src n none → n < k.count → free (src.base + 4 * n) →
            s.skAccess core part (src.base + 4 * n) none = .ok t w → next t (.add d src n (some w)) sat cause)
        ∧ (∀ d src n v t w, op = .add d src n (some v) → n < k.count → free (k.base + 4 * n) →
            s.skAccess core part (k.base + 4 * n) (some fun w => skSum w v.toInt) = .ok t w →
            next t (.add d src (n + 1) none) (sat || skClamps w v.toInt) cause)
        ∧ (∀ d src n, op = .add d src n none → k.count ≤ n → free k.stat → sat = false → cause = 0 →
            exec (.skupdComplete act) s = .next (u.giveTo id fun t => t.keepFill d (t.wS d 0)))
        ∧ (∀ n t w, op = .clr n → n < k.count → free (k.base + 4 * n) →
            s.skAccess core part (k.base + 4 * n) (some fun _ => 0) = .ok t w → next t (.clr (n + 1)) sat cause)
        ∧ (∀ n t w, op = .clr n → k.count ≤ n → free k.stat → cause = 0 →
            s.skAccess core part k.stat (some fun w => (w &&& ~~~3) ||| 0) = .ok t w →
            exec (.skupdComplete act) s = .next ((t.dropAct act).giveTo id fun t => t)))
    ∧ (∀ thr sc v x, s.ready? act = some (.watch id l thr sc (some v)) → s.thr? id = some x →
        exec (.counterWatchMet act) s = .next (u.modThr id fun t => { t with ans := some [v] }))
    ∧ (∀ thr c v, s.ready? act = some (.trigger id l thr (.copy c) (some v)) → id < 131072 → c.isEmpty = false →
        (s.core (coreOf id)).copies < 32 →
        exec (.triggerFire act) s = .next (((u.modThr id fun t => { t with armed := t.armed - 1 }).modCore (coreOf id) fun x =>
          { x with copies := x.copies + 1 }).postFree (.copy c)))
    ∧ (∀ fs k, s.acts.look act = some { flows := fs, kind := .bounced k } →
        exec (.bouncedRequestReissue act) s = .next { s with acts := s.acts.put act { flows := fs, kind := k } })

/-! ### The Gallery, landings and groups (12 R265-R306, 13 R331-R348) -/

/-- R266, R274, R276-R282, R286-R289, R294, R298, R302: operations at their homes. A put is served and its status answered; a
READ or TAKE is served, waits, or is retried when 65,536 waiters stand; an operation on a hall that the home does not have
ends with NOHALL; a cancel withdraws the waiters that it names and tells how many; a split copies, flips, drains and ends, an
operation on a range that has moved is sent on, and REDIRECTS counts it. R287: the source flips once the destination has
applied every change, and tells it so. Logs 10 and 75: what other packages answer arrives from outside, and a put does
not wait for another package's part of a delivery (DESIGN CHOICE and DEDUCED). -/
def Obligations.GalleryEvents : Prop :=
  ∀ (s : State) (act id hall slice : Nat) (h : Hall) (r : GReq),
    let u := s.dropAct act
    let own := Config.fabricId
    let arrives (t : State) : Prop :=
      (r.op.puts = true → exec (.galleryPutArrival act) s = .next t)
      ∧ (r.op.gets = true → exec (.galleryMatchRequest act) s = .next t)
      ∧ (r.op = .cancel → exec (.galleryCancelArrival act) s = .next t)
    (∀ home, s.ready? act = some (.gal r home slice) → r.slot = some id → s.isHeld act = false →
      (s.heldBack act r home = true → arrives (s.unflow act))
      ∧ (s.heldBack act r home = false → s.atInterface act r = true → arrives (u.sendGal r home slice))
      ∧ (s.heldBack act r home = false → s.atInterface act r = false → s.sourceBlocked r = true → arrives s)
      ∧ (s.heldBack act r home = false → s.atInterface act r = false → s.sourceBlocked r = false →
        let v := (s.unretry slice r).dropAct act
        (home ≠ own → arrives (u.sendAway r home false))
        ∧ (home = own → (s.moveState r = .hold → arrives (s.holdAct r slice act))
          ∧ (∀ f, s.moveState r = .redirect f →
              arrives ((u.unretry slice r).postFree (.redirect { r with again := false, moved := false } f)))
          ∧ (s.moveState r = .serve →
            ((r.again = false ∧ (s.slice slice).retry.contains r.who = true) ∨ s.storeFull r slice = true →
              arrives ((if r.again then u else u.modSlice slice fun x => { x with retry := x.retry ++ [r.who] }).postFree
                (.retry r own slice)))
            ∧ ((r.again = true ∨ (s.slice slice).retry.contains r.who = false) → s.storeFull r slice = false →
              (s.heapHeld r slice = true → arrives s)
              ∧ (s.heapHeld r slice = false →
                (r.op ≠ .cancel → s.hallAt r = none → arrives (v.answer r slice stNOHALL (homeLane slice)))
                ∧ (r.op ≠ .cancel → s.hallAt r ≠ none → s.isFenced 2 slice = true → arrives (v.answer r slice stFENCED (homeLane slice)))
                ∧ (s.hallAt r = some h → s.isFenced 2 slice = false →
                  (r.op.puts = true →
                    let p := v.putSource r
                    let w := p.1.servePut slice h (tupleOf r.hall r.tmpl p.2.1) p.2.2 (some r)
                    exec (.galleryPutArrival act) s = .next (if w.2 = stTAKEN then w.1 else w.1.answer r slice w.2 (homeLane slice)))
                  ∧ (r.op.gets = true →
                    exec (.galleryMatchRequest act) s = .next (v.serveMatch r slice)
                    ∧ (h.split = none → ((s.slice slice).tuples.any fun t => t.hall == r.hall && t.matchesT r.tmpl) = false →
                      (r.mode = .poll → exec (.galleryMatchRequest act) s = .next (v.answer r slice stNOMATCH (homeLane slice)))
                      ∧ (r.mode = .wait → s.hall? r.hall = some h → exec (.galleryMatchRequest act) s =
                          .next (v.modSlice slice fun x => { x with waiters := x.waiters ++ [r] })))))
                ∧ (r.op = .cancel →
                  let w := v.withdraw slice fun q => q.fabric == r.fabric && r.nos.contains q.no
                  exec (.galleryCancelArrival act) s = .next (w.1.answer r slice w.2 (homeLane slice)))))))))
    ∧ (∀ n x, s.acts = [(act, { flows := [], kind := .galAnswer r slice n })] → s.pkg.away = [] → r.op = .cancel → r.slot = some id →
        r.ends = false → id < 131072 → s.thr? id = some x →
        exec (.galleryCancelArrival act) s = .next (u.modThr id fun t =>
          { t with withdrawn := x.withdrawn + n, ans := some [BitVec.ofNat 32 (x.withdrawn + n)] }))
    ∧ (∀ vd tag st home x, s.ready? act = some (.putAnswer id vd tag st home) → vd < 8 → id < 131072 → s.thr? id = some x →
        ∃ t y, exec (.putAnswer act) s = .next t ∧ t.thr? id = some y ∧ y.unack = x.unack - 1 ∧ y.regs = x.regs
          ∧ y.tagOf tag = (x.tagOf tag).done (putErr st) (if st = 8 then 7 else 0))
    ∧ (∀ no x, s.pkg.away.look no = some x → x.req.slot = some id →
        let gone := u.modPkg fun g => { g with away := g.away.del no }
        (s.ready? act = some (.peerAnswer no .accepted) → exec (.putAnswer act) s =
          .next (u.modPkg fun g => { g with away := g.away.put no { x with accepted := true, waits := x.waits || false } }))
        ∧ (s.ready? act = some (.peerAnswer no .retry) → exec (.putAnswer act) s = .next (gone.postFree (.retry x.req x.home 0)))
        ∧ (∀ f, s.ready? act = some (.peerAnswer no (.redirect f)) →
            exec (.putAnswer act) s = .next (gone.postFree (.redirect { x.req with again := false, moved := false } f)))
        ∧ (∀ st home, s.ready? act = some (.peerAnswer no (.status st home)) → x.req.op.puts = true →
            exec (.putAnswer act) s = .next (gone.putAnswer id x.req.vd x.req.tag st home)))
    ∧ (∀ home, s.acts = [(act, { flows := [], kind := .retry r home slice })] →
        (∀ no x, (no, x) ∈ s.pkg.away → x.req.again = false) → (home = own → s.storeFull r slice = false) →
        exec (.retryReissue act) s = .next (u.sendGal { r with again := true } home slice))
    ∧ (∀ f, s.acts = [(act, { flows := [], kind := .redirect r f })] → r.slot = some id → s.hall? r.hall = some h →
        exec (.redirectReissue act) s =
          .next ((if r.moved then u else u.modPkg fun g => { g with redirects := g.redirects + 1 }).sendGal { r with moved := true } f
            (s.homeSlice r.hall h r.tmpl)))
    ∧ (∀ first, s.ready? act = some (.srcNotice hall slice first) →
        exec (.sourceHomeNotice act) s = .next (u.modSlice slice fun x =>
          { x with heap := x.heap.put hall ((x.heap.lookD hall []).filter fun g => g.1 != first) }))
    ∧ (s.hall? hall = some h →
        (∀ t, s.ready? act = some (.mirrorPut hall t) → exec (.mirroredChange act) s =
          .next ((u.modSlice (s.homeSlice hall h (tupleKey t)) fun x =>
            { x with tuples := x.tuples ++ [{ t with seq := x.seq }], seq := x.seq + 1 }).applied hall 1))
        ∧ (s.ready? act = some (.mirrorWait hall r) → exec (.mirroredChange act) s =
          .next ((u.modSlice (s.homeSlice hall h r.tmpl) fun x => { x with waiters := x.waiters ++ [r] }).applied hall 1))
        ∧ (∀ m hi source, s.ready? act = some (.splitMsg hall .copy m hi source) →
          let sp : Split := { m := m, hi := hi, dest := own, source := source, isSrc := false, isDst := true, phase := .copy }
          let v := u.putHall hall { h with split := some sp, past := h.pastWith m hi }
          exec (.mirroredChange act) s = .next (v.applied hall 0)
          ∧ (v.applied hall 1).out = s.out ++ [.peer source (.splitAck hall (sp.changes + 1))])
        ∧ (∀ m hi dest source, s.acts = [(act, { flows := [], kind := .rangeEntry hall m hi dest source })] →
          exec (.rangeEntryAck hall own) s = .next { u.putHall hall { h with dir := moveEntry h.dir m dest, moving := some (m, hi, source) } with
            out := s.out ++ [.rangeAck source hall] }))
    ∧ (∀ sp, s.hall? hall = some h → h.split = some sp →
        let drained := { h with split := some { sp with phase := .drain, held := [] } }
        let ended := { h with split := some { sp with phase := .done, held := [] } }
        (sp.phase = .copy → sp.isSrc = true → s.ackedChanges hall sp.changes = false → exec (.splitFlip hall) s = .next s)
        ∧ (sp.phase = .copy → sp.isSrc = true → s.ackedChanges hall sp.changes = true → ∃ t, exec (.splitFlip hall) s = .next t
          ∧ t.hall? hall = some { h with
              dir := moveEntry h.dir sp.m sp.dest, split := some { sp with phase := .flip }, moving := some (sp.m, sp.hi, sp.source) }
          ∧ ∀ n y, (n, y) ∈ t.slices → ∀ x ∈ y.tuples, x.hall = hall → sp.covers h.homef (tupleKey x) = false)
        ∧ (sp.phase = .copy → sp.isSrc = false → s.splitMark hall .flip = some act → s.mirroring hall = false →
          ∃ t, exec (.splitFlip hall) s = .next t ∧ t.hall? hall = some { h with
              dir := moveEntry h.dir sp.m sp.dest, split := some { sp with phase := .flip }, moving := some (sp.m, sp.hi, sp.source) })
        ∧ (∀ fabric, fabric ≠ own → sp.phase = .flip → exec (.rangeEntryAck hall fabric) s =
            .next (s.putHall hall { h with split := some { sp with acks := insertNat fabric sp.acks } }))
        ∧ (sp.phase = .flip → sp.isSrc = true → sp.held = [] →
            ((s.peers.filter fun p => p.groups.contains h.group).map Peer.fabric).all (fun f => sp.acks.contains f) = true →
            ∃ t, exec (.splitDrain hall) s = .next t ∧ t.hall? hall = some drained
              ∧ t.out = s.out ++ [.peer sp.dest (.splitMsg hall .drain sp.m sp.hi sp.source), .peer sp.dest (.splitMsg hall .done sp.m sp.hi sp.source)])
        ∧ (sp.phase = .flip → sp.isSrc = true →
            ((s.peers.filter fun p => p.groups.contains h.group).map Peer.fabric).all (fun f => sp.acks.contains f) = false →
            exec (.splitDrain hall) s = .next s)
        ∧ (sp.phase = .flip → sp.isSrc = false → s.splitMark hall .drain = some act →
            exec (.splitDrain hall) s = .next (u.putHall hall drained))
        ∧ (sp.phase = .drain → (∀ n a, (n, a) ∈ s.acts → ∀ q hm k, a.kind ≠ .gal q hm k) →
            (sp.isSrc = true → exec (.splitDone hall) s = .next (s.putHall hall ended))
            ∧ (sp.isSrc = false → s.splitMark hall .done = some act → exec (.splitDone hall) s = .next (u.putHall hall ended))))

/-- R332-R334, R340-R341: a landing counts the oldest arrival that has come, answers it with its generation and shows the new
count and generation to the cores; the last arrival of a generation flips it. A contribution to a group stays at its node
until the round is complete, or on its link while that is held back; the round's result makes the contributor's record ready.
-/
def Obligations.LandingGroupEvents : Prop :=
  ∀ (s : State) (act slot n due : Nat),
    let u := s.dropAct act
    (s.ready? act = some (.arrival slot n due) → due ≤ s.cycle → (∀ k ∈ s.arrivalKeys, due < k.1 ∨ (k.1 = due ∧ slot ≤ k.2)) →
      let l := s.landing n
      let l' : Landing :=
        if l.arrived + 1 = l.count then { l with gen := l.gen + 1, arrived := 0 } else { l with arrived := l.arrived + 1 }
      exec (.landingArrival act) s = .next (((u.modLanding n fun _ => l').postFree
        (.landAck slot n l.gen (s.cycle + 12))).postFree (.flip n l'.gen l'.arrived (s.cycle + 12))))
    ∧ (∀ gen, s.ready? act = some (.landAck slot n gen due) → due ≤ s.cycle → slot < 131072 →
      exec (.landingAck act) s = .next (u.modThr slot fun t => { t with ans := some [gen] }))
    ∧ (∀ gen arr, s.nextFlip n = some (act, gen, arr, due) → due ≤ s.cycle →
      exec (.landingFlipSeen n) s = .next (u.modLanding n fun l => { l with seenGen := gen, seenArr := arr }))
    ∧ (∀ st g c e, s.ready? act = some (.collIn false st g 0 c) → (s.node false st g).entry = some e →
      (s.linkHeld false st 0 c = true → exec (.collectiveArrival act) s = .next s)
      ∧ ((s.node false st g).locals.length + 1 < e.lcnt → s.linkHeld false st 0 c = false →
        exec (.collectiveArrival act) s = .next (u.modNode false st g fun x => { x with locals := x.locals ++ [c] })))
    ∧ (∀ st g e (x : CollNode) (v : Word), s.ready? act = some (.collIn false st g 0 { slot := some slot, lanes := [sval 32 v.toNat] }) →
      s.node false st g = x → x.entry = some e → x.locals = [] → x.partials = [] → e.en = true → e.op = 0 → e.lcnt = 1 →
      e.child = 0 → e.parent = 7 → s.coreHeld st (s.coreOfAny slot) = false →
      ∃ t, exec (.collectiveArrival act) s = .next t ∧ (t.acts.look s.nextAct).map Act.kind =
        some (.collResult slot g (v.zeroExtend 512)))
    ∧ (∀ st g r e who kids rest, s.ready? act = some (.collDown st g r) → (s.node false st g).entry = some e →
      (s.node false st g).waiting = (who, kids) :: rest →
      (s.downHeld st g = true → exec (.collectiveArrival act) s = .next s)
      ∧ (s.downHeld st g = false → e.op ≠ 6 → exec (.collectiveArrival act) s =
          .next ((u.modNode false st g fun x => { x with waiting := rest, sent := x.sent.drop 1 }).sendDown false st g e who kids r)))
    ∧ (∀ node fabric g keys m, s.ready? act = some (.collOut node fabric g keys m) →
      (s.isFenced 4 (fabric % 8) = true → exec (.collectiveArrival act) s = .next s)
      ∧ (s.isFenced 4 (fabric % 8) = false → s.pathHeld (dieLinks node fabric) = false →
        exec (.collectiveArrival act) s = .next { u with out := s.out ++ [.collective fabric g keys m] }))
    ∧ (∀ g r, s.ready? act = some (.collResult slot g r) → slot < 131072 →
      exec (.collectiveResult act) s = .next (u.modThr slot fun t => { t with colls := t.colls.map fun c =>
        if c.group = g && !c.ready then { c with ready := true, result := r } else c }))

/-! ### Faults, resets, power (15 R386-R407, 16 R417-R426) -/

/-- R186, R390, R404-R407, R417-R426: fencing a function logs it, the fences of one cycle by kind and unit; a held FENCED trap
is taken once the thread can take it; the debugger releases a halted thread; resets leave STANDBY with every thread gone,
and a module without power loses what its stacks hold; THR rises with power or temperature, and falls when both have been low
for 2^24 cycles; a module without tasks that reaches 105 degrees records the trip and raises its vector, and 2^20 cycles after
a trip it is off, also when a package reset comes between. A fenced Ethernet port answers what is on its way through it, and a
fenced host link moves every TDI to ERROR. Logs 3, 35 and 73: what the stacks hold after power
returns, what loses its contents without power, and bits 1 and 0 of a pc that the debugger writes, are the model's choices. -/
def Obligations.FaultPowerEvents : Prop :=
  ∀ (s : State) (n power temp : Nat),
    (∀ kind reason, kind = 3 ∨ kind = 4 → n < fenceUnits kind → reason < 4 → s.isFenced kind n = false →
      ∃ t, exec (.functionFence kind reason n) s = .next t ∧ t.isFenced kind n = true
        ∧ t.pkg.flogCnt = s.pkg.flogCnt + 1 ∧ t.memory = s.memory ∧ t.threads = s.threads
        ∧ (s.pkg.flogCycle ≠ s.cycle → t.pkg.flog.look (s.pkg.flogCnt % 16) =
            some (BitVec.ofNat 32 (2 ^ 31 + kind * 2 ^ 28 + reason * 2 ^ 26 + n))))
    ∧ (∀ e l, l.Pairwise (fun x y => x.1 < y.1 ∨ (x.1 = y.1 ∧ x.2.1 ≤ y.2.1)) →
      (flogInsert e l).Pairwise (fun x y => x.1 < y.1 ∨ (x.1 = y.1 ∧ x.2.1 ≤ y.2.1)) ∧ (flogInsert e l).Perm (e :: l))
    ∧ (∀ reason, n < 8192 → reason < 4 → s.isFenced 0 n = false →
      exec (.functionFence 0 reason n) s = .next (((s.logFence 0 reason n).modPkg fun g =>
        { g with fences := g.fences ++ [{ kind := 0, unit := n }] }).stopCore n 6))
    ∧ (∀ kind reason, s.isFenced kind n = true → exec (.functionFence kind reason n) s = .next s)
    ∧ (∀ reason, n < 8 → reason < 4 → s.isFenced 4 n = false → ∃ t, exec (.functionFence 4 reason n) s = .next t
      ∧ ∀ no a, (no, a) ∈ s.pkg.away → flowPort a.home = n → ∃ k, (t.acts.look k).map Act.kind =
          some (.peerAnswer no (if a.req.op = .cancel then .withdrawn 0 else .status stFENCED 0)))
    ∧ (∀ reason, reason < 4 → s.isFenced 5 0 = false → ∃ t, exec (.functionFence 5 reason 0) s = .next t
      ∧ ∀ p, p < 16 → (t.part p).tdi = .error)
    ∧ (∀ a, s.ready? n = none → s.pkg.away.look n = some a →
      exec (.transportGiveUp n) s = .next (s.fence 4 3 (flowPort a.home)))
    ∧ (∀ a, (s.thr n).fencedTrap = some a → s.canRaise n = true → s.syncPending n = none →
      let v := (s.withdrawWatch n).modThr n fun t => { t with park := none, ans := none }
      let w := v.takeTrap n 7 a (s.thr n).pc
      (w.thr n).trapActive = true →
        exec (.deferredFencedTrap n) s = .next (w.modThr n fun t => { t with fencedTrap := none }))
    ∧ (∀ newPc x, s.pkg.life ≠ .production → s.thr? n = some x → x.halted = true →
      exec (.debugRelease n newPc) s = .next (s.modThr n fun t =>
        { t with halted := false, pc := (newPc.map fun v => v &&& 0xFFFFFFFC).getD (t.pc + 4) }))
    ∧ (s.pkg.life = .production → ∀ newPc, exec (.debugRelease n newPc) s = .next s ∧ exec (.debugReset n) s = .next s)
    ∧ (s.pkg.life ≠ .production → n < 8192 →
      let u := (s.stopCore n 1).modCore n fun c => { c with resetting := true }
      ((∀ id x, (id, x) ∈ u.threads → coreOf id ≠ n) → exec (.debugReset n) s = .next (u.wipeCore n))
      ∧ (∀ id x, (id, x) ∈ u.threads → coreOf id = n → exec (.debugReset n) s = .next u))
    ∧ (∃ t, exec .powerOnReset s = .next t ∧ t.pkg.state = .standby ∧ t.threads = [] ∧ t.memory.stack = [] ∧ t.memory.sram = []
      ∧ t.memory.pool = s.memory.pool ∧ t.memory.host = s.memory.host ∧ t.pkg.life = s.pkg.life ∧ t.cycle = 0)
    ∧ (∃ t, exec .powerRemoved s = .next t ∧ t.pkg.state = .off ∧ t.threads = [] ∧ t.memory.sram = [])
    ∧ (∃ t, exec .packageReset s = .next t ∧ t.pkg.state = .standby ∧ t.threads = [] ∧ t.memory.sram = [] ∧ t.pkg.tasks = []
      ∧ t.cycle = 0 ∧ t.pkg.life = s.pkg.life ∧ t.pkg.temp = 0 ∧ t.pkg.power = 0 ∧ t.pkg.offAt = s.pkg.offAt.map (fun c => c - s.cycle)
      ∧ (s.memory.dirty = [] → t.memory.stack = s.memory.stack)
      ∧ ∀ k x, k ≠ 0 → s.pkg.keys.look k = some x → t.pkg.keys.look k = some { gen := x.gen + 1 })
    ∧ (∃ t, exec (.lifeCycleChange 2 true) s = .next t ∧ t.pkg.life = .production ∧ t.threads = [] ∧ t.memory.sram = []
      ∧ (∀ k x, s.pkg.keys.look k = some x → t.pkg.keys.look k = some { gen := x.gen + 1 })
      ∧ t.pkg.keys.lookD 0 {} = { gen := (s.pkg.keys.lookD 0 {}).gen + 1 })
    ∧ exec (.lifeCycleChange 2 false) s = .next s
    ∧ ((s.storey n).wiping = true → exec (.wipeComplete n) s = .next (s.modStorey n fun x => { x with wiping := false }))
    ∧ (power < 4096 → temp < 256 →
      let hot : State := s.modPkg fun g => { g with power := power, temp := temp, coolFrom := s.cycle, thr := min 3 (g.thr + 1) }
      2200 < power ∨ 95 < temp → temp < 105 ∨ s.pkg.offAt ≠ none →
      exec (.thrRise power temp) s = .next hot ∧ exec (.thrFall power temp) s = .next hot
      ∧ (s.pkg.power = power → exec (.thermalTrip temp) s = .next hot))
    ∧ (power ≤ 2100 → temp ≤ 90 → s.pkg.power ≤ 2100 → s.pkg.temp ≤ 90 →
      exec (.thrFall power temp) s = .next (if s.pkg.coolFrom + 2 ^ 24 ≤ s.cycle
        then s.modPkg fun g => { g with power := power, temp := temp, thr := g.thr - 1, coolFrom := s.cycle }
        else s.modPkg fun g => { g with power := power, temp := temp }))
    ∧ (105 ≤ temp → temp < 256 → power < 4096 → s.pkg.offAt = none → s.pkg.tasks = [] → s.pkg.pfMasked.getLsbD 2 = false →
      let tripped (t : State) : Prop := t.pkg.offAt = some (s.cycle + 2 ^ 20) ∧ t.out = s.out ++ [.msix 0 2] ∧ t.pkg.temp = temp
      (∃ t, exec (.thermalTrip temp) s = .next t ∧ tripped t) ∧ (∃ t, exec (.thrRise power temp) s = .next t ∧ tripped t)
      ∧ (∃ t, exec (.thrFall power temp) s = .next t ∧ tripped t))
    ∧ (∀ c, s.pkg.offAt = some c →
      (c ≤ s.cycle → ∃ t, exec .thermalOff s = .next t ∧ t.pkg.state = .off ∧ t.threads = [] ∧ t.pkg.tasks = [])
      ∧ (s.cycle < c → exec .thermalOff s = .next s))
    ∧ exec (.poolModuleFailure n) s = .next (s.modPkg fun g => { g with poolFailed := insertNat n g.poolFailed })

/-! ### The whole machine (02 R32-R38, 07 R121, 16 R417-R426) -/

namespace Sys2Proof.Cert

/-- The instruction that decoding answers: rows that only a register's value tells apart share a word (log 13). -/
def coreOfWord : Instr → Instr
  | .halldefRetire d a b => .halldefDefine d a b
  | .remapwRelease a b => .remapwAppend a b
  | .remapwClose a b => .remapwAppend a b
  | .remapcDefine a b => .remapcPool a b
  | .remapcReset a b => .remapcPool a b
  | i => i

/-- Instructions that store nothing and never trap: arithmetic but JALR, branches, vector lanes, masks and transfers, tag
tests, fences, presence bits, WFM, NJOIN, FINFO, RPUT, SEGRD and LANDQ. -/
def silent : Instr → Bool
  | .add _ _ _ | .sub _ _ _ | .and _ _ _ | .or _ _ _ | .xor _ _ _ | .andn _ _ _ | .orn _ _ _ | .xnor _ _ _ => true
  | .sll _ _ _ | .srl _ _ _ | .sra _ _ _ | .rol _ _ _ | .ror _ _ _ | .slt _ _ _ | .sltu _ _ _ => true
  | .min _ _ _ | .max _ _ _ | .minu _ _ _ | .maxu _ _ _ | .mul _ _ _ | .mulh _ _ _ | .mulhu _ _ _ | .mulhsu _ _ _ => true
  | .div _ _ _ | .divu _ _ _ | .rem _ _ _ | .remu _ _ _ => true
  | .clz _ _ | .ctz _ _ | .popc _ _ | .sextb _ _ | .sexth _ _ | .zexth _ _ | .bswap _ _ => true
  | .addi _ _ _ | .andi _ _ _ | .ori _ _ _ | .xori _ _ _ | .slti _ _ _ | .sltiu _ _ _ => true
  | .slli _ _ _ | .srli _ _ _ | .srai _ _ _ | .lui _ _ | .adpc _ _ | .jal _ _ => true
  | .beq _ _ _ | .bne _ _ _ | .blt _ _ _ | .bge _ _ _ | .bltu _ _ _ | .bgeu _ _ _ => true
  | .viadd _ _ _ _ _ | .visub _ _ _ _ _ | .vimul _ _ _ _ _ | .vimin _ _ _ _ _ | .vimax _ _ _ _ _ => true
  | .viand _ _ _ _ _ | .vior _ _ _ _ _ | .vixor _ _ _ _ _ | .visll _ _ _ _ _ | .visrl _ _ _ _ _ | .visra _ _ _ _ _ => true
  | .viabs _ _ _ _ | .vadd _ _ _ _ _ | .vsub _ _ _ _ _ | .vmul _ _ _ _ _ | .vfma _ _ _ _ _ | .vfms _ _ _ _ _ => true
  | .vmin _ _ _ _ _ | .vmax _ _ _ _ _ | .vabs _ _ _ _ | .vneg _ _ _ _ | .vsqrt _ _ _ _ | .vrcp _ _ _ _ | .vrsq _ _ _ _ => true
  | .vexp2 _ _ _ _ | .vscl _ _ _ _ _ | .vcmp _ _ _ _ _ _ | .vsel _ _ _ _ _ | .vshuf _ _ _ _ _ | .vslide _ _ _ _ _ => true
  | .vredsum _ _ _ _ | .vredmax _ _ _ _ | .vredmin _ _ _ _ | .vcvt _ _ _ _ _ _ | .kand _ _ _ | .kor _ _ _ | .knot _ _ => true
  | .kmov _ _ | .vbcast _ _ _ | .vget _ _ _ _ | .vput _ _ _ _ | .kget _ _ _ | .kset _ _ _ => true
  | .wtany _ _ | .wtall _ | .tfirst _ _ | .tclr _ | .tstat _ _ | .fence _ _ | .drain | .mfmtq _ => true
  | .empty _ | .emptyv _ | .testp _ _ | .testpVector _ _ | .wfm _ | .njoin | .finfo _ _ | .rput _ _ | .rputv _ _ => true
  | .segrd _ _ _ | .landq _ _ => true
  | _ => false

/-- A power-on is not due. -/
def NoPowerOn (s : State) : Prop := s.pkg.state = .off ∧ Turn.event .powerOnReset ∉ s.agenda

end Sys2Proof.Cert

/-- R32-R37: the word of every well-formed instruction, with every operand at every value that its field admits, decodes to that
instruction. Where the operation is in a register, the rows share a word and decoding answers the first of them. -/
def Obligations.DecodeEncode : Prop :=
  ∀ (i : Instr) (w : Nat), i.illFormed = none → Sys2Proof.encode i = some w → w < 2 ^ 32 ∧ Sys2Proof.decodeWord w = .ok (coreOfWord i)

/-- R32-R37: words written out from the formats, and words that are no instruction: zero, and the opcodes that R37 lists. -/
def Obligations.DecodeWords : Prop :=
  Sys2Proof.decodeWord (1 + 64 * 3 + 2048 * 4 + 65536 * 5) = .ok (.add 3 4 5)
  ∧ Sys2Proof.decodeWord (2 + 64 * 3 + 2048 * 4 + 65536 * 0xFFFF) = .ok (.addi 3 4 0xFFFF)
  ∧ Sys2Proof.decodeWord (0x0D + 64 * 4 + 2048 * 5 + 65536 * 1 + 524288 * 0x1FFE) = .ok (.bne 4 5 0x1FFE)
  ∧ Sys2Proof.decodeWord (0x0E + 64 * 3 + 2048 * 4 + 65536 * 2 + 524288 * 2 + 4194304 * 7) = .ok (.ldw 3 4 2 7)
  ∧ Sys2Proof.decodeWord (0x0F + 64 * 3 + 2048 * 4 + 65536 * 2 + 524288 * 2 + 4194304 * 0x3FF) = .ok (.stw 3 4 2 0x3FF)
  ∧ Sys2Proof.decodeWord (0x11 + 64 * 3 + 2048 * 4 + 65536 * 5 + 2097152 * 6 + 16777216 * 2 + 268435456 * 3) = .ok (.amocas 3 3 4 6 5)
  ∧ Sys2Proof.decodeWord (0x12 + 64 * 2 + 2097152 * 3) = .ok (.fence 2 3)
  ∧ Sys2Proof.decodeWord (0x25 + 16777216 * 7) = .ok .halt
  ∧ Sys2Proof.decodeWord 0 = .error .zeroWord
  ∧ (∀ w, w % 64 = 0 ∨ 38 ≤ w % 64 → ∃ r, Sys2Proof.decodeWord w = .error r)
  ∧ ∀ w i, Sys2Proof.decodeWord w = .ok i → i.illFormed = none ∧ Sys2Proof.encode i = some w

/-- R32, R38, R121-R124: when a core takes its position and a slot has something to do, the slot's thread fetches
through sg1 at its pc: from its own core's local memory, from another core's, or by a translation. A word that decodes
is performed; a word that does not takes an ILLEGAL_INSN trap with the word in TVAL. R38: a fetch past the
limit of sg1 traps SEG_LIMIT, and one through a segment without the X right traps SEG_RIGHTS, with the pc in TVAL. A core
issues once in a cycle, and no other turn comes before the issues that are due. -/
def Obligations.StepRunsDecoded : Prop :=
  (∀ (s : State) (core slot : Nat) (r : List Turn), s.agenda = .issue core :: r → s.pkg.state ≠ .off → s.settled = false →
    (s.core core).turned ≤ s.cycle →
    let s0 := { s with agenda := r }
    let s1 := s0.modCore core fun c => { c with turned := s.cycle + 1 }
    let id := slotidOf core slot
    let u := s1.beginIssue id
    let a := u.segAddr 1 u.me.pc.toNat
    s0.pickSlot core = some slot → (s.thr id).cancelled = false → (s.thr id).exiting = false → s1.canRaise id = false →
    u.me.pc.toNat + 4 ≤ (u.seg 1).limit.toNat → spaceZeros a.toNat = true → (u.seg 1).has rgtX = true →
    u.guardedHere a 4 = false →
    (∀ off, u.target a = .own off → (u.core u.myCore).movingBytes off 4 = false →
      let bs := u.readLoc u.myPart (.sram u.myCore (u.tcmRead u.cur off)) 4
      (∀ i rest, Sys2Proof.decode bs = .ok (i, rest) → step s = exec i u)
      ∧ (∀ e, Sys2Proof.decode bs = .error e → step s = .next (u.takeTrap id 1 (BitVec.ofNat 64 (leNat (bs.take 4))) u.me.pc)))
    ∧ (∀ va w e, u.target a = .global va → u.windowAt u.myPart va = none →
        u.translate u.myCore u.myPart va .fetch = .ok w e → w.locFenced (.phys e.cls (e.phys va) e.key) = false →
        let bs := w.readOwn w.cur w.myPart (.phys e.cls (e.phys va) e.key) 4
        let v := w.reach (storeyOf w.myCore) w.myPart 0 (.phys e.cls (e.phys va) e.key)
        (∀ i rest, Sys2Proof.decode bs = .ok (i, rest) → step s = exec i v)
        ∧ (∀ r, Sys2Proof.decode bs = .error r → step s = .next (v.takeTrap id 1 (BitVec.ofNat 64 (leNat (bs.take 4))) v.me.pc)))
    ∧ (∀ c off i rest, u.target a = .core c off → u.coreFenced c = false → u.coreWiping c = false →
        (u.core c).movingBytes off 4 = false → (u.core c).guarded off 4 = false → Sys2Proof.decode (u.readLoc u.myPart (.sram c off) 4) = .ok (i, rest) → step s = exec i u))
  ∧ (∀ (s : State) (core slot : Nat) (r : List Turn), s.agenda = .issue core :: r → s.pkg.state ≠ .off → s.settled = false →
    (s.core core).turned ≤ s.cycle →
    let s0 := { s with agenda := r }
    let s1 := s0.modCore core fun c => { c with turned := s.cycle + 1 }
    let id := slotidOf core slot
    let u := s1.beginIssue id
    s0.pickSlot core = some slot → (s.thr id).cancelled = false → (s.thr id).exiting = false → s1.canRaise id = false →
    ((u.seg 1).limit.toNat < u.me.pc.toNat + 4 → step s = .next (u.takeTrap id 3 (u.me.pc.zeroExtend 64) u.me.pc))
    ∧ (u.me.pc.toNat + 4 ≤ (u.seg 1).limit.toNat → spaceZeros (u.segAddr 1 u.me.pc.toNat).toNat = true →
        (u.seg 1).has rgtX = false → step s = .next (u.takeTrap id 4 (u.me.pc.zeroExtend 64) u.me.pc)))
  ∧ (∀ (s : State) (t : Turn) (r : List Turn), s.agenda = t :: r → s.pkg.state ≠ .off →
    (∀ core, t = .issue core → s.cycle < (s.core core).turned ∨ s.settled = true → step s = .next { s with agenda := r })
    ∧ (t.isIssue = false → s.dueCores ≠ [] → step s = s.issueDue)
    ∧ (t.isIssue = false → s.dueCores = [] → step s = { s with agenda := r }.turn t))

/-- R61, R64, R71, R86, R119, R168, R171, R274, R331, R417, R421-R423: after a power-on reset the module is in STANDBY with no thread,
task or key slot in use; partitions own no storey and are unlocked; cores hold their reset registers; landings are
off; local memory and registers are zero. -/
def Obligations.ResetState : Prop :=
  let s := State.reset
  MemoryOk s ∧ s.pkg.state = .standby ∧ s.threads = [] ∧ s.pkg.tasks = [] ∧ s.acts = [] ∧ s.cycle = 0
  ∧ (∀ p, (s.part p).smask = 0 ∧ (s.part p).tdi = .unlocked)
  ∧ (∀ c, (s.core c).slotcls = 0xAAAAAA94 ∧ (s.core c).lcsplit = 0 ∧ (s.core c).hold = false ∧ (s.core c).margin = 1
      ∧ (s.core c).shSize = 0 ∧ (s.core c).mvt = 0 ∧ (∀ n, (s.core c).c.lookD n 0 = 0))
  ∧ (∀ f, (s.flight f).vpool = false ∧ (s.flight f).tlb = [])
  ∧ (∀ n, n < 16 → s.hslot n = n) ∧ (∀ n, (s.landing n).v = false)
  ∧ (∀ c o, s.wordFull c o = true ∧ s.sramRead c o 4 = [0, 0, 0, 0])
  ∧ (∀ k, s.keyOk 0 k = false)

/-- The memories keep their canonical form (the model's own, guided by R421's zero contents) under the operations that change them: a
write at any place, a clearing, an atomic, a served word, a walk's AC and DT bits, dropped dirty sectors, a moved page,
the clock, taking a trap, and the resets. -/
def Obligations.MemoryForm : Prop :=
  ∀ (s : State), MemoryOk s →
    (∀ part hint l bs, MemoryOk (s.writeLoc part hint l bs))
    ∧ (∀ core lo hi, MemoryOk (s.sramClear core lo hi))
    ∧ (∀ part l op b e, MemoryOk (s.amoAt part l op b e).2)
    ∧ (∀ core off, MemoryOk (s.serve core off))
    ∧ (∀ st part pte e w, MemoryOk (s.touchPte st part pte e w))
    ∧ (∀ p, MemoryOk (s.discardDirty p))
    ∧ (∀ a b, MemoryOk (s.movePage a b))
    ∧ MemoryOk s.tick
    ∧ (∀ id c v pc, MemoryOk (s.takeTrap id c v pc))
    ∧ (∀ l b, MemoryOk (s.pkgReset l b)) ∧ (∀ p, MemoryOk (s.unpowered p))

/-- R137-R145, R203-R205, R219, R229-R246: instructions that store nothing, and never trap, leave every byte of memory and every
full/empty bit as they were, whether they complete or park. -/
def Obligations.MemoryFrame : Prop :=
  ∀ (i : Instr) (s t : State), silent i = true → exec i s = .next t → t.memory = s.memory

/-- R423: without power nothing happens until power returns: a step keeps the module off and changes nothing but the list of
turns. -/
def Obligations.OffStays : Prop :=
  ∀ s t : State, NoPowerOn s → step s = .next t → NoPowerOn t ∧ { t with agenda := s.agenda } = s
end

