-- ==== Sys2Proof/Laws/Exec.lean ====
section
/-!
SUPPORT. Laws.Exec: the meaning that exec gives each constructor.
-/

namespace Sys2Proof.Machine

open Sys2Proof

@[simp] theorem exec_add {d a b} (s : State) : exec (.add d a b) s = execAdd d a b s := rfl
@[simp] theorem exec_sub {d a b} (s : State) : exec (.sub d a b) s = execSub d a b s := rfl
@[simp] theorem exec_and {d a b} (s : State) : exec (.and d a b) s = execAnd d a b s := rfl
@[simp] theorem exec_or {d a b} (s : State) : exec (.or d a b) s = execOr d a b s := rfl
@[simp] theorem exec_xor {d a b} (s : State) : exec (.xor d a b) s = execXor d a b s := rfl
@[simp] theorem exec_andn {d a b} (s : State) : exec (.andn d a b) s = execAndn d a b s := rfl
@[simp] theorem exec_orn {d a b} (s : State) : exec (.orn d a b) s = execOrn d a b s := rfl
@[simp] theorem exec_xnor {d a b} (s : State) : exec (.xnor d a b) s = execXnor d a b s := rfl
@[simp] theorem exec_sll {d a b} (s : State) : exec (.sll d a b) s = execSll d a b s := rfl
@[simp] theorem exec_srl {d a b} (s : State) : exec (.srl d a b) s = execSrl d a b s := rfl
@[simp] theorem exec_sra {d a b} (s : State) : exec (.sra d a b) s = execSra d a b s := rfl
@[simp] theorem exec_rol {d a b} (s : State) : exec (.rol d a b) s = execRol d a b s := rfl
@[simp] theorem exec_ror {d a b} (s : State) : exec (.ror d a b) s = execRor d a b s := rfl
@[simp] theorem exec_slt {d a b} (s : State) : exec (.slt d a b) s = execSlt d a b s := rfl
@[simp] theorem exec_sltu {d a b} (s : State) : exec (.sltu d a b) s = execSltu d a b s := rfl
@[simp] theorem exec_min {d a b} (s : State) : exec (.min d a b) s = execMin d a b s := rfl
@[simp] theorem exec_max {d a b} (s : State) : exec (.max d a b) s = execMax d a b s := rfl
@[simp] theorem exec_minu {d a b} (s : State) : exec (.minu d a b) s = execMinu d a b s := rfl
@[simp] theorem exec_maxu {d a b} (s : State) : exec (.maxu d a b) s = execMaxu d a b s := rfl
@[simp] theorem exec_mul {d a b} (s : State) : exec (.mul d a b) s = execMul d a b s := rfl
@[simp] theorem exec_mulh {d a b} (s : State) : exec (.mulh d a b) s = execMulh d a b s := rfl
@[simp] theorem exec_mulhu {d a b} (s : State) : exec (.mulhu d a b) s = execMulhu d a b s := rfl
@[simp] theorem exec_mulhsu {d a b} (s : State) : exec (.mulhsu d a b) s = execMulhsu d a b s := rfl
@[simp] theorem exec_div {d a b} (s : State) : exec (.div d a b) s = execDiv d a b s := rfl
@[simp] theorem exec_divu {d a b} (s : State) : exec (.divu d a b) s = execDivu d a b s := rfl
@[simp] theorem exec_rem {d a b} (s : State) : exec (.rem d a b) s = execRem d a b s := rfl
@[simp] theorem exec_remu {d a b} (s : State) : exec (.remu d a b) s = execRemu d a b s := rfl
@[simp] theorem exec_clz {d a} (s : State) : exec (.clz d a) s = execClz d a s := rfl
@[simp] theorem exec_ctz {d a} (s : State) : exec (.ctz d a) s = execCtz d a s := rfl
@[simp] theorem exec_popc {d a} (s : State) : exec (.popc d a) s = execPopc d a s := rfl
@[simp] theorem exec_sextb {d a} (s : State) : exec (.sextb d a) s = execSextb d a s := rfl
@[simp] theorem exec_sexth {d a} (s : State) : exec (.sexth d a) s = execSexth d a s := rfl
@[simp] theorem exec_zexth {d a} (s : State) : exec (.zexth d a) s = execZexth d a s := rfl
@[simp] theorem exec_bswap {d a} (s : State) : exec (.bswap d a) s = execBswap d a s := rfl
@[simp] theorem exec_addi {d a imm} (s : State) : exec (.addi d a imm) s = execAddi d a imm s := rfl
@[simp] theorem exec_andi {d a imm} (s : State) : exec (.andi d a imm) s = execAndi d a imm s := rfl
@[simp] theorem exec_ori {d a imm} (s : State) : exec (.ori d a imm) s = execOri d a imm s := rfl
@[simp] theorem exec_xori {d a imm} (s : State) : exec (.xori d a imm) s = execXori d a imm s := rfl
@[simp] theorem exec_slti {d a imm} (s : State) : exec (.slti d a imm) s = execSlti d a imm s := rfl
@[simp] theorem exec_sltiu {d a imm} (s : State) : exec (.sltiu d a imm) s = execSltiu d a imm s := rfl
@[simp] theorem exec_slli {d a n} (s : State) : exec (.slli d a n) s = execSlli d a n s := rfl
@[simp] theorem exec_srli {d a n} (s : State) : exec (.srli d a n) s = execSrli d a n s := rfl
@[simp] theorem exec_srai {d a n} (s : State) : exec (.srai d a n) s = execSrai d a n s := rfl
@[simp] theorem exec_lui {d imm} (s : State) : exec (.lui d imm) s = execLui d imm s := rfl
@[simp] theorem exec_adpc {d imm} (s : State) : exec (.adpc d imm) s = execAdpc d imm s := rfl
@[simp] theorem exec_jal {d off} (s : State) : exec (.jal d off) s = execJal d off s := rfl
@[simp] theorem exec_jalr {d a imm} (s : State) : exec (.jalr d a imm) s = execJalr d a imm s := rfl
@[simp] theorem exec_beq {a b off} (s : State) : exec (.beq a b off) s = execBeq a b off s := rfl
@[simp] theorem exec_bne {a b off} (s : State) : exec (.bne a b off) s = execBne a b off s := rfl
@[simp] theorem exec_blt {a b off} (s : State) : exec (.blt a b off) s = execBlt a b off s := rfl
@[simp] theorem exec_bge {a b off} (s : State) : exec (.bge a b off) s = execBge a b off s := rfl
@[simp] theorem exec_bltu {a b off} (s : State) : exec (.bltu a b off) s = execBltu a b off s := rfl
@[simp] theorem exec_bgeu {a b off} (s : State) : exec (.bgeu a b off) s = execBgeu a b off s := rfl
@[simp] theorem exec_ldb {d a seg imm} (s : State) : exec (.ldb d a seg imm) s = execLdb d a seg imm s := rfl
@[simp] theorem exec_ldbu {d a seg imm} (s : State) : exec (.ldbu d a seg imm) s = execLdbu d a seg imm s := rfl
@[simp] theorem exec_ldh {d a seg imm} (s : State) : exec (.ldh d a seg imm) s = execLdh d a seg imm s := rfl
@[simp] theorem exec_ldhu {d a seg imm} (s : State) : exec (.ldhu d a seg imm) s = execLdhu d a seg imm s := rfl
@[simp] theorem exec_ldw {d a seg imm} (s : State) : exec (.ldw d a seg imm) s = execLdw d a seg imm s := rfl
@[simp] theorem exec_stb {d a seg imm} (s : State) : exec (.stb d a seg imm) s = execStb d a seg imm s := rfl
@[simp] theorem exec_sth {d a seg imm} (s : State) : exec (.sth d a seg imm) s = execSth d a seg imm s := rfl
@[simp] theorem exec_stw {d a seg imm} (s : State) : exec (.stw d a seg imm) s = execStw d a seg imm s := rfl
@[simp] theorem exec_ldfe {d a seg imm} (s : State) : exec (.ldfe d a seg imm) s = execLdfe d a seg imm s := rfl
@[simp] theorem exec_ldff {d a seg imm} (s : State) : exec (.ldff d a seg imm) s = execLdff d a seg imm s := rfl
@[simp] theorem exec_stfe {d a seg imm} (s : State) : exec (.stfe d a seg imm) s = execStfe d a seg imm s := rfl
@[simp] theorem exec_stff {d a seg imm} (s : State) : exec (.stff d a seg imm) s = execStff d a seg imm s := rfl
@[simp] theorem exec_amoadd {order d a seg b} (s : State) : exec (.amoadd order d a seg b) s = execAmoadd order d a seg b s := rfl
@[simp] theorem exec_amoswap {order d a seg b} (s : State) : exec (.amoswap order d a seg b) s = execAmoswap order d a seg b s := rfl
@[simp] theorem exec_amocas {order d a seg b} (s : State) : exec (.amocas order d a seg b) s = execAmocas order d a seg b s := rfl
@[simp] theorem exec_amoand {order d a seg b} (s : State) : exec (.amoand order d a seg b) s = execAmoand order d a seg b s := rfl
@[simp] theorem exec_amoor {order d a seg b} (s : State) : exec (.amoor order d a seg b) s = execAmoor order d a seg b s := rfl
@[simp] theorem exec_amoxor {order d a seg b} (s : State) : exec (.amoxor order d a seg b) s = execAmoxor order d a seg b s := rfl
@[simp] theorem exec_amomin {order d a seg b} (s : State) : exec (.amomin order d a seg b) s = execAmomin order d a seg b s := rfl
@[simp] theorem exec_amomax {order d a seg b} (s : State) : exec (.amomax order d a seg b) s = execAmomax order d a seg b s := rfl
@[simp] theorem exec_amominu {order d a seg b} (s : State) : exec (.amominu order d a seg b) s = execAmominu order d a seg b s := rfl
@[simp] theorem exec_amomaxu {order d a seg b} (s : State) : exec (.amomaxu order d a seg b) s = execAmomaxu order d a seg b s := rfl
@[simp] theorem exec_fence {kind scope} (s : State) : exec (.fence kind scope) s = execFence kind scope s := rfl
@[simp] theorem exec_drain (s : State) : exec (.drain) s = execDrain s := rfl
@[simp] theorem exec_feclr {seg a b} (s : State) : exec (.feclr seg a b) s = execFeclr seg a b s := rfl
@[simp] theorem exec_trig {d seg a b} (s : State) : exec (.trig d seg a b) s = execTrig d seg a b s := rfl
@[simp] theorem exec_waitc {d seg a b} (s : State) : exec (.waitc d seg a b) s = execWaitc d seg a b s := rfl
@[simp] theorem exec_ncmp {d seg a b} (s : State) : exec (.ncmp d seg a b) s = execNcmp d seg a b s := rfl
@[simp] theorem exec_nred {d seg a b} (s : State) : exec (.nred d seg a b) s = execNred d seg a b s := rfl
@[simp] theorem exec_cpy {hint d a b} (s : State) : exec (.cpy hint d a b) s = execCpy hint d a b s := rfl
@[simp] theorem exec_cpyg {hint d a b} (s : State) : exec (.cpyg hint d a b) s = execCpyg hint d a b s := rfl
@[simp] theorem exec_cpys {hint d a b} (s : State) : exec (.cpys hint d a b) s = execCpys hint d a b s := rfl
@[simp] theorem exec_cpyf {hint d a b} (s : State) : exec (.cpyf hint d a b) s = execCpyf hint d a b s := rfl
@[simp] theorem exec_wtany {d a} (s : State) : exec (.wtany d a) s = execWtany d a s := rfl
@[simp] theorem exec_wtall {a} (s : State) : exec (.wtall a) s = execWtall a s := rfl
@[simp] theorem exec_tfirst {d a} (s : State) : exec (.tfirst d a) s = execTfirst d a s := rfl
@[simp] theorem exec_tclr {a} (s : State) : exec (.tclr a) s = execTclr a s := rfl
@[simp] theorem exec_tstat {d a} (s : State) : exec (.tstat d a) s = execTstat d a s := rfl
@[simp] theorem exec_vld {vd seg a imm k} (s : State) : exec (.vld vd seg a imm k) s = execVld vd seg a imm k s := rfl
@[simp] theorem exec_vlds {vd seg a imm b k} (s : State) : exec (.vlds vd seg a imm b k) s = execVlds vd seg a imm b k s := rfl
@[simp] theorem exec_vldx {vd seg a imm vb k} (s : State) : exec (.vldx vd seg a imm vb k) s = execVldx vd seg a imm vb k s := rfl
@[simp] theorem exec_vst {vd seg a imm k} (s : State) : exec (.vst vd seg a imm k) s = execVst vd seg a imm k s := rfl
@[simp] theorem exec_vsts {vd seg a imm b k} (s : State) : exec (.vsts vd seg a imm b k) s = execVsts vd seg a imm b k s := rfl
@[simp] theorem exec_vstx {vd seg a imm vb k} (s : State) : exec (.vstx vd seg a imm vb k) s = execVstx vd seg a imm vb k s := rfl
@[simp] theorem exec_viadd {t vd va vb k} (s : State) : exec (.viadd t vd va vb k) s = execViadd t vd va vb k s := rfl
@[simp] theorem exec_visub {t vd va vb k} (s : State) : exec (.visub t vd va vb k) s = execVisub t vd va vb k s := rfl
@[simp] theorem exec_vimul {t vd va vb k} (s : State) : exec (.vimul t vd va vb k) s = execVimul t vd va vb k s := rfl
@[simp] theorem exec_vimin {t vd va vb k} (s : State) : exec (.vimin t vd va vb k) s = execVimin t vd va vb k s := rfl
@[simp] theorem exec_vimax {t vd va vb k} (s : State) : exec (.vimax t vd va vb k) s = execVimax t vd va vb k s := rfl
@[simp] theorem exec_viand {t vd va vb k} (s : State) : exec (.viand t vd va vb k) s = execViand t vd va vb k s := rfl
@[simp] theorem exec_vior {t vd va vb k} (s : State) : exec (.vior t vd va vb k) s = execVior t vd va vb k s := rfl
@[simp] theorem exec_vixor {t vd va vb k} (s : State) : exec (.vixor t vd va vb k) s = execVixor t vd va vb k s := rfl
@[simp] theorem exec_visll {t vd va vb k} (s : State) : exec (.visll t vd va vb k) s = execVisll t vd va vb k s := rfl
@[simp] theorem exec_visrl {t vd va vb k} (s : State) : exec (.visrl t vd va vb k) s = execVisrl t vd va vb k s := rfl
@[simp] theorem exec_visra {t vd va vb k} (s : State) : exec (.visra t vd va vb k) s = execVisra t vd va vb k s := rfl
@[simp] theorem exec_viabs {t vd va k} (s : State) : exec (.viabs t vd va k) s = execViabs t vd va k s := rfl
@[simp] theorem exec_vadd {t vd va vb k} (s : State) : exec (.vadd t vd va vb k) s = execVadd t vd va vb k s := rfl
@[simp] theorem exec_vsub {t vd va vb k} (s : State) : exec (.vsub t vd va vb k) s = execVsub t vd va vb k s := rfl
@[simp] theorem exec_vmul {t vd va vb k} (s : State) : exec (.vmul t vd va vb k) s = execVmul t vd va vb k s := rfl
@[simp] theorem exec_vfma {t vd va vb k} (s : State) : exec (.vfma t vd va vb k) s = execVfma t vd va vb k s := rfl
@[simp] theorem exec_vfms {t vd va vb k} (s : State) : exec (.vfms t vd va vb k) s = execVfms t vd va vb k s := rfl
@[simp] theorem exec_vmin {t vd va vb k} (s : State) : exec (.vmin t vd va vb k) s = execVmin t vd va vb k s := rfl
@[simp] theorem exec_vmax {t vd va vb k} (s : State) : exec (.vmax t vd va vb k) s = execVmax t vd va vb k s := rfl
@[simp] theorem exec_vabs {t vd va k} (s : State) : exec (.vabs t vd va k) s = execVabs t vd va k s := rfl
@[simp] theorem exec_vneg {t vd va k} (s : State) : exec (.vneg t vd va k) s = execVneg t vd va k s := rfl
@[simp] theorem exec_vsqrt {t vd va k} (s : State) : exec (.vsqrt t vd va k) s = execVsqrt t vd va k s := rfl
@[simp] theorem exec_vrcp {t vd va k} (s : State) : exec (.vrcp t vd va k) s = execVrcp t vd va k s := rfl
@[simp] theorem exec_vrsq {t vd va k} (s : State) : exec (.vrsq t vd va k) s = execVrsq t vd va k s := rfl
@[simp] theorem exec_vexp2 {t vd va k} (s : State) : exec (.vexp2 t vd va k) s = execVexp2 t vd va k s := rfl
@[simp] theorem exec_vscl {t vd va vb k} (s : State) : exec (.vscl t vd va vb k) s = execVscl t vd va vb k s := rfl
@[simp] theorem exec_vcmp {cond t kd va vb k} (s : State) : exec (.vcmp cond t kd va vb k) s = execVcmp cond t kd va vb k s := rfl
@[simp] theorem exec_vsel {t vd va vb k} (s : State) : exec (.vsel t vd va vb k) s = execVsel t vd va vb k s := rfl
@[simp] theorem exec_vshuf {t vd va vb k} (s : State) : exec (.vshuf t vd va vb k) s = execVshuf t vd va vb k s := rfl
@[simp] theorem exec_vslide {t vd va vb k} (s : State) : exec (.vslide t vd va vb k) s = execVslide t vd va vb k s := rfl
@[simp] theorem exec_vredsum {t vd va k} (s : State) : exec (.vredsum t vd va k) s = execVredsum t vd va k s := rfl
@[simp] theorem exec_vredmax {t vd va k} (s : State) : exec (.vredmax t vd va k) s = execVredmax t vd va k s := rfl
@[simp] theorem exec_vredmin {t vd va k} (s : State) : exec (.vredmin t vd va k) s = execVredmin t vd va k s := rfl
@[simp] theorem exec_vcvt {mode t src vd va k} (s : State) : exec (.vcvt mode t src vd va k) s = execVcvt mode t src vd va k s := rfl
@[simp] theorem exec_kand {kd ka kb} (s : State) : exec (.kand kd ka kb) s = execKand kd ka kb s := rfl
@[simp] theorem exec_kor {kd ka kb} (s : State) : exec (.kor kd ka kb) s = execKor kd ka kb s := rfl
@[simp] theorem exec_knot {kd ka} (s : State) : exec (.knot kd ka) s = execKnot kd ka s := rfl
@[simp] theorem exec_kmov {kd ka} (s : State) : exec (.kmov kd ka) s = execKmov kd ka s := rfl
@[simp] theorem exec_vbcast {vd a m} (s : State) : exec (.vbcast vd a m) s = execVbcast vd a m s := rfl
@[simp] theorem exec_vget {d va b m} (s : State) : exec (.vget d va b m) s = execVget d va b m s := rfl
@[simp] theorem exec_vput {vd a b m} (s : State) : exec (.vput vd a b m) s = execVput vd a b m s := rfl
@[simp] theorem exec_kget {d ka w} (s : State) : exec (.kget d ka w) s = execKget d ka w s := rfl
@[simp] theorem exec_kset {kd a w} (s : State) : exec (.kset kd a w) s = execKset kd a w s := rfl
@[simp] theorem exec_mma {d a m} (s : State) : exec (.mma d a m) s = execMma d a m s := rfl
@[simp] theorem exec_mmarb {d a m} (s : State) : exec (.mmarb d a m) s = execMmarb d a m s := rfl
@[simp] theorem exec_mmacn {d a m} (s : State) : exec (.mmacn d a m) s = execMmacn d a m s := rfl
@[simp] theorem exec_mbld {a l} (s : State) : exec (.mbld a l) s = execMbld a l s := rfl
@[simp] theorem exec_mbpass {l} (s : State) : exec (.mbpass l) s = execMbpass l s := rfl
@[simp] theorem exec_mzero {d} (s : State) : exec (.mzero d) s = execMzero d s := rfl
@[simp] theorem exec_mfmt {a} (s : State) : exec (.mfmt a) s = execMfmt a s := rfl
@[simp] theorem exec_mfmtq {a} (s : State) : exec (.mfmtq a) s = execMfmtq a s := rfl
@[simp] theorem exec_put {vd a b} (s : State) : exec (.put vd a b) s = execPut vd a b s := rfl
@[simp] theorem exec_putg {vd a b} (s : State) : exec (.putg vd a b) s = execPutg vd a b s := rfl
@[simp] theorem exec_read {mode vd a b} (s : State) : exec (.read mode vd a b) s = execRead mode vd a b s := rfl
@[simp] theorem exec_take {mode vd a b} (s : State) : exec (.take mode vd a b) s = execTake mode vd a b s := rfl
@[simp] theorem exec_tcancel {d b} (s : State) : exec (.tcancel d b) s = execTcancel d b s := rfl
@[simp] theorem exec_halldefDefine {d a b} (s : State) : exec (.halldefDefine d a b) s = execHalldefDefine d a b s := rfl
@[simp] theorem exec_halldefRetire {d a b} (s : State) : exec (.halldefRetire d a b) s = execHalldefRetire d a b s := rfl
@[simp] theorem exec_hallq {d a b} (s : State) : exec (.hallq d a b) s = execHallq d a b s := rfl
@[simp] theorem exec_split {d a} (s : State) : exec (.split d a) s = execSplit d a s := rfl
@[simp] theorem exec_splst {d a} (s : State) : exec (.splst d a) s = execSplst d a s := rfl
@[simp] theorem exec_skset {n a} (s : State) : exec (.skset n a) s = execSkset n a s := rfl
@[simp] theorem exec_skupd {n d va vb} (s : State) : exec (.skupd n d va vb) s = execSkupd n d va vb s := rfl
@[simp] theorem exec_skqry {n vd va} (s : State) : exec (.skqry n vd va) s = execSkqry n vd va s := rfl
@[simp] theorem exec_skadd {n d a} (s : State) : exec (.skadd n d a) s = execSkadd n d a s := rfl
@[simp] theorem exec_skclr {n} (s : State) : exec (.skclr n) s = execSkclr n s := rfl
@[simp] theorem exec_freeze (s : State) : exec (.freeze) s = execFreeze s := rfl
@[simp] theorem exec_nest {a b} (s : State) : exec (.nest a b) s = execNest a b s := rfl
@[simp] theorem exec_njoin (s : State) : exec (.njoin) s = execNjoin s := rfl
@[simp] theorem exec_tstw {d a} (s : State) : exec (.tstw d a) s = execTstw d a s := rfl
@[simp] theorem exec_tstv {vd a} (s : State) : exec (.tstv vd a) s = execTstv vd a s := rfl
@[simp] theorem exec_finfo {d n} (s : State) : exec (.finfo d n) s = execFinfo d n s := rfl
@[simp] theorem exec_msg {d a b} (s : State) : exec (.msg d a b) s = execMsg d a b s := rfl
@[simp] theorem exec_rput {a b} (s : State) : exec (.rput a b) s = execRput a b s := rfl
@[simp] theorem exec_rputv {vd a} (s : State) : exec (.rputv vd a) s = execRputv vd a s := rfl
@[simp] theorem exec_empty {d} (s : State) : exec (.empty d) s = execEmpty d s := rfl
@[simp] theorem exec_emptyv {vd} (s : State) : exec (.emptyv vd) s = execEmptyv vd s := rfl
@[simp] theorem exec_testp {d x} (s : State) : exec (.testp d x) s = execTestp d x s := rfl
@[simp] theorem exec_testpVector {d x} (s : State) : exec (.testpVector d x) s = execTestpVector d x s := rfl
@[simp] theorem exec_wfm {d} (s : State) : exec (.wfm d) s = execWfm d s := rfl
@[simp] theorem exec_landa {a} (s : State) : exec (.landa a) s = execLanda a s := rfl
@[simp] theorem exec_landw {a} (s : State) : exec (.landw a) s = execLandw a s := rfl
@[simp] theorem exec_landaw {a} (s : State) : exec (.landaw a) s = execLandaw a s := rfl
@[simp] theorem exec_landq {d a} (s : State) : exec (.landq d a) s = execLandq d a s := rfl
@[simp] theorem exec_cgput {a b} (s : State) : exec (.cgput a b) s = execCgput a b s := rfl
@[simp] theorem exec_cgputv {a vb} (s : State) : exec (.cgputv a vb) s = execCgputv a vb s := rfl
@[simp] theorem exec_cgget {d a} (s : State) : exec (.cgget d a) s = execCgget d a s := rfl
@[simp] theorem exec_cggetv {vd a} (s : State) : exec (.cggetv vd a) s = execCggetv vd a s := rfl
@[simp] theorem exec_cgset {a b} (s : State) : exec (.cgset a b) s = execCgset a b s := rfl
@[simp] theorem exec_spawn {a} (s : State) : exec (.spawn a) s = execSpawn a s := rfl
@[simp] theorem exec_dec {a b} (s : State) : exec (.dec a b) s = execDec a b s := rfl
@[simp] theorem exec_decEvent {seg a b} (s : State) : exec (.decEvent seg a b) s = execDecEvent seg a b s := rfl
@[simp] theorem exec_exit (s : State) : exec (.exit) s = execExit s := rfl
@[simp] theorem exec_yield (s : State) : exec (.yield) s = execYield s := rfl
@[simp] theorem exec_hsift {a b} (s : State) : exec (.hsift a b) s = execHsift a b s := rfl
@[simp] theorem exec_remapwAppend {a b} (s : State) : exec (.remapwAppend a b) s = execRemapwAppend a b s := rfl
@[simp] theorem exec_remapwRelease {a b} (s : State) : exec (.remapwRelease a b) s = execRemapwRelease a b s := rfl
@[simp] theorem exec_remapwClose {a b} (s : State) : exec (.remapwClose a b) s = execRemapwClose a b s := rfl
@[simp] theorem exec_remapcPool {a b} (s : State) : exec (.remapcPool a b) s = execRemapcPool a b s := rfl
@[simp] theorem exec_remapcDefine {a b} (s : State) : exec (.remapcDefine a b) s = execRemapcDefine a b s := rfl
@[simp] theorem exec_remapcReset {a b} (s : State) : exec (.remapcReset a b) s = execRemapcReset a b s := rfl
@[simp] theorem exec_sysrd {d n} (s : State) : exec (.sysrd d n) s = execSysrd d n s := rfl
@[simp] theorem exec_syswr {d n} (s : State) : exec (.syswr d n) s = execSyswr d n s := rfl
@[simp] theorem exec_sysset {d n} (s : State) : exec (.sysset d n) s = execSysset d n s := rfl
@[simp] theorem exec_sysclr {d n} (s : State) : exec (.sysclr d n) s = execSysclr d n s := rfl
@[simp] theorem exec_ecall (s : State) : exec (.ecall) s = execEcall s := rfl
@[simp] theorem exec_brk (s : State) : exec (.brk) s = execBrk s := rfl
@[simp] theorem exec_tret (s : State) : exec (.tret) s = execTret s := rfl
@[simp] theorem exec_halt (s : State) : exec (.halt) s = execHalt s := rfl
@[simp] theorem exec_segld {sg a} (s : State) : exec (.segld sg a) s = execSegld sg a s := rfl
@[simp] theorem exec_segrd {d sg w} (s : State) : exec (.segrd d sg w) s = execSegrd d sg w s := rfl
@[simp] theorem exec_registerWrite {kind unit off value} (s : State) : exec (.registerWrite kind unit off value) s = execRegisterWrite kind unit off value s := rfl
@[simp] theorem exec_slotclsWrite {core value} (s : State) : exec (.slotclsWrite core value) s = execSlotclsWrite core value s := rfl
@[simp] theorem exec_runctlWrite {core value} (s : State) : exec (.runctlWrite core value) s = execRunctlWrite core value s := rfl
@[simp] theorem exec_shpoolWrite {core value} (s : State) : exec (.shpoolWrite core value) s = execShpoolWrite core value s := rfl
@[simp] theorem exec_lcsplitWrite {core value} (s : State) : exec (.lcsplitWrite core value) s = execLcsplitWrite core value s := rfl
@[simp] theorem exec_lcsplitChangeDone {core} (s : State) : exec (.lcsplitChangeDone core) s = execLcsplitChangeDone core s := rfl
@[simp] theorem exec_mvtbaseWrite {core value} (s : State) : exec (.mvtbaseWrite core value) s = execMvtbaseWrite core value s := rfl
@[simp] theorem exec_vpoolWrite {flight value} (s : State) : exec (.vpoolWrite flight value) s = execVpoolWrite flight value s := rfl
@[simp] theorem exec_cycleLowRead {d} (s : State) : exec (.cycleLowRead d) s = execCycleLowRead d s := rfl
@[simp] theorem exec_stagingWrite {part off bytes} (s : State) : exec (.stagingWrite part off bytes) s = execStagingWrite part off bytes s := rfl
@[simp] theorem exec_ldoor {part value size} (s : State) : exec (.ldoor part value size) s = execLdoor part value size s := rfl
@[simp] theorem exec_stagingCaptureDone {part slot} (s : State) : exec (.stagingCaptureDone part slot) s = execStagingCaptureDone part slot s := rfl
@[simp] theorem exec_cpop {part size} (s : State) : exec (.cpop part size) s = execCpop part size s := rfl
@[simp] theorem exec_windowWrite {part off bytes} (s : State) : exec (.windowWrite part off bytes) s = execWindowWrite part off bytes s := rfl
@[simp] theorem exec_windowRead {part off size} (s : State) : exec (.windowRead part off size) s = execWindowRead part off size s := rfl
@[simp] theorem exec_smaskWrite {part mask} (s : State) : exec (.smaskWrite part mask) s = execSmaskWrite part mask s := rfl
@[simp] theorem exec_partitionDescriptorWrite {part off value} (s : State) : exec (.partitionDescriptorWrite part off value) s = execPartitionDescriptorWrite part off value s := rfl
@[simp] theorem exec_keySlotWrite {slot value} (s : State) : exec (.keySlotWrite slot value) s = execKeySlotWrite slot value s := rfl
@[simp] theorem exec_keyMaterialReady {slot} (s : State) : exec (.keyMaterialReady slot) s = execKeyMaterialReady slot s := rfl
@[simp] theorem exec_getVersion (s : State) : exec (.getVersion) s = execGetVersion s := rfl
@[simp] theorem exec_getCapabilities (s : State) : exec (.getCapabilities) s = execGetCapabilities s := rfl
@[simp] theorem exec_negotiateAlgorithms {offers} (s : State) : exec (.negotiateAlgorithms offers) s = execNegotiateAlgorithms offers s := rfl
@[simp] theorem exec_getDigests (s : State) : exec (.getDigests) s = execGetDigests s := rfl
@[simp] theorem exec_getCertificate {slot off len} (s : State) : exec (.getCertificate slot off len) s = execGetCertificate slot off len s := rfl
@[simp] theorem exec_challenge {nonce} (s : State) : exec (.challenge nonce) s = execChallenge nonce s := rfl
@[simp] theorem exec_getMeasurements {fn index} (s : State) : exec (.getMeasurements fn index) s = execGetMeasurements fn index s := rfl
@[simp] theorem exec_keyExchange {nonce} (s : State) : exec (.keyExchange nonce) s = execKeyExchange nonce s := rfl
@[simp] theorem exec_spdmFinish {verified} (s : State) : exec (.spdmFinish verified) s = execSpdmFinish verified s := rfl
@[simp] theorem exec_keyUpdate (s : State) : exec (.keyUpdate) s = execKeyUpdate s := rfl
@[simp] theorem exec_heartbeat (s : State) : exec (.heartbeat) s = execHeartbeat s := rfl
@[simp] theorem exec_endSession (s : State) : exec (.endSession) s = execEndSession s := rfl
@[simp] theorem exec_chunkSend {bytes last} (s : State) : exec (.chunkSend bytes last) s = execChunkSend bytes last s := rfl
@[simp] theorem exec_chunkGet {seq} (s : State) : exec (.chunkGet seq) s = execChunkGet seq s := rfl
@[simp] theorem exec_ideKm {stream} (s : State) : exec (.ideKm stream) s = execIdeKm stream s := rfl
@[simp] theorem exec_lockInterfaceRequest {part} (s : State) : exec (.lockInterfaceRequest part) s = execLockInterfaceRequest part s := rfl
@[simp] theorem exec_startInterfaceRequest {part} (s : State) : exec (.startInterfaceRequest part) s = execStartInterfaceRequest part s := rfl
@[simp] theorem exec_stopInterfaceRequest {part} (s : State) : exec (.stopInterfaceRequest part) s = execStopInterfaceRequest part s := rfl
@[simp] theorem exec_ideIntegrityFailure {stream} (s : State) : exec (.ideIntegrityFailure stream) s = execIdeIntegrityFailure stream s := rfl
@[simp] theorem exec_vfFunctionLevelReset {part} (s : State) : exec (.vfFunctionLevelReset part) s = execVfFunctionLevelReset part s := rfl
@[simp] theorem exec_firmwareImage {component image edOk mlOk} (s : State) : exec (.firmwareImage component image edOk mlOk) s = execFirmwareImage component image edOk mlOk s := rfl
@[simp] theorem exec_launchAdmit {part} (s : State) : exec (.launchAdmit part) s = execLaunchAdmit part s := rfl
@[simp] theorem exec_decMessage {act} (s : State) : exec (.decMessage act) s = execDecMessage act s := rfl
@[simp] theorem exec_errorToken {act} (s : State) : exec (.errorToken act) s = execErrorToken act s := rfl
@[simp] theorem exec_wakeMessage {act} (s : State) : exec (.wakeMessage act) s = execWakeMessage act s := rfl
@[simp] theorem exec_composingThreadStart {task} (s : State) : exec (.composingThreadStart task) s = execComposingThreadStart task s := rfl
@[simp] theorem exec_formeCopyReceived {core task} (s : State) : exec (.formeCopyReceived core task) s = execFormeCopyReceived core task s := rfl
@[simp] theorem exec_stampItem {core slot} (s : State) : exec (.stampItem core slot) s = execStampItem core slot s := rfl
@[simp] theorem exec_preempt {core} (s : State) : exec (.preempt core) s = execPreempt core s := rfl
@[simp] theorem exec_imageSaveDone {slotid} (s : State) : exec (.imageSaveDone slotid) s = execImageSaveDone slotid s := rfl
@[simp] theorem exec_resume {core slot} (s : State) : exec (.resume core slot) s = execResume core slot s := rfl
@[simp] theorem exec_watchdogExpiry {task} (s : State) : exec (.watchdogExpiry task) s = execWatchdogExpiry task s := rfl
@[simp] theorem exec_taskCompletion {task} (s : State) : exec (.taskCompletion task) s = execTaskCompletion task s := rfl
@[simp] theorem exec_formeRelease {core task} (s : State) : exec (.formeRelease core task) s = execFormeRelease core task s := rfl
@[simp] theorem exec_nestedFormeRelease {core forme} (s : State) : exec (.nestedFormeRelease core forme) s = execNestedFormeRelease core forme s := rfl
@[simp] theorem exec_messageArrival {act} (s : State) : exec (.messageArrival act) s = execMessageArrival act s := rfl
@[simp] theorem exec_handlerThreadStart {core slot} (s : State) : exec (.handlerThreadStart core slot) s = execHandlerThreadStart core slot s := rfl
@[simp] theorem exec_remoteFill {act} (s : State) : exec (.remoteFill act) s = execRemoteFill act s := rfl
@[simp] theorem exec_remoteAccessArrival {act} (s : State) : exec (.remoteAccessArrival act) s = execRemoteAccessArrival act s := rfl
@[simp] theorem exec_syncRequestArrival {act} (s : State) : exec (.syncRequestArrival act) s = execSyncRequestArrival act s := rfl
@[simp] theorem exec_accessReply {act} (s : State) : exec (.accessReply act) s = execAccessReply act s := rfl
@[simp] theorem exec_acknowledgement {act} (s : State) : exec (.acknowledgement act) s = execAcknowledgement act s := rfl
@[simp] theorem exec_walkComplete {storey page} (s : State) : exec (.walkComplete storey page) s = execWalkComplete storey page s := rfl
@[simp] theorem exec_fbpopRead {storey} (s : State) : exec (.fbpopRead storey) s = execFbpopRead storey s := rfl
@[simp] theorem exec_fbstatDropClear {storey} (s : State) : exec (.fbstatDropClear storey) s = execFbstatDropClear storey s := rfl
@[simp] theorem exec_replayAll {storey} (s : State) : exec (.replayAll storey) s = execReplayAll storey s := rfl
@[simp] theorem exec_invalVa {storey} (s : State) : exec (.invalVa storey) s = execInvalVa storey s := rfl
@[simp] theorem exec_invalAll {storey} (s : State) : exec (.invalAll storey) s = execInvalAll storey s := rfl
@[simp] theorem exec_domainConfigStage {slice off value} (s : State) : exec (.domainConfigStage slice off value) s = execDomainConfigStage slice off value s := rfl
@[simp] theorem exec_scmdWb {slice} (s : State) : exec (.scmdWb slice) s = execScmdWb slice s := rfl
@[simp] theorem exec_scmdWbDone {slice} (s : State) : exec (.scmdWbDone slice) s = execScmdWbDone slice s := rfl
@[simp] theorem exec_domswGo (s : State) : exec (.domswGo) s = execDomswGo s := rfl
@[simp] theorem exec_domainSwitchDone (s : State) : exec (.domainSwitchDone) s = execDomainSwitchDone s := rfl
@[simp] theorem exec_hotnessHalving (s : State) : exec (.hotnessHalving) s = execHotnessHalving s := rfl
@[simp] theorem exec_migrationStart {part page dest} (s : State) : exec (.migrationStart part page dest) s = execMigrationStart part page dest s := rfl
@[simp] theorem exec_migrationFlip {part page} (s : State) : exec (.migrationFlip part page) s = execMigrationFlip part page s := rfl
@[simp] theorem exec_copyComplete {act} (s : State) : exec (.copyComplete act) s = execCopyComplete act s := rfl
@[simp] theorem exec_nearMemoryComplete {act} (s : State) : exec (.nearMemoryComplete act) s = execNearMemoryComplete act s := rfl
@[simp] theorem exec_skupdComplete {act} (s : State) : exec (.skupdComplete act) s = execSkupdComplete act s := rfl
@[simp] theorem exec_counterWatchMet {act} (s : State) : exec (.counterWatchMet act) s = execCounterWatchMet act s := rfl
@[simp] theorem exec_triggerFire {act} (s : State) : exec (.triggerFire act) s = execTriggerFire act s := rfl
@[simp] theorem exec_scWindowClose (s : State) : exec (.scWindowClose) s = execScWindowClose s := rfl
@[simp] theorem exec_matrixOpStart {core} (s : State) : exec (.matrixOpStart core) s = execMatrixOpStart core s := rfl
@[simp] theorem exec_matrixOpComplete {core} (s : State) : exec (.matrixOpComplete core) s = execMatrixOpComplete core s := rfl
@[simp] theorem exec_handoffLand {act} (s : State) : exec (.handoffLand act) s = execHandoffLand act s := rfl
@[simp] theorem exec_galleryPutArrival {act} (s : State) : exec (.galleryPutArrival act) s = execGalleryPutArrival act s := rfl
@[simp] theorem exec_galleryMatchRequest {act} (s : State) : exec (.galleryMatchRequest act) s = execGalleryMatchRequest act s := rfl
@[simp] theorem exec_galleryCancelArrival {act} (s : State) : exec (.galleryCancelArrival act) s = execGalleryCancelArrival act s := rfl
@[simp] theorem exec_putAnswer {act} (s : State) : exec (.putAnswer act) s = execPutAnswer act s := rfl
@[simp] theorem exec_retryReissue {act} (s : State) : exec (.retryReissue act) s = execRetryReissue act s := rfl
@[simp] theorem exec_redirectReissue {act} (s : State) : exec (.redirectReissue act) s = execRedirectReissue act s := rfl
@[simp] theorem exec_rangeEntryAck {hall fabric} (s : State) : exec (.rangeEntryAck hall fabric) s = execRangeEntryAck hall fabric s := rfl
@[simp] theorem exec_splitFlip {hall} (s : State) : exec (.splitFlip hall) s = execSplitFlip hall s := rfl
@[simp] theorem exec_splitDrain {hall} (s : State) : exec (.splitDrain hall) s = execSplitDrain hall s := rfl
@[simp] theorem exec_splitDone {hall} (s : State) : exec (.splitDone hall) s = execSplitDone hall s := rfl
@[simp] theorem exec_landingArrival {act} (s : State) : exec (.landingArrival act) s = execLandingArrival act s := rfl
@[simp] theorem exec_landingAck {act} (s : State) : exec (.landingAck act) s = execLandingAck act s := rfl
@[simp] theorem exec_landingFlipSeen {landing} (s : State) : exec (.landingFlipSeen landing) s = execLandingFlipSeen landing s := rfl
@[simp] theorem exec_lownWrite {landing value} (s : State) : exec (.lownWrite landing value) s = execLownWrite landing value s := rfl
@[simp] theorem exec_lcfgWrite {storey landing value} (s : State) : exec (.lcfgWrite storey landing value) s = execLcfgWrite storey landing value s := rfl
@[simp] theorem exec_collectiveArrival {act} (s : State) : exec (.collectiveArrival act) s = execCollectiveArrival act s := rfl
@[simp] theorem exec_collectiveResult {act} (s : State) : exec (.collectiveResult act) s = execCollectiveResult act s := rfl
@[simp] theorem exec_packetDelivery {act} (s : State) : exec (.packetDelivery act) s = execPacketDelivery act s := rfl
@[simp] theorem exec_transportGiveUp {act} (s : State) : exec (.transportGiveUp act) s = execTransportGiveUp act s := rfl
@[simp] theorem exec_functionFence {kind reason unit} (s : State) : exec (.functionFence kind reason unit) s = execFunctionFence kind reason unit s := rfl
@[simp] theorem exec_deferredFencedTrap {slotid} (s : State) : exec (.deferredFencedTrap slotid) s = execDeferredFencedTrap slotid s := rfl
@[simp] theorem exec_debugRelease {slotid newPc} (s : State) : exec (.debugRelease slotid newPc) s = execDebugRelease slotid newPc s := rfl
@[simp] theorem exec_powerOnReset (s : State) : exec (.powerOnReset) s = execPowerOnReset s := rfl
@[simp] theorem exec_packageReset (s : State) : exec (.packageReset) s = execPackageReset s := rfl
@[simp] theorem exec_debugReset {core} (s : State) : exec (.debugReset core) s = execDebugReset core s := rfl
@[simp] theorem exec_lifeCycleChange {target verified} (s : State) : exec (.lifeCycleChange target verified) s = execLifeCycleChange target verified s := rfl
@[simp] theorem exec_wipeComplete {storey} (s : State) : exec (.wipeComplete storey) s = execWipeComplete storey s := rfl
@[simp] theorem exec_powerRemoved (s : State) : exec (.powerRemoved) s = execPowerRemoved s := rfl
@[simp] theorem exec_thrRise {power temp} (s : State) : exec (.thrRise power temp) s = execThrRise power temp s := rfl
@[simp] theorem exec_thrFall {power temp} (s : State) : exec (.thrFall power temp) s = execThrFall power temp s := rfl
@[simp] theorem exec_thermalTrip {temp} (s : State) : exec (.thermalTrip temp) s = execThermalTrip temp s := rfl
@[simp] theorem exec_thermalOff (s : State) : exec (.thermalOff) s = execThermalOff s := rfl
@[simp] theorem exec_msiXVectorUnmask {fn vector} (s : State) : exec (.msiXVectorUnmask fn vector) s = execMsiXVectorUnmask fn vector s := rfl
@[simp] theorem exec_poolModuleFailure {module} (s : State) : exec (.poolModuleFailure module) s = execPoolModuleFailure module s := rfl
@[simp] theorem exec_bouncedRequestReissue {act} (s : State) : exec (.bouncedRequestReissue act) s = execBouncedRequestReissue act s := rfl
@[simp] theorem exec_mirroredChange {act} (s : State) : exec (.mirroredChange act) s = execMirroredChange act s := rfl
@[simp] theorem exec_sourceHomeNotice {act} (s : State) : exec (.sourceHomeNotice act) s = execSourceHomeNotice act s := rfl
@[simp] theorem exec_rankCompletionReport {act} (s : State) : exec (.rankCompletionReport act) s = execRankCompletionReport act s := rfl

end Sys2Proof.Machine
end

