-- ==== Sys2Proof/Laws/Tables.lean ====
section
/-!
SUPPORT. Laws.Tables: reading a table or a memory after a change of it, and the canonical form of memories, which every
memory operation keeps.
-/

namespace Sys2Proof.Machine

open Sys2Proof

/-! ### Tables -/

@[simp] theorem Tab.look_nil {α : Type} (k : Nat) : Tab.look ([] : Tab α) k = none := rfl

@[simp] theorem Tab.look_put_self {α : Type} (t : Tab α) (k : Nat) (v : α) : (Tab.put t k v).look k = some v := by
  induction t with
  | nil => simp [Tab.put, Tab.look]
  | cons p r ih =>
    obtain ⟨j, x⟩ := p
    unfold Tab.put
    split
    · simp [Tab.look]
    · split
      · simp [Tab.look]
      · simp [Tab.look, *]

theorem Tab.look_put_ne {α : Type} (t : Tab α) {k j : Nat} (v : α) (h : j ≠ k) : (Tab.put t k v).look j = t.look j := by
  have h' : ¬ k = j := fun e => h e.symm
  induction t with
  | nil => simp [Tab.put, Tab.look, h']
  | cons p r ih =>
    obtain ⟨i, x⟩ := p
    unfold Tab.put
    split
    · rename_i e; subst e; simp [Tab.look, h']
    · split
      · simp [Tab.look, h']
      · simp [Tab.look, ih]

theorem Tab.look_put {α : Type} (t : Tab α) (k j : Nat) (v : α) :
    (Tab.put t k v).look j = if j = k then some v else t.look j := by
  by_cases h : j = k
  · subst h; simp
  · simp [h, Tab.look_put_ne t v h]

@[simp] theorem Tab.lookD_put_self {α : Type} (t : Tab α) (k : Nat) (v d : α) : (Tab.put t k v).lookD k d = v := by
  simp [Tab.lookD]

theorem Tab.lookD_put_ne {α : Type} (t : Tab α) {k j : Nat} (v d : α) (h : j ≠ k) :
    (Tab.put t k v).lookD j d = t.lookD j d := by
  simp [Tab.lookD, Tab.look_put_ne t v h]

theorem Tab.look_del_ne {α : Type} (t : Tab α) {k j : Nat} (h : j ≠ k) : (Tab.del t k).look j = t.look j := by
  have h' : ¬ k = j := fun e => h e.symm
  induction t with
  | nil => rfl
  | cons p r ih =>
    obtain ⟨i, x⟩ := p
    unfold Tab.del
    split
    · rename_i e; subst e; simp [Tab.look, h']
    · simp [Tab.look, ih]

/-! ### Memories -/

theorem Mem.wfFrom_cons (lo a : Nat) (b : Byte) (r : Mem) :
    Mem.wfFrom lo ((a, b) :: r) = true ↔ lo ≤ a ∧ b ≠ 0 ∧ Mem.wfFrom (a + 1) r = true := by
  simp only [Mem.wfFrom, Bool.and_eq_true, decide_eq_true_eq, and_assoc]

theorem Mem.wfFrom_mono {lo lo' : Nat} (m : Mem) (h : lo' ≤ lo) (w : Mem.wfFrom lo m = true) : Mem.wfFrom lo' m = true := by
  cases m with
  | nil => rfl
  | cons p r => obtain ⟨a, b⟩ := p; rw [Mem.wfFrom_cons] at *; exact ⟨by omega, w.2⟩

/-- Below the first address nothing is listed. -/
theorem Mem.get_below {lo a : Nat} (m : Mem) (w : Mem.wfFrom lo m = true) (h : a < lo) : m.get a = 0 := by
  induction m generalizing lo with
  | nil => rfl
  | cons p r ih =>
    obtain ⟨j, b⟩ := p
    rw [Mem.wfFrom_cons] at w
    have : ¬ j = a := by omega
    simp [Mem.get, this]
    exact ih w.2.2 (by omega)

theorem Mem.wfFrom_erase {lo : Nat} (m : Mem) (a : Nat) (w : Mem.wfFrom lo m = true) : Mem.wfFrom lo (m.erase a) = true := by
  induction m generalizing lo with
  | nil => exact w
  | cons p r ih =>
    obtain ⟨j, b⟩ := p
    rw [Mem.wfFrom_cons] at w
    unfold Mem.erase
    split
    · exact Mem.wfFrom_mono r (by omega) w.2.2
    · exact (Mem.wfFrom_cons _ _ _ _).2 ⟨w.1, w.2.1, ih w.2.2⟩

theorem Mem.wfFrom_insert {lo : Nat} (m : Mem) (a : Nat) (v : Byte) (hv : v ≠ 0) (hlo : lo ≤ a)
    (w : Mem.wfFrom lo m = true) : Mem.wfFrom lo (m.insert a v) = true := by
  induction m generalizing lo with
  | nil => exact (Mem.wfFrom_cons _ _ _ _).2 ⟨hlo, hv, rfl⟩
  | cons p r ih =>
    obtain ⟨j, b⟩ := p
    rw [Mem.wfFrom_cons] at w
    unfold Mem.insert
    split
    · rename_i e; subst e; exact (Mem.wfFrom_cons _ _ _ _).2 ⟨hlo, hv, w.2.2⟩
    · split
      · exact (Mem.wfFrom_cons _ _ _ _).2 ⟨hlo, hv, (Mem.wfFrom_cons _ _ _ _).2 ⟨by omega, w.2⟩⟩
      · exact (Mem.wfFrom_cons _ _ _ _).2 ⟨w.1, w.2.1, ih (by omega) w.2.2⟩

/-- Writing a byte keeps the canonical form. -/
theorem Mem.wf_set (m : Mem) (a : Nat) (v : Byte) (w : m.wf = true) : (m.set a v).wf = true := by
  unfold Mem.set Mem.wf at *
  split
  · exact Mem.wfFrom_erase m a w
  · exact Mem.wfFrom_insert m a v (by assumption) (Nat.zero_le _) w

theorem Mem.wf_setMany (m : Mem) (a : Nat) (bs : List Byte) (w : m.wf = true) : (m.setMany a bs).wf = true := by
  induction bs generalizing m a with
  | nil => exact w
  | cons b r ih => exact ih _ _ (Mem.wf_set m a b w)

theorem Mem.wfFrom_filter {lo : Nat} (m : Mem) (p : Host.Cell → Bool) (w : Mem.wfFrom lo m = true) :
    Mem.wfFrom lo (m.filter p) = true := by
  induction m generalizing lo with
  | nil => exact w
  | cons q r ih =>
    obtain ⟨j, b⟩ := q
    rw [Mem.wfFrom_cons] at w
    rw [List.filter_cons]
    split
    · exact (Mem.wfFrom_cons _ _ _ _).2 ⟨w.1, w.2.1, ih w.2.2⟩
    · exact Mem.wfFrom_mono _ (by omega) (ih w.2.2)

theorem Mem.wf_clear (m : Mem) (lo hi : Nat) (w : m.wf = true) : (m.clear lo hi).wf = true :=
  Mem.wfFrom_filter m _ w

/-- Reading the byte written. -/
theorem Mem.get_set_self (m : Mem) (a : Nat) (v : Byte) (w : m.wf = true) : (m.set a v).get a = v := by
  unfold Mem.set Mem.wf at *
  generalize 0 = lo at w
  split
  · rename_i e; subst e
    induction m generalizing lo with
    | nil => rfl
    | cons p r ih =>
      obtain ⟨j, b⟩ := p
      rw [Mem.wfFrom_cons] at w
      unfold Mem.erase
      split
      · exact Mem.get_below r w.2.2 (by omega)
      · rename_i e; simp [Mem.get, e]; exact ih _ w.2.2
  · clear w
    induction m with
    | nil => simp [Mem.insert, Mem.get]
    | cons p r ih =>
      obtain ⟨j, b⟩ := p
      unfold Mem.insert
      split
      · simp [Mem.get]
      · split
        · simp [Mem.get]
        · simp [Mem.get, *]

/-- A write leaves every other byte. -/
theorem Mem.get_set_ne (m : Mem) {a c : Nat} (v : Byte) (h : c ≠ a) : (m.set a v).get c = m.get c := by
  have h' : ¬ a = c := fun e => h e.symm
  unfold Mem.set
  split
  · induction m with
    | nil => rfl
    | cons p r ih =>
      obtain ⟨j, b⟩ := p
      unfold Mem.erase
      split
      · rename_i e; subst e; simp [Mem.get, h']
      · simp [Mem.get, ih]
  · induction m with
    | nil => simp [Mem.insert, Mem.get, h']
    | cons p r ih =>
      obtain ⟨j, b⟩ := p
      unfold Mem.insert
      split
      · rename_i e; subst e; simp [Mem.get, h']
      · split
        · simp [Mem.get, h']
        · simp [Mem.get, ih]

/-- A write of bytes leaves every byte outside them. -/
theorem Mem.get_setMany_ne (m : Mem) {a c : Nat} (bs : List Byte) (h : c < a ∨ a + bs.length ≤ c) :
    (m.setMany a bs).get c = m.get c := by
  induction bs generalizing m a with
  | nil => rfl
  | cons b r ih =>
    simp only [List.length_cons] at h
    rw [Mem.setMany, ih _ (by omega), Mem.get_set_ne _ _ (by omega)]

/-- Reading a byte of those written. -/
theorem Mem.get_setMany (m : Mem) (a i : Nat) (bs : List Byte) (w : m.wf = true) (h : i < bs.length) :
    (m.setMany a bs).get (a + i) = bs[i] := by
  induction bs generalizing m a i with
  | nil => simp at h
  | cons b r ih =>
    cases i with
    | zero =>
      rw [Mem.setMany, Mem.get_setMany_ne _ _ (by omega)]
      simp [Mem.get_set_self m a b w]
    | succ n =>
      have := ih (m.set a b) (a + 1) n (Mem.wf_set m a b w) (by simpa using h)
      simpa [Mem.setMany, Nat.add_assoc, Nat.add_comm 1 n] using this

/-! ### Memory operations of the machine keep the canonical form -/

theorem State.wf_modMemory (s : State) (f : Memory → Memory) (h : (f s.memory).wf = true) :
    (s.modMemory f).memory.wf = true := h

@[simp] theorem State.noteWrite_memory (s : State) (p : Nat) (l : Loc) (n : Nat) : (s.noteWrite p l n).memory = s.memory := rfl

theorem Memory.wf_iff (m : Memory) :
    m.wf = true ↔ m.sram.wf = true ∧ m.stack.wf = true ∧ m.pool.wf = true ∧ m.host.wf = true := by
  simp [Memory.wf, and_assoc]

theorem Mem.wf_foldl_set (l : List (Byte × Nat)) (f : Mem → Byte × Nat → Mem)
    (hf : ∀ m p, m.wf = true → (f m p).wf = true) (m : Mem) (w : m.wf = true) : (l.foldl f m).wf = true := by
  induction l generalizing m with
  | nil => exact w
  | cons p r ih => exact ih _ (hf m p w)

theorem State.wf_sramWrite (s : State) (core off : Nat) (bs : List Byte) (w : s.memory.wf = true) :
    (s.sramWrite core off bs).memory.wf = true := by
  rw [Memory.wf_iff] at w
  unfold State.sramWrite
  split
  · refine State.wf_modMemory _ _ ((Memory.wf_iff _).2 ⟨?_, w.2⟩)
    refine Mem.wf_foldl_set _ _ ?_ _ w.1
    intro m p h
    split
    · exact h
    · exact Mem.wf_set _ _ _ h
  · exact State.wf_modMemory _ _ ((Memory.wf_iff _).2 ⟨Mem.wf_setMany _ _ _ w.1, w.2⟩)

theorem State.wf_setWordFull (s : State) (core off : Nat) (b : Bool) (w : s.memory.wf = true) :
    (s.setWordFull core off b).memory.wf = true := w

theorem State.wf_sramClear (s : State) (core lo hi : Nat) (w : s.memory.wf = true) :
    (s.sramClear core lo hi).memory.wf = true := by
  rw [Memory.wf_iff] at w
  exact (Memory.wf_iff _).2 ⟨Mem.wf_clear _ _ _ w.1, w.2⟩

theorem State.wf_modRaw (s : State) (cls : PClass) (f : Mem → Mem) (hf : ∀ m, m.wf = true → (f m).wf = true)
    (w : s.memory.wf = true) : (s.modRaw cls f).memory.wf = true := by
  rw [Memory.wf_iff] at w
  obtain ⟨w1, w2, w3, w4⟩ := w
  cases cls
  · exact (Memory.wf_iff _).2 ⟨w1, hf _ w2, w3, w4⟩
  · exact (Memory.wf_iff _).2 ⟨w1, w2, hf _ w3, w4⟩
  · exact (Memory.wf_iff _).2 ⟨w1, w2, w3, hf _ w4⟩

theorem State.wf_rekey (s : State) (part : Nat) (cls : PClass) (pa key : Nat) (w : s.memory.wf = true) :
    (s.rekey part cls pa key).memory.wf = true := by
  unfold State.rekey
  dsimp only
  refine State.wf_modMemory _ _ ?_
  split
  · exact w
  · split
    · exact w
    · exact State.wf_modRaw _ _ _ (fun m h => Mem.wf_setMany _ _ _ h) w

/-! The memory-side cache: its lines are no memory, and a line written back leaves every byte. -/

@[simp] theorem State.modLines_memory (s : State) (cls : PClass) (pa : Nat) (f : List LlcLine → List LlcLine) :
    (s.modLines cls pa f).memory = s.memory := rfl
@[simp] theorem State.modLine_memory (s : State) (cls : PClass) (pa : Nat) (f : LlcLine → LlcLine) :
    (s.modLine cls pa f).memory = s.memory := rfl
@[simp] theorem State.llcMark_memory (s : State) (cls : PClass) (pa : Nat) : (s.llcMark cls pa).memory = s.memory := rfl
@[simp] theorem State.llcMerge_memory (s : State) (cls : PClass) (pa key : Nat) (bs : List Byte) :
    (s.llcMerge cls pa key bs).memory = s.memory := rfl
@[simp] theorem State.llcForget_memory (s : State) (pa : Nat) : (s.llcForget pa).memory = s.memory := rfl
@[simp] theorem State.llcFront_memory (s : State) (cls : PClass) (pa : Nat) : (s.llcFront cls pa).memory = s.memory := by
  unfold State.llcFront; split <;> rfl
@[simp] theorem State.markCopied_memory (s : State) (pa : Nat) : (s.markCopied pa).memory = s.memory := by
  unfold State.markCopied; dsimp only; split <;> rfl

theorem State.wf_writeBack (s : State) (p : Nat → Bool) (w : s.memory.wf = true) : (s.writeBack p).memory.wf = true := w

theorem State.wf_llcDrop (s : State) (cls : PClass) (no : Nat) (w : s.memory.wf = true) : (s.llcDrop cls no).memory.wf = true := by
  unfold State.llcDrop
  dsimp only
  rw [State.modLines_memory]
  split
  · exact State.wf_writeBack _ _ w
  · exact w

theorem State.wf_llcForeign (s : State) (part : Nat) (cls : PClass) (pa : Nat) (w : s.memory.wf = true) :
    (s.llcForeign part cls pa).memory.wf = true := by
  unfold State.llcForeign
  split
  · split
    · exact w
    · exact State.wf_llcDrop _ _ _ w
  · exact w

theorem State.wf_llcEvict (s : State) (cls : PClass) (pa : Nat) (w : s.memory.wf = true) :
    (s.llcEvict cls pa).memory.wf = true := by
  unfold State.llcEvict
  dsimp only
  split
  · exact w
  · split
    · exact State.wf_llcDrop _ _ _ w
    · split
      · exact State.wf_llcDrop _ _ _ w
      · exact w

theorem State.wf_llcFill (s : State) (part : Nat) (cls : PClass) (pa key : Nat) (w : s.memory.wf = true) :
    (s.llcFill part cls pa key).memory.wf = true := by
  unfold State.llcFill
  dsimp only
  split
  · simpa using w
  · simpa using State.wf_llcEvict s cls pa w

theorem State.wf_markDirty (s : State) (part pa key : Nat) (w : s.memory.wf = true) :
    (s.markDirty part pa key).memory.wf = true := by
  unfold State.markDirty
  split
  · exact w
  · exact w

theorem State.wf_llcStore (s : State) (part hint : Nat) (cls : PClass) (pa key : Nat) (w : s.memory.wf = true) :
    (s.llcStore part hint cls pa key).memory.wf = true := by
  have w1 := State.wf_llcForeign s part cls pa w
  unfold State.llcStore
  generalize s.llcForeign part cls pa = s1 at w1
  dsimp only
  have key' : ∀ t : State, t.memory.wf = true →
      (if cls = .pool then t else if hint = 0 then t.markDirty part pa key else t.writeBack fun sec => sec == pa / 256).memory.wf = true := by
    intro t ht
    split
    · exact ht
    · split
      · exact State.wf_markDirty _ _ _ _ ht
      · exact State.wf_writeBack _ _ ht
  apply key'
  split
  · exact w1
  · split
    · simpa using w1
    · exact w1
  · simpa using w1
  · exact State.wf_llcFill _ _ _ _ _ w1
  · exact w1

theorem State.wf_physWrite (s : State) (part hint : Nat) (cls : PClass) (pa key : Nat) (bs : List Byte)
    (w : s.memory.wf = true) : (s.physWrite part hint cls pa key bs).memory.wf = true := by
  unfold State.physWrite
  split
  · exact State.wf_modRaw _ _ _ (fun m h => Mem.wf_setMany _ _ _ h) w
  · have h := State.wf_modRaw ((s.llcStore part hint cls pa key).rekey part cls pa key) cls (fun m => m.setMany pa bs)
      (fun m h => Mem.wf_setMany _ _ _ h) (State.wf_rekey _ _ _ _ _ (State.wf_llcStore _ _ _ _ _ _ w))
    dsimp only
    split
    · simpa using h
    · simpa using h

/-- A write at the pool controller keeps the canonical form. -/
theorem State.wf_poolWrite (s : State) (part pa key : Nat) (bs : List Byte) (w : s.memory.wf = true) :
    (s.poolWrite part pa key bs).memory.wf = true := by
  unfold State.poolWrite
  rw [State.llcForget_memory]
  exact State.wf_modRaw _ _ _ (fun m h => Mem.wf_setMany _ _ _ h) (State.wf_rekey _ _ _ _ _ w)

/-- Every write at a place keeps the canonical form. -/
theorem State.wf_writeLoc (s : State) (part hint : Nat) (l : Loc) (bs : List Byte) (w : s.memory.wf = true) :
    (s.writeLoc part hint l bs).memory.wf = true := by
  unfold State.writeLoc
  split
  · exact State.wf_sramWrite _ _ _ _ w
  · exact State.wf_physWrite _ _ _ _ _ _ _ w
  · exact w

/-- Every write of an engine or an atomic does. -/
theorem State.wf_writeEng (s : State) (part hint : Nat) (l : Loc) (bs : List Byte) (w : s.memory.wf = true) :
    (s.writeEng part hint l bs).memory.wf = true := by
  unfold State.writeEng
  split
  · exact State.wf_poolWrite _ _ _ _ _ w
  · exact State.wf_writeLoc _ _ _ _ _ w

end Sys2Proof.Machine
end

