-- ==== Sys2Proof/Laws/State.lean ====
section
/-!
SUPPORT. Laws.State: what each update of the state leaves in each field, one lemma a field, and what the accessors read
after an update of the unit that they read.
-/

namespace Sys2Proof.Machine

open Sys2Proof

/-! ### modCore -/

@[simp] theorem State.modCore_settled (s : State) (c : Nat) (f : Core → Core) : (s.modCore c f).settled = s.settled := rfl
@[simp] theorem State.modCore_cycle (s : State) (c : Nat) (f : Core → Core) : (s.modCore c f).cycle = s.cycle := rfl
@[simp] theorem State.modCore_threads (s : State) (c : Nat) (f : Core → Core) : (s.modCore c f).threads = s.threads := rfl
@[simp] theorem State.modCore_flights (s : State) (c : Nat) (f : Core → Core) : (s.modCore c f).flights = s.flights := rfl
@[simp] theorem State.modCore_storeys (s : State) (c : Nat) (f : Core → Core) : (s.modCore c f).storeys = s.storeys := rfl
@[simp] theorem State.modCore_slices (s : State) (c : Nat) (f : Core → Core) : (s.modCore c f).slices = s.slices := rfl
@[simp] theorem State.modCore_images (s : State) (c : Nat) (f : Core → Core) : (s.modCore c f).images = s.images := rfl
@[simp] theorem State.modCore_memory (s : State) (c : Nat) (f : Core → Core) : (s.modCore c f).memory = s.memory := rfl
@[simp] theorem State.modCore_pkg (s : State) (c : Nat) (f : Core → Core) : (s.modCore c f).pkg = s.pkg := rfl
@[simp] theorem State.modCore_acts (s : State) (c : Nat) (f : Core → Core) : (s.modCore c f).acts = s.acts := rfl
@[simp] theorem State.modCore_nextAct (s : State) (c : Nat) (f : Core → Core) : (s.modCore c f).nextAct = s.nextAct := rfl
@[simp] theorem State.modCore_cur (s : State) (c : Nat) (f : Core → Core) : (s.modCore c f).cur = s.cur := rfl
@[simp] theorem State.modCore_agenda (s : State) (c : Nat) (f : Core → Core) : (s.modCore c f).agenda = s.agenda := rfl
@[simp] theorem State.modCore_draws (s : State) (c : Nat) (f : Core → Core) : (s.modCore c f).draws = s.draws := rfl
@[simp] theorem State.modCore_out (s : State) (c : Nat) (f : Core → Core) : (s.modCore c f).out = s.out := rfl
@[simp] theorem State.modCore_peers (s : State) (c : Nat) (f : Core → Core) : (s.modCore c f).peers = s.peers := rfl

/-! ### modFlight -/

@[simp] theorem State.modFlight_settled (s : State) (n : Nat) (f : Flight → Flight) : (s.modFlight n f).settled = s.settled := rfl
@[simp] theorem State.modFlight_cycle (s : State) (n : Nat) (f : Flight → Flight) : (s.modFlight n f).cycle = s.cycle := rfl
@[simp] theorem State.modFlight_threads (s : State) (n : Nat) (f : Flight → Flight) : (s.modFlight n f).threads = s.threads := rfl
@[simp] theorem State.modFlight_cores (s : State) (n : Nat) (f : Flight → Flight) : (s.modFlight n f).cores = s.cores := rfl
@[simp] theorem State.modFlight_storeys (s : State) (n : Nat) (f : Flight → Flight) : (s.modFlight n f).storeys = s.storeys := rfl
@[simp] theorem State.modFlight_slices (s : State) (n : Nat) (f : Flight → Flight) : (s.modFlight n f).slices = s.slices := rfl
@[simp] theorem State.modFlight_images (s : State) (n : Nat) (f : Flight → Flight) : (s.modFlight n f).images = s.images := rfl
@[simp] theorem State.modFlight_memory (s : State) (n : Nat) (f : Flight → Flight) : (s.modFlight n f).memory = s.memory := rfl
@[simp] theorem State.modFlight_pkg (s : State) (n : Nat) (f : Flight → Flight) : (s.modFlight n f).pkg = s.pkg := rfl
@[simp] theorem State.modFlight_acts (s : State) (n : Nat) (f : Flight → Flight) : (s.modFlight n f).acts = s.acts := rfl
@[simp] theorem State.modFlight_nextAct (s : State) (n : Nat) (f : Flight → Flight) : (s.modFlight n f).nextAct = s.nextAct := rfl
@[simp] theorem State.modFlight_cur (s : State) (n : Nat) (f : Flight → Flight) : (s.modFlight n f).cur = s.cur := rfl
@[simp] theorem State.modFlight_agenda (s : State) (n : Nat) (f : Flight → Flight) : (s.modFlight n f).agenda = s.agenda := rfl
@[simp] theorem State.modFlight_draws (s : State) (n : Nat) (f : Flight → Flight) : (s.modFlight n f).draws = s.draws := rfl
@[simp] theorem State.modFlight_out (s : State) (n : Nat) (f : Flight → Flight) : (s.modFlight n f).out = s.out := rfl
@[simp] theorem State.modFlight_peers (s : State) (n : Nat) (f : Flight → Flight) : (s.modFlight n f).peers = s.peers := rfl

/-! ### modStorey -/

@[simp] theorem State.modStorey_settled (s : State) (n : Nat) (f : Storey → Storey) : (s.modStorey n f).settled = s.settled := rfl
@[simp] theorem State.modStorey_cycle (s : State) (n : Nat) (f : Storey → Storey) : (s.modStorey n f).cycle = s.cycle := rfl
@[simp] theorem State.modStorey_threads (s : State) (n : Nat) (f : Storey → Storey) : (s.modStorey n f).threads = s.threads := rfl
@[simp] theorem State.modStorey_cores (s : State) (n : Nat) (f : Storey → Storey) : (s.modStorey n f).cores = s.cores := rfl
@[simp] theorem State.modStorey_flights (s : State) (n : Nat) (f : Storey → Storey) : (s.modStorey n f).flights = s.flights := rfl
@[simp] theorem State.modStorey_slices (s : State) (n : Nat) (f : Storey → Storey) : (s.modStorey n f).slices = s.slices := rfl
@[simp] theorem State.modStorey_images (s : State) (n : Nat) (f : Storey → Storey) : (s.modStorey n f).images = s.images := rfl
@[simp] theorem State.modStorey_memory (s : State) (n : Nat) (f : Storey → Storey) : (s.modStorey n f).memory = s.memory := rfl
@[simp] theorem State.modStorey_pkg (s : State) (n : Nat) (f : Storey → Storey) : (s.modStorey n f).pkg = s.pkg := rfl
@[simp] theorem State.modStorey_acts (s : State) (n : Nat) (f : Storey → Storey) : (s.modStorey n f).acts = s.acts := rfl
@[simp] theorem State.modStorey_nextAct (s : State) (n : Nat) (f : Storey → Storey) : (s.modStorey n f).nextAct = s.nextAct := rfl
@[simp] theorem State.modStorey_cur (s : State) (n : Nat) (f : Storey → Storey) : (s.modStorey n f).cur = s.cur := rfl
@[simp] theorem State.modStorey_agenda (s : State) (n : Nat) (f : Storey → Storey) : (s.modStorey n f).agenda = s.agenda := rfl
@[simp] theorem State.modStorey_draws (s : State) (n : Nat) (f : Storey → Storey) : (s.modStorey n f).draws = s.draws := rfl
@[simp] theorem State.modStorey_out (s : State) (n : Nat) (f : Storey → Storey) : (s.modStorey n f).out = s.out := rfl
@[simp] theorem State.modStorey_peers (s : State) (n : Nat) (f : Storey → Storey) : (s.modStorey n f).peers = s.peers := rfl

/-! ### modSlice -/

@[simp] theorem State.modSlice_settled (s : State) (n : Nat) (f : Slice → Slice) : (s.modSlice n f).settled = s.settled := rfl
@[simp] theorem State.modSlice_cycle (s : State) (n : Nat) (f : Slice → Slice) : (s.modSlice n f).cycle = s.cycle := rfl
@[simp] theorem State.modSlice_threads (s : State) (n : Nat) (f : Slice → Slice) : (s.modSlice n f).threads = s.threads := rfl
@[simp] theorem State.modSlice_cores (s : State) (n : Nat) (f : Slice → Slice) : (s.modSlice n f).cores = s.cores := rfl
@[simp] theorem State.modSlice_flights (s : State) (n : Nat) (f : Slice → Slice) : (s.modSlice n f).flights = s.flights := rfl
@[simp] theorem State.modSlice_storeys (s : State) (n : Nat) (f : Slice → Slice) : (s.modSlice n f).storeys = s.storeys := rfl
@[simp] theorem State.modSlice_images (s : State) (n : Nat) (f : Slice → Slice) : (s.modSlice n f).images = s.images := rfl
@[simp] theorem State.modSlice_memory (s : State) (n : Nat) (f : Slice → Slice) : (s.modSlice n f).memory = s.memory := rfl
@[simp] theorem State.modSlice_pkg (s : State) (n : Nat) (f : Slice → Slice) : (s.modSlice n f).pkg = s.pkg := rfl
@[simp] theorem State.modSlice_acts (s : State) (n : Nat) (f : Slice → Slice) : (s.modSlice n f).acts = s.acts := rfl
@[simp] theorem State.modSlice_nextAct (s : State) (n : Nat) (f : Slice → Slice) : (s.modSlice n f).nextAct = s.nextAct := rfl
@[simp] theorem State.modSlice_cur (s : State) (n : Nat) (f : Slice → Slice) : (s.modSlice n f).cur = s.cur := rfl
@[simp] theorem State.modSlice_agenda (s : State) (n : Nat) (f : Slice → Slice) : (s.modSlice n f).agenda = s.agenda := rfl
@[simp] theorem State.modSlice_draws (s : State) (n : Nat) (f : Slice → Slice) : (s.modSlice n f).draws = s.draws := rfl
@[simp] theorem State.modSlice_out (s : State) (n : Nat) (f : Slice → Slice) : (s.modSlice n f).out = s.out := rfl
@[simp] theorem State.modSlice_peers (s : State) (n : Nat) (f : Slice → Slice) : (s.modSlice n f).peers = s.peers := rfl

/-! ### modPkg -/

@[simp] theorem State.modPkg_settled (s : State) (f : Pkg → Pkg) : (s.modPkg f).settled = s.settled := rfl
@[simp] theorem State.modPkg_cycle (s : State) (f : Pkg → Pkg) : (s.modPkg f).cycle = s.cycle := rfl
@[simp] theorem State.modPkg_threads (s : State) (f : Pkg → Pkg) : (s.modPkg f).threads = s.threads := rfl
@[simp] theorem State.modPkg_cores (s : State) (f : Pkg → Pkg) : (s.modPkg f).cores = s.cores := rfl
@[simp] theorem State.modPkg_flights (s : State) (f : Pkg → Pkg) : (s.modPkg f).flights = s.flights := rfl
@[simp] theorem State.modPkg_storeys (s : State) (f : Pkg → Pkg) : (s.modPkg f).storeys = s.storeys := rfl
@[simp] theorem State.modPkg_slices (s : State) (f : Pkg → Pkg) : (s.modPkg f).slices = s.slices := rfl
@[simp] theorem State.modPkg_images (s : State) (f : Pkg → Pkg) : (s.modPkg f).images = s.images := rfl
@[simp] theorem State.modPkg_memory (s : State) (f : Pkg → Pkg) : (s.modPkg f).memory = s.memory := rfl
@[simp] theorem State.modPkg_acts (s : State) (f : Pkg → Pkg) : (s.modPkg f).acts = s.acts := rfl
@[simp] theorem State.modPkg_nextAct (s : State) (f : Pkg → Pkg) : (s.modPkg f).nextAct = s.nextAct := rfl
@[simp] theorem State.modPkg_cur (s : State) (f : Pkg → Pkg) : (s.modPkg f).cur = s.cur := rfl
@[simp] theorem State.modPkg_agenda (s : State) (f : Pkg → Pkg) : (s.modPkg f).agenda = s.agenda := rfl
@[simp] theorem State.modPkg_draws (s : State) (f : Pkg → Pkg) : (s.modPkg f).draws = s.draws := rfl
@[simp] theorem State.modPkg_out (s : State) (f : Pkg → Pkg) : (s.modPkg f).out = s.out := rfl
@[simp] theorem State.modPkg_peers (s : State) (f : Pkg → Pkg) : (s.modPkg f).peers = s.peers := rfl

/-! ### modMemory -/

@[simp] theorem State.modMemory_settled (s : State) (f : Memory → Memory) : (s.modMemory f).settled = s.settled := rfl
@[simp] theorem State.modMemory_cycle (s : State) (f : Memory → Memory) : (s.modMemory f).cycle = s.cycle := rfl
@[simp] theorem State.modMemory_threads (s : State) (f : Memory → Memory) : (s.modMemory f).threads = s.threads := rfl
@[simp] theorem State.modMemory_cores (s : State) (f : Memory → Memory) : (s.modMemory f).cores = s.cores := rfl
@[simp] theorem State.modMemory_flights (s : State) (f : Memory → Memory) : (s.modMemory f).flights = s.flights := rfl
@[simp] theorem State.modMemory_storeys (s : State) (f : Memory → Memory) : (s.modMemory f).storeys = s.storeys := rfl
@[simp] theorem State.modMemory_slices (s : State) (f : Memory → Memory) : (s.modMemory f).slices = s.slices := rfl
@[simp] theorem State.modMemory_images (s : State) (f : Memory → Memory) : (s.modMemory f).images = s.images := rfl
@[simp] theorem State.modMemory_pkg (s : State) (f : Memory → Memory) : (s.modMemory f).pkg = s.pkg := rfl
@[simp] theorem State.modMemory_acts (s : State) (f : Memory → Memory) : (s.modMemory f).acts = s.acts := rfl
@[simp] theorem State.modMemory_nextAct (s : State) (f : Memory → Memory) : (s.modMemory f).nextAct = s.nextAct := rfl
@[simp] theorem State.modMemory_cur (s : State) (f : Memory → Memory) : (s.modMemory f).cur = s.cur := rfl
@[simp] theorem State.modMemory_agenda (s : State) (f : Memory → Memory) : (s.modMemory f).agenda = s.agenda := rfl
@[simp] theorem State.modMemory_draws (s : State) (f : Memory → Memory) : (s.modMemory f).draws = s.draws := rfl
@[simp] theorem State.modMemory_out (s : State) (f : Memory → Memory) : (s.modMemory f).out = s.out := rfl
@[simp] theorem State.modMemory_peers (s : State) (f : Memory → Memory) : (s.modMemory f).peers = s.peers := rfl

/-! ### dropAct -/

@[simp] theorem State.dropAct_settled (s : State) (n : Nat) : (s.dropAct n).settled = s.settled := rfl
@[simp] theorem State.dropAct_cycle (s : State) (n : Nat) : (s.dropAct n).cycle = s.cycle := rfl
@[simp] theorem State.dropAct_threads (s : State) (n : Nat) : (s.dropAct n).threads = s.threads := rfl
@[simp] theorem State.dropAct_cores (s : State) (n : Nat) : (s.dropAct n).cores = s.cores := rfl
@[simp] theorem State.dropAct_flights (s : State) (n : Nat) : (s.dropAct n).flights = s.flights := rfl
@[simp] theorem State.dropAct_storeys (s : State) (n : Nat) : (s.dropAct n).storeys = s.storeys := rfl
@[simp] theorem State.dropAct_slices (s : State) (n : Nat) : (s.dropAct n).slices = s.slices := rfl
@[simp] theorem State.dropAct_images (s : State) (n : Nat) : (s.dropAct n).images = s.images := rfl
@[simp] theorem State.dropAct_memory (s : State) (n : Nat) : (s.dropAct n).memory = s.memory := rfl
@[simp] theorem State.dropAct_pkg (s : State) (n : Nat) : (s.dropAct n).pkg = s.pkg := rfl
@[simp] theorem State.dropAct_nextAct (s : State) (n : Nat) : (s.dropAct n).nextAct = s.nextAct := rfl
@[simp] theorem State.dropAct_cur (s : State) (n : Nat) : (s.dropAct n).cur = s.cur := rfl
@[simp] theorem State.dropAct_agenda (s : State) (n : Nat) : (s.dropAct n).agenda = s.agenda := rfl
@[simp] theorem State.dropAct_draws (s : State) (n : Nat) : (s.dropAct n).draws = s.draws := rfl
@[simp] theorem State.dropAct_out (s : State) (n : Nat) : (s.dropAct n).out = s.out := rfl
@[simp] theorem State.dropAct_peers (s : State) (n : Nat) : (s.dropAct n).peers = s.peers := rfl

/-! ### putThread -/

@[simp] theorem State.putThread_settled (s : State) (n : Nat) (t : Thread) : (s.putThread n t).settled = s.settled := rfl
@[simp] theorem State.putThread_cycle (s : State) (n : Nat) (t : Thread) : (s.putThread n t).cycle = s.cycle := rfl
@[simp] theorem State.putThread_cores (s : State) (n : Nat) (t : Thread) : (s.putThread n t).cores = s.cores := rfl
@[simp] theorem State.putThread_flights (s : State) (n : Nat) (t : Thread) : (s.putThread n t).flights = s.flights := rfl
@[simp] theorem State.putThread_storeys (s : State) (n : Nat) (t : Thread) : (s.putThread n t).storeys = s.storeys := rfl
@[simp] theorem State.putThread_slices (s : State) (n : Nat) (t : Thread) : (s.putThread n t).slices = s.slices := rfl
@[simp] theorem State.putThread_images (s : State) (n : Nat) (t : Thread) : (s.putThread n t).images = s.images := rfl
@[simp] theorem State.putThread_memory (s : State) (n : Nat) (t : Thread) : (s.putThread n t).memory = s.memory := rfl
@[simp] theorem State.putThread_pkg (s : State) (n : Nat) (t : Thread) : (s.putThread n t).pkg = s.pkg := rfl
@[simp] theorem State.putThread_acts (s : State) (n : Nat) (t : Thread) : (s.putThread n t).acts = s.acts := rfl
@[simp] theorem State.putThread_nextAct (s : State) (n : Nat) (t : Thread) : (s.putThread n t).nextAct = s.nextAct := rfl
@[simp] theorem State.putThread_cur (s : State) (n : Nat) (t : Thread) : (s.putThread n t).cur = s.cur := rfl
@[simp] theorem State.putThread_agenda (s : State) (n : Nat) (t : Thread) : (s.putThread n t).agenda = s.agenda := rfl
@[simp] theorem State.putThread_draws (s : State) (n : Nat) (t : Thread) : (s.putThread n t).draws = s.draws := rfl
@[simp] theorem State.putThread_out (s : State) (n : Nat) (t : Thread) : (s.putThread n t).out = s.out := rfl
@[simp] theorem State.putThread_peers (s : State) (n : Nat) (t : Thread) : (s.putThread n t).peers = s.peers := rfl

/-! ### post -/

@[simp] theorem State.post_settled (s : State) (fl : List (Nat × Nat × Nat)) (k : ActKind) : (s.post fl k).settled = s.settled := rfl
@[simp] theorem State.post_cycle (s : State) (fl : List (Nat × Nat × Nat)) (k : ActKind) : (s.post fl k).cycle = s.cycle := rfl
@[simp] theorem State.post_threads (s : State) (fl : List (Nat × Nat × Nat)) (k : ActKind) : (s.post fl k).threads = s.threads := rfl
@[simp] theorem State.post_cores (s : State) (fl : List (Nat × Nat × Nat)) (k : ActKind) : (s.post fl k).cores = s.cores := rfl
@[simp] theorem State.post_flights (s : State) (fl : List (Nat × Nat × Nat)) (k : ActKind) : (s.post fl k).flights = s.flights := rfl
@[simp] theorem State.post_storeys (s : State) (fl : List (Nat × Nat × Nat)) (k : ActKind) : (s.post fl k).storeys = s.storeys := rfl
@[simp] theorem State.post_slices (s : State) (fl : List (Nat × Nat × Nat)) (k : ActKind) : (s.post fl k).slices = s.slices := rfl
@[simp] theorem State.post_images (s : State) (fl : List (Nat × Nat × Nat)) (k : ActKind) : (s.post fl k).images = s.images := rfl
@[simp] theorem State.post_memory (s : State) (fl : List (Nat × Nat × Nat)) (k : ActKind) : (s.post fl k).memory = s.memory := rfl
@[simp] theorem State.post_pkg (s : State) (fl : List (Nat × Nat × Nat)) (k : ActKind) : (s.post fl k).pkg = s.pkg := rfl
@[simp] theorem State.post_cur (s : State) (fl : List (Nat × Nat × Nat)) (k : ActKind) : (s.post fl k).cur = s.cur := rfl
@[simp] theorem State.post_agenda (s : State) (fl : List (Nat × Nat × Nat)) (k : ActKind) : (s.post fl k).agenda = s.agenda := rfl
@[simp] theorem State.post_draws (s : State) (fl : List (Nat × Nat × Nat)) (k : ActKind) : (s.post fl k).draws = s.draws := rfl
@[simp] theorem State.post_out (s : State) (fl : List (Nat × Nat × Nat)) (k : ActKind) : (s.post fl k).out = s.out := rfl
@[simp] theorem State.post_peers (s : State) (fl : List (Nat × Nat × Nat)) (k : ActKind) : (s.post fl k).peers = s.peers := rfl

/-! ### modThr: only the threads change -/

@[simp] theorem State.modThr_settled (s : State) (n : Nat) (f : Thread → Thread) : (s.modThr n f).settled = s.settled := by
  unfold State.modThr; split <;> rfl
@[simp] theorem State.modThr_cycle (s : State) (n : Nat) (f : Thread → Thread) : (s.modThr n f).cycle = s.cycle := by
  unfold State.modThr; split <;> rfl
@[simp] theorem State.modThr_cores (s : State) (n : Nat) (f : Thread → Thread) : (s.modThr n f).cores = s.cores := by
  unfold State.modThr; split <;> rfl
@[simp] theorem State.modThr_flights (s : State) (n : Nat) (f : Thread → Thread) : (s.modThr n f).flights = s.flights := by
  unfold State.modThr; split <;> rfl
@[simp] theorem State.modThr_storeys (s : State) (n : Nat) (f : Thread → Thread) : (s.modThr n f).storeys = s.storeys := by
  unfold State.modThr; split <;> rfl
@[simp] theorem State.modThr_slices (s : State) (n : Nat) (f : Thread → Thread) : (s.modThr n f).slices = s.slices := by
  unfold State.modThr; split <;> rfl
@[simp] theorem State.modThr_images (s : State) (n : Nat) (f : Thread → Thread) : (s.modThr n f).images = s.images := by
  unfold State.modThr; split <;> rfl
@[simp] theorem State.modThr_memory (s : State) (n : Nat) (f : Thread → Thread) : (s.modThr n f).memory = s.memory := by
  unfold State.modThr; split <;> rfl
@[simp] theorem State.modThr_pkg (s : State) (n : Nat) (f : Thread → Thread) : (s.modThr n f).pkg = s.pkg := by
  unfold State.modThr; split <;> rfl
@[simp] theorem State.modThr_acts (s : State) (n : Nat) (f : Thread → Thread) : (s.modThr n f).acts = s.acts := by
  unfold State.modThr; split <;> rfl
@[simp] theorem State.modThr_nextAct (s : State) (n : Nat) (f : Thread → Thread) : (s.modThr n f).nextAct = s.nextAct := by
  unfold State.modThr; split <;> rfl
@[simp] theorem State.modThr_cur (s : State) (n : Nat) (f : Thread → Thread) : (s.modThr n f).cur = s.cur := by
  unfold State.modThr; split <;> rfl
@[simp] theorem State.modThr_agenda (s : State) (n : Nat) (f : Thread → Thread) : (s.modThr n f).agenda = s.agenda := by
  unfold State.modThr; split <;> rfl
@[simp] theorem State.modThr_draws (s : State) (n : Nat) (f : Thread → Thread) : (s.modThr n f).draws = s.draws := by
  unfold State.modThr; split <;> rfl
@[simp] theorem State.modThr_out (s : State) (n : Nat) (f : Thread → Thread) : (s.modThr n f).out = s.out := by
  unfold State.modThr; split <;> rfl
@[simp] theorem State.modThr_peers (s : State) (n : Nat) (f : Thread → Thread) : (s.modThr n f).peers = s.peers := by
  unfold State.modThr; split <;> rfl

/-! ### modMe, setPc, modRegs and delay: only the issuing thread changes -/

@[simp] theorem State.modMe_settled (s : State) (f : Thread → Thread) : (s.modMe f).settled = s.settled := State.modThr_settled _ _ _
@[simp] theorem State.modMe_cycle (s : State) (f : Thread → Thread) : (s.modMe f).cycle = s.cycle := State.modThr_cycle _ _ _
@[simp] theorem State.modMe_cores (s : State) (f : Thread → Thread) : (s.modMe f).cores = s.cores := State.modThr_cores _ _ _
@[simp] theorem State.modMe_flights (s : State) (f : Thread → Thread) : (s.modMe f).flights = s.flights := State.modThr_flights _ _ _
@[simp] theorem State.modMe_storeys (s : State) (f : Thread → Thread) : (s.modMe f).storeys = s.storeys := State.modThr_storeys _ _ _
@[simp] theorem State.modMe_slices (s : State) (f : Thread → Thread) : (s.modMe f).slices = s.slices := State.modThr_slices _ _ _
@[simp] theorem State.modMe_images (s : State) (f : Thread → Thread) : (s.modMe f).images = s.images := State.modThr_images _ _ _
@[simp] theorem State.modMe_memory (s : State) (f : Thread → Thread) : (s.modMe f).memory = s.memory := State.modThr_memory _ _ _
@[simp] theorem State.modMe_pkg (s : State) (f : Thread → Thread) : (s.modMe f).pkg = s.pkg := State.modThr_pkg _ _ _
@[simp] theorem State.modMe_acts (s : State) (f : Thread → Thread) : (s.modMe f).acts = s.acts := State.modThr_acts _ _ _
@[simp] theorem State.modMe_nextAct (s : State) (f : Thread → Thread) : (s.modMe f).nextAct = s.nextAct := State.modThr_nextAct _ _ _
@[simp] theorem State.modMe_cur (s : State) (f : Thread → Thread) : (s.modMe f).cur = s.cur := State.modThr_cur _ _ _
@[simp] theorem State.modMe_agenda (s : State) (f : Thread → Thread) : (s.modMe f).agenda = s.agenda := State.modThr_agenda _ _ _
@[simp] theorem State.modMe_draws (s : State) (f : Thread → Thread) : (s.modMe f).draws = s.draws := State.modThr_draws _ _ _
@[simp] theorem State.modMe_out (s : State) (f : Thread → Thread) : (s.modMe f).out = s.out := State.modThr_out _ _ _
@[simp] theorem State.modMe_peers (s : State) (f : Thread → Thread) : (s.modMe f).peers = s.peers := State.modThr_peers _ _ _

/-! ### Accessors -/

@[simp] theorem State.modCore_core (s : State) (c : Nat) (f : Core → Core) : (s.modCore c f).core c = f (s.core c) := by
  simp [State.core, State.modCore]

theorem State.modCore_core_ne (s : State) {c d : Nat} (f : Core → Core) (h : d ≠ c) : (s.modCore c f).core d = s.core d := by
  simp [State.core, State.modCore, Tab.lookD_put_ne _ _ _ h]

@[simp] theorem State.modSlice_slice (s : State) (c : Nat) (f : Slice → Slice) : (s.modSlice c f).slice c = f (s.slice c) := by
  simp [State.slice, State.modSlice]

@[simp] theorem State.modStorey_storey (s : State) (c : Nat) (f : Storey → Storey) : (s.modStorey c f).storey c = f (s.storey c) := by
  simp [State.storey, State.modStorey]

@[simp] theorem State.modFlight_flight (s : State) (c : Nat) (f : Flight → Flight) : (s.modFlight c f).flight c = f (s.flight c) := by
  simp [State.flight, State.modFlight]

/-- What stands in a slot after a change of its thread. -/
theorem State.modThr_thr?_self (s : State) (n : Nat) (f : Thread → Thread) : (s.modThr n f).thr? n = (s.thr? n).map f := by
  unfold State.modThr
  cases h : s.thr? n with
  | none => simp [h]
  | some t => simp [State.thr?]

theorem State.modThr_thr?_ne (s : State) {n m : Nat} (f : Thread → Thread) (h : m ≠ n) : (s.modThr n f).thr? m = s.thr? m := by
  unfold State.modThr
  split
  · rfl
  · simp [State.thr?, Tab.look_put_ne _ _ h]

theorem State.thr_eq (s : State) (n : Nat) : s.thr n = (s.thr? n).getD {} := rfl

/-- The thread of a slot that holds one. -/
theorem State.thr_of_some {s : State} {n : Nat} {t : Thread} (h : s.thr? n = some t) : s.thr n = t := by
  simp [State.thr_eq, h]

theorem State.modThr_thr_self {s : State} {n : Nat} (f : Thread → Thread) (h : (s.thr? n).isSome = true) :
    (s.modThr n f).thr n = f (s.thr n) := by
  obtain ⟨t, ht⟩ := Option.isSome_iff_exists.1 h
  simp [State.thr_eq, State.modThr_thr?_self, ht]

theorem State.modThr_thr_ne (s : State) {n m : Nat} (f : Thread → Thread) (h : m ≠ n) : (s.modThr n f).thr m = s.thr m := by
  simp [State.thr_eq, State.modThr_thr?_ne s f h]

theorem State.modMe_me {s : State} (f : Thread → Thread) (h : (s.thr? s.cur).isSome = true) : (s.modMe f).me = f s.me := by
  simpa [State.me, State.modMe] using State.modThr_thr_self f h

@[simp] theorem State.modMe_isSome (s : State) (n : Nat) (f : Thread → Thread) :
    ((s.modMe f).thr? n).isSome = (s.thr? n).isSome := by
  by_cases h : n = s.cur
  · subst h; simp [State.modMe, State.modThr_thr?_self]
  · simp [State.modMe, State.modThr_thr?_ne s f h]

/-- Two changes of one thread are one change. -/
theorem State.modThr_modThr (s : State) (n : Nat) (f g : Thread → Thread) : (s.modThr n f).modThr n g = s.modThr n fun t => g (f t) := by
  have put_put : ∀ (l : Tab Thread) (x y : Thread), (Tab.put (Tab.put l n x) n y) = Tab.put l n y := by
    intro l x y
    induction l with
    | nil => simp [Tab.put]
    | cons p r ih =>
      obtain ⟨j, z⟩ := p
      by_cases h1 : j = n
      · simp [Tab.put, h1]
      · by_cases h2 : n < j
        · simp [Tab.put, h1, h2]
        · simp [Tab.put, h1, h2, ih]
  unfold State.modThr
  cases h : s.thr? n with
  | none => simp [h]
  | some t => simp [State.thr?, put_put]

/-- A change of a thread touches no other thread and no other field. -/
theorem State.modThr_only (s : State) (n : Nat) (f : Thread → Thread) : { s.modThr n f with threads := s.threads } = s := by
  unfold State.modThr; split <;> rfl

end Sys2Proof.Machine
end

