-- ==== Sys2Proof/Laws/Ops.lean ====
section
/-!
SUPPORT. Laws.Ops: what each shared operation does: issuing with operands, the ends of an instruction, register writes,
the receive queues, and taking a trap.
-/

namespace Sys2Proof.Machine

open Sys2Proof

/-! ### Issue -/

/-- Operands ready: the body decides. -/
theorem State.perform_ready {s : State} {ops : List Opnd} (body : State → Res) (h : (s.thr? s.cur).isSome = true)
    (hb : s.blocked ops = none) : s.perform ops body = .next (s.finish (body (s.consumeAll ops))) := by
  obtain ⟨t, ht⟩ := Option.isSome_iff_exists.1 h
  simp [State.perform, ht, hb]

/-- An operand that is not ready: the thread parks on it. -/
theorem State.perform_blocked {s : State} {ops : List Opnd} {w : Wait} (body : State → Res)
    (h : (s.thr? s.cur).isSome = true) (hb : s.blocked ops = some w) : s.perform ops body = .next (s.park w) := by
  obtain ⟨t, ht⟩ := Option.isSome_iff_exists.1 h
  simp [State.perform, ht, hb, State.finish]

/-- Everything that performing can answer. -/
theorem State.perform_next {s t : State} {ops : List Opnd} {body : State → Res} (h : s.perform ops body = .next t) :
    (s.thr? s.cur).isSome = true ∧
    ((∃ w, s.blocked ops = some w ∧ t = s.park w) ∨ (s.blocked ops = none ∧ t = s.finish (body (s.consumeAll ops)))) := by
  unfold State.perform at h
  split at h
  · cases h
  · rename_i x hx
    refine ⟨by simp [hx], ?_⟩
    split at h
    · rename_i w hw; injection h with h; exact .inl ⟨w, hw, h.symm⟩
    · rename_i hw; injection h with h; exact .inr ⟨hw, h.symm⟩

/-- A supervisor-only instruction in supervisor mode. -/
theorem State.performPriv_super {s : State} (i : Instr) (ops : List Opnd) (body : State → Res)
    (h : (s.thr? s.cur).isSome = true) (hm : s.me.userMode = false) : s.performPriv i ops body = s.perform ops body := by
  obtain ⟨t, ht⟩ := Option.isSome_iff_exists.1 h
  have : s.me = t := State.thr_of_some ht
  rw [this] at hm
  simp [State.performPriv, ht, hm]

/-- A supervisor-only instruction in user mode traps PRIV before its operands (R38). -/
theorem State.performPriv_user {s : State} (i : Instr) (ops : List Opnd) (body : State → Res)
    (h : (s.thr? s.cur).isSome = true) (hm : s.me.userMode = true) :
    s.performPriv i ops body = .next (s.takeTrap s.cur 2 (wordOf i) s.me.pc) := by
  obtain ⟨t, ht⟩ := Option.isSome_iff_exists.1 h
  have : s.me = t := State.thr_of_some ht
  rw [this] at hm
  simp [State.performPriv, ht, hm, State.finish, this]

/-! ### Ends of an instruction -/

@[simp] theorem State.finish_ok (s t : State) : s.finish (.ok t) = t.setPc (s.me.pc + 4) := rfl
@[simp] theorem State.finish_jump (s t : State) (pc : Word) : s.finish (.jump t pc) = t.setPc pc := rfl
@[simp] theorem State.finish_park (s : State) (w : Wait) : s.finish (.park w) = s.park w := rfl
@[simp] theorem State.finish_trap (s : State) (c : Nat) (v : Addr) : s.finish (.trap c v) = s.takeTrap s.cur c v s.me.pc := rfl
@[simp] theorem State.finish_trapNext (s : State) (c : Nat) (v : Addr) :
    s.finish (.trapNext c v) = s.takeTrap s.cur c v (s.me.pc + 4) := rfl
@[simp] theorem State.finish_gone (s t : State) : s.finish (.gone t) = t := rfl
@[simp] theorem State.finish_hold (s t : State) (w : Wait) :
    s.finish (.hold t w) = t.modMe fun x => { x with pc := s.me.pc + 4, recs := [], park := some w } := rfl

/-- The operands that can park a thread, and on what. -/
theorem State.blocked_cases (s : State) (ops : List Opnd) (w : Wait) (h : s.blocked ops = some w) :
    (∃ n, .s n ∈ ops ∧ w = .reg n) ∨ (∃ n, .v n ∈ ops ∧ w = .vreg n) ∨ (∃ n, .d n ∈ ops ∧ w = .room n) := by
  induction ops with
  | nil => cases h
  | cons o r ih =>
    have lift : ((∃ n, .s n ∈ r ∧ w = .reg n) ∨ (∃ n, .v n ∈ r ∧ w = .vreg n) ∨ (∃ n, .d n ∈ r ∧ w = .room n)) →
        ((∃ n, .s n ∈ o :: r ∧ w = .reg n) ∨ (∃ n, .v n ∈ o :: r ∧ w = .vreg n) ∨ (∃ n, .d n ∈ o :: r ∧ w = .room n)) := by
      rintro (⟨n, hn, e⟩ | ⟨n, hn, e⟩ | ⟨n, hn, e⟩)
      · exact .inl ⟨n, List.mem_cons_of_mem _ hn, e⟩
      · exact .inr (.inl ⟨n, List.mem_cons_of_mem _ hn, e⟩)
      · exact .inr (.inr ⟨n, List.mem_cons_of_mem _ hn, e⟩)
    cases o with
    | s n =>
      unfold State.blocked at h
      split at h
      · exact lift (ih h)
      · injection h with h; exact .inl ⟨n, by simp, h.symm⟩
    | v n =>
      unfold State.blocked at h
      split at h
      · exact lift (ih h)
      · injection h with h; exact .inr (.inl ⟨n, by simp, h.symm⟩)
    | d n =>
      unfold State.blocked at h
      split at h
      · injection h with h; exact .inr (.inr ⟨n, by simp, h.symm⟩)
      · exact lift (ih h)

/-- Parking on a register, or on a queue's room, sets what the thread waits for and nothing else. -/
theorem State.park_reg (s : State) (n : Nat) : s.park (.reg n) = s.modMe fun x => { x with park := some (.reg n) } := rfl
theorem State.park_vreg (s : State) (n : Nat) : s.park (.vreg n) = s.modMe fun x => { x with park := some (.vreg n) } := rfl
theorem State.park_room (s : State) (n : Nat) : s.park (.room n) = s.modMe fun x => { x with park := some (.room n) } := rfl

theorem State.park_blocked {s : State} {ops : List Opnd} {w : Wait} (h : s.blocked ops = some w) :
    s.park w = s.modMe fun x => { x with park := some w } := by
  rcases State.blocked_cases s ops w h with ⟨n, -, e⟩ | ⟨n, -, e⟩ | ⟨n, -, e⟩ <;> subst e <;> rfl

/-! ### Registers -/

/-- Outside slot 0 an instruction takes nothing from a queue. -/
theorem State.consume_off {s : State} (ops : List Opnd) (h : slotOf s.cur ≠ 0) : s.consume ops = s := by
  simp [State.consume, h]

/-- Where no operand is a vector register, no delivered result is observed. -/
theorem State.observe_none {s : State} {ops : List Opnd} (h : s.me.fresh = [] ∨ ∀ n, .v n ∉ ops) : s.observe ops = s := by
  unfold State.observe
  have e : (s.me.fresh.filter fun f => ops.contains (.v f.1)) = [] := by
    rcases h with h | h
    · simp [h]
    · simp [h]
  simp only [e, List.isEmpty_nil, if_true]

/-- What reading the operands does outside slot 0 when no delivered result is among them: nothing. -/
theorem State.consumeAll_off {s : State} {ops : List Opnd} (h : slotOf s.cur ≠ 0) (hv : s.me.fresh = [] ∨ ∀ n, .v n ∉ ops) :
    s.consumeAll ops = s := by
  unfold State.consumeAll
  rw [State.consume_off ops h, State.observe_none hv]

@[simp] theorem State.wS_zero (s : State) (v : Word) : s.wS 0 v = s := rfl

/-- A write of a register that no queue is bound to. -/
theorem State.wS_plain (s : State) (n : Nat) (v : Word) (h0 : n ≠ 0) (h : slotOf s.cur ≠ 0 ∨ n < 28) :
    s.wS n v = s.modRegs s.cur fun r => r.putS n v := by
  have : ¬ (slotOf s.cur = 0 ∧ 28 ≤ n) := by omega
  simp [State.wS, h0, this]

theorem State.modRegs_eq (s : State) (n : Nat) (f : Regs → Regs) : s.modRegs n f = s.modThr n fun t => { t with regs := f t.regs } := rfl

@[simp] theorem State.send_memory (s : State) (c : NetClass) (a b : Nat) (k : ActKind) : (s.send c a b k).memory = s.memory := rfl
@[simp] theorem State.send_cur (s : State) (c : NetClass) (a b : Nat) (k : ActKind) : (s.send c a b k).cur = s.cur := rfl
@[simp] theorem State.send_threads (s : State) (c : NetClass) (a b : Nat) (k : ActKind) : (s.send c a b k).threads = s.threads := rfl

theorem State.sendPacket_frame (s : State) (core : Nat) (cls : NetClass) (ws : List Word) :
    (s.sendPacket core cls ws).memory = s.memory ∧ (s.sendPacket core cls ws).cur = s.cur
    ∧ (s.sendPacket core cls ws).threads = s.threads := by
  unfold State.sendPacket
  split
  · simp
  · dsimp only; split
    · simp
    · split <;> simp

theorem State.enqueue_frame (s : State) (core : Nat) (cls : NetClass) (v : Word) :
    (s.enqueue core cls v).memory = s.memory ∧ (s.enqueue core cls v).cur = s.cur
    ∧ (s.enqueue core cls v).threads = s.threads := by
  unfold State.enqueue
  dsimp only
  generalize (if cls = .request then (s.core core).txReq else (s.core core).txColl) ++ [v] = q
  by_cases h : packetWords (q.headD 0) ≤ q.length
  · simp only [h, if_true]
    simp [State.sendPacket_frame]
  · simp only [h, if_false]
    simp

/-- A write of a scalar register changes no memory and no other thread. -/
theorem State.wS_memory (s : State) (n : Nat) (v : Word) : (s.wS n v).memory = s.memory := by
  unfold State.wS
  repeat' split
  all_goals simp [State.enqueue_frame, State.modRegs]

theorem State.wS_cur (s : State) (n : Nat) (v : Word) : (s.wS n v).cur = s.cur := by
  unfold State.wS
  repeat' split
  all_goals simp [State.enqueue_frame, State.modRegs]

/-- Everything that taking a trap can do to a thread that stands in a slot: it ends (a trap-active thread at once, another
after the read of a vector entry that is not usable); it waits for a page; or it enters the handler. -/
theorem State.takeTrap_cases (s : State) (id cause : Nat) (val : Addr) (pc : Word) :
    (∃ u, ((s.thr id).trapActive = true ∧ u = s ∨ (s.thr id).trapActive = false ∧ s.vecEntry (coreOf id) 0x3F = .unusable u)
      ∧ s.takeTrap id cause val pc = u.modThr id fun t =>
        { t with sys := { t.sys.trapped cause val pc with tstatus := t.sys.tstatus ||| 4 }, exiting := true, park := none })
    ∨ ((s.thr id).trapActive = false ∧ ∃ page cls prio, s.vecEntry (coreOf id) 0x3F = .absent page cls prio)
    ∨ ((s.thr id).trapActive = false ∧ ∃ u cls prio entry seg, s.vecEntry (coreOf id) 0x3F = .usable u cls prio entry seg ∧
        s.takeTrap id cause val pc = u.modThr id fun t =>
          { t with
            sys := { t.sys.trapped cause val pc with tstatus := setBit (setBit t.sys.tstatus 1 (t.sys.tstatus.getLsbD 0)) 0 true }
            savedSeg := t.segs.lookD 1 {}
            trapActive := true
            segs := t.segs.put 1 seg
            park := none
            ans := none
            recs := []
            pc := t.sys.tvec }) := by
  unfold State.takeTrap State.takeTrapAt
  dsimp only
  split
  · rename_i h
    exact .inl ⟨s, .inl ⟨h, rfl⟩, rfl⟩
  · rename_i h
    have h' : (s.thr id).trapActive = false := by simpa using h
    split
    · rename_i u e; exact .inl ⟨u, .inr ⟨h', e⟩, rfl⟩
    · rename_i page cls prio e; exact .inr (.inl ⟨h', page, cls, prio, e⟩)
    · rename_i u a b c d e; exact .inr (.inr ⟨h', u, a, b, c, d, e, rfl⟩)

end Sys2Proof.Machine
end

