-- ==== Sys2Proof/Laws/PerInstr.lean ====
section
/-!
SUPPORT. Laws.PerInstr: statements made of every instruction as syntax, one lemma a constructor.
Family Encoding: an encoded instruction is one word of 32 bits (02 R32); an event has no word.
-/

namespace Sys2Proof.Laws.Encoding

/-- Whatever word the encoder answers for the instruction fits one word of 32 bits (02 R32). -/
def Statement (i : Instr) : Prop := ∀ w, encode i = some w → w < 2 ^ 32

/-- An instruction without a word meets the statement. -/
theorem of_none {i : Instr} (h : encode i = none) : Statement i := by
  intro w hw; rw [h] at hw; cases hw

/-- An instruction whose word fits meets the statement. -/
theorem of_some {i : Instr} {w : Nat} (h : encode i = some w) (hw : w < 2 ^ 32) : Statement i := by
  intro v hv; rw [h] at hv; injection hv with hv; omega

/-- Format RR fits 32 bits. -/
theorem wordRR_lt {op d a b f6 : Nat} (h0 : op < 64) (h1 : d < 32) (h2 : a < 32) (h3 : b < 32) (h4 : f6 < 64) :
    wordRR op d a b f6 < 2 ^ 32 := by
  unfold wordRR; omega

/-- Format RI fits 32 bits. -/
theorem wordRI_lt {op d a imm : Nat} (h0 : op < 64) (h1 : d < 32) (h2 : a < 32) (h3 : imm < 65536) :
    wordRI op d a imm < 2 ^ 32 := by
  unfold wordRI; omega

/-- Format U fits 32 bits. -/
theorem wordU_lt {op d imm : Nat} (h0 : op < 64) (h1 : d < 32) (h2 : imm < 2097152) :
    wordU op d imm < 2 ^ 32 := by
  unfold wordU; omega

/-- Format B fits 32 bits. -/
theorem wordB_lt {op a b cond off : Nat} (h0 : op < 64) (h1 : a < 32) (h2 : b < 32) (h3 : cond < 8) (h4 : off < 8192) :
    wordB op a b cond off < 2 ^ 32 := by
  unfold wordB; omega

/-- Format M fits 32 bits. -/
theorem wordM_lt {op d a seg sz u imm : Nat} (h0 : op < 64) (h1 : d < 32) (h2 : a < 32) (h3 : seg < 8) (h4 : sz < 4) (h5 : u < 2) (h6 : imm < 1024) :
    wordM op d a seg sz u imm < 2 ^ 32 := by
  unfold wordM; omega

/-- Format A fits 32 bits. -/
theorem wordA_lt {op d a b seg aop order : Nat} (h0 : op < 64) (h1 : d < 32) (h2 : a < 32) (h3 : b < 32) (h4 : seg < 8) (h5 : aop < 16) (h6 : order < 16) :
    wordA op d a b seg aop order < 2 ^ 32 := by
  unfold wordA; omega

/-- Format V fits 32 bits. -/
theorem wordV_lt {op vd va vb k t x2 f6 : Nat} (h0 : op < 64) (h1 : vd < 16) (h2 : va < 16) (h3 : vb < 16) (h4 : k < 8) (h5 : t < 8) (h6 : x2 < 4) (h7 : f6 < 64) :
    wordV op vd va vb k t x2 f6 < 2 ^ 32 := by
  unfold wordV; omega

/-- Format VM fits 32 bits. -/
theorem wordVM_lt {op vd a seg k b mode imm : Nat} (h0 : op < 64) (h1 : vd < 16) (h2 : a < 32) (h3 : seg < 8) (h4 : k < 8) (h5 : b < 32) (h6 : mode < 4) (h7 : imm < 16) :
    wordVM op vd a seg k b mode imm < 2 ^ 32 := by
  unfold wordVM; omega

/-- Format E fits 32 bits. -/
theorem wordE_lt {op d a b m f8 : Nat} (h0 : op < 64) (h1 : d < 32) (h2 : a < 32) (h3 : b < 32) (h4 : m < 8) (h5 : f8 < 256) :
    wordE op d a b m f8 < 2 ^ 32 := by
  unfold wordE; omega

/-- Format N fits 32 bits. -/
theorem wordN_lt {op d n f8 : Nat} (h0 : op < 64) (h1 : d < 32) (h2 : n < 4096) (h3 : f8 < 256) :
    wordN op d n f8 < 2 ^ 32 := by
  unfold wordN; omega

theorem add : ∀ x0 x1 x2, Statement (.add x0 x1 x2) := fun x0 x1 x2 => of_some rfl (wordRR_lt (by decide) (by omega) (by omega) (by omega) (by decide))
theorem sub : ∀ x0 x1 x2, Statement (.sub x0 x1 x2) := fun x0 x1 x2 => of_some rfl (wordRR_lt (by decide) (by omega) (by omega) (by omega) (by decide))
theorem and : ∀ x0 x1 x2, Statement (.and x0 x1 x2) := fun x0 x1 x2 => of_some rfl (wordRR_lt (by decide) (by omega) (by omega) (by omega) (by decide))
theorem or : ∀ x0 x1 x2, Statement (.or x0 x1 x2) := fun x0 x1 x2 => of_some rfl (wordRR_lt (by decide) (by omega) (by omega) (by omega) (by decide))
theorem xor : ∀ x0 x1 x2, Statement (.xor x0 x1 x2) := fun x0 x1 x2 => of_some rfl (wordRR_lt (by decide) (by omega) (by omega) (by omega) (by decide))
theorem andn : ∀ x0 x1 x2, Statement (.andn x0 x1 x2) := fun x0 x1 x2 => of_some rfl (wordRR_lt (by decide) (by omega) (by omega) (by omega) (by decide))
theorem orn : ∀ x0 x1 x2, Statement (.orn x0 x1 x2) := fun x0 x1 x2 => of_some rfl (wordRR_lt (by decide) (by omega) (by omega) (by omega) (by decide))
theorem xnor : ∀ x0 x1 x2, Statement (.xnor x0 x1 x2) := fun x0 x1 x2 => of_some rfl (wordRR_lt (by decide) (by omega) (by omega) (by omega) (by decide))
theorem sll : ∀ x0 x1 x2, Statement (.sll x0 x1 x2) := fun x0 x1 x2 => of_some rfl (wordRR_lt (by decide) (by omega) (by omega) (by omega) (by decide))
theorem srl : ∀ x0 x1 x2, Statement (.srl x0 x1 x2) := fun x0 x1 x2 => of_some rfl (wordRR_lt (by decide) (by omega) (by omega) (by omega) (by decide))
theorem sra : ∀ x0 x1 x2, Statement (.sra x0 x1 x2) := fun x0 x1 x2 => of_some rfl (wordRR_lt (by decide) (by omega) (by omega) (by omega) (by decide))
theorem rol : ∀ x0 x1 x2, Statement (.rol x0 x1 x2) := fun x0 x1 x2 => of_some rfl (wordRR_lt (by decide) (by omega) (by omega) (by omega) (by decide))
theorem ror : ∀ x0 x1 x2, Statement (.ror x0 x1 x2) := fun x0 x1 x2 => of_some rfl (wordRR_lt (by decide) (by omega) (by omega) (by omega) (by decide))
theorem slt : ∀ x0 x1 x2, Statement (.slt x0 x1 x2) := fun x0 x1 x2 => of_some rfl (wordRR_lt (by decide) (by omega) (by omega) (by omega) (by decide))
theorem sltu : ∀ x0 x1 x2, Statement (.sltu x0 x1 x2) := fun x0 x1 x2 => of_some rfl (wordRR_lt (by decide) (by omega) (by omega) (by omega) (by decide))
theorem min : ∀ x0 x1 x2, Statement (.min x0 x1 x2) := fun x0 x1 x2 => of_some rfl (wordRR_lt (by decide) (by omega) (by omega) (by omega) (by decide))
theorem max : ∀ x0 x1 x2, Statement (.max x0 x1 x2) := fun x0 x1 x2 => of_some rfl (wordRR_lt (by decide) (by omega) (by omega) (by omega) (by decide))
theorem minu : ∀ x0 x1 x2, Statement (.minu x0 x1 x2) := fun x0 x1 x2 => of_some rfl (wordRR_lt (by decide) (by omega) (by omega) (by omega) (by decide))
theorem maxu : ∀ x0 x1 x2, Statement (.maxu x0 x1 x2) := fun x0 x1 x2 => of_some rfl (wordRR_lt (by decide) (by omega) (by omega) (by omega) (by decide))
theorem mul : ∀ x0 x1 x2, Statement (.mul x0 x1 x2) := fun x0 x1 x2 => of_some rfl (wordRR_lt (by decide) (by omega) (by omega) (by omega) (by decide))
theorem mulh : ∀ x0 x1 x2, Statement (.mulh x0 x1 x2) := fun x0 x1 x2 => of_some rfl (wordRR_lt (by decide) (by omega) (by omega) (by omega) (by decide))
theorem mulhu : ∀ x0 x1 x2, Statement (.mulhu x0 x1 x2) := fun x0 x1 x2 => of_some rfl (wordRR_lt (by decide) (by omega) (by omega) (by omega) (by decide))
theorem mulhsu : ∀ x0 x1 x2, Statement (.mulhsu x0 x1 x2) := fun x0 x1 x2 => of_some rfl (wordRR_lt (by decide) (by omega) (by omega) (by omega) (by decide))
theorem div : ∀ x0 x1 x2, Statement (.div x0 x1 x2) := fun x0 x1 x2 => of_some rfl (wordRR_lt (by decide) (by omega) (by omega) (by omega) (by decide))
theorem divu : ∀ x0 x1 x2, Statement (.divu x0 x1 x2) := fun x0 x1 x2 => of_some rfl (wordRR_lt (by decide) (by omega) (by omega) (by omega) (by decide))
theorem rem : ∀ x0 x1 x2, Statement (.rem x0 x1 x2) := fun x0 x1 x2 => of_some rfl (wordRR_lt (by decide) (by omega) (by omega) (by omega) (by decide))
theorem remu : ∀ x0 x1 x2, Statement (.remu x0 x1 x2) := fun x0 x1 x2 => of_some rfl (wordRR_lt (by decide) (by omega) (by omega) (by omega) (by decide))
theorem clz : ∀ x0 x1, Statement (.clz x0 x1) := fun x0 x1 => of_some rfl (wordRR_lt (by decide) (by omega) (by omega) (by decide) (by decide))
theorem ctz : ∀ x0 x1, Statement (.ctz x0 x1) := fun x0 x1 => of_some rfl (wordRR_lt (by decide) (by omega) (by omega) (by decide) (by decide))
theorem popc : ∀ x0 x1, Statement (.popc x0 x1) := fun x0 x1 => of_some rfl (wordRR_lt (by decide) (by omega) (by omega) (by decide) (by decide))
theorem sextb : ∀ x0 x1, Statement (.sextb x0 x1) := fun x0 x1 => of_some rfl (wordRR_lt (by decide) (by omega) (by omega) (by decide) (by decide))
theorem sexth : ∀ x0 x1, Statement (.sexth x0 x1) := fun x0 x1 => of_some rfl (wordRR_lt (by decide) (by omega) (by omega) (by decide) (by decide))
theorem zexth : ∀ x0 x1, Statement (.zexth x0 x1) := fun x0 x1 => of_some rfl (wordRR_lt (by decide) (by omega) (by omega) (by decide) (by decide))
theorem bswap : ∀ x0 x1, Statement (.bswap x0 x1) := fun x0 x1 => of_some rfl (wordRR_lt (by decide) (by omega) (by omega) (by decide) (by decide))
theorem addi : ∀ x0 x1 x2, Statement (.addi x0 x1 x2) := fun x0 x1 x2 => of_some rfl (wordRI_lt (by decide) (by omega) (by omega) (by omega))
theorem andi : ∀ x0 x1 x2, Statement (.andi x0 x1 x2) := fun x0 x1 x2 => of_some rfl (wordRI_lt (by decide) (by omega) (by omega) (by omega))
theorem ori : ∀ x0 x1 x2, Statement (.ori x0 x1 x2) := fun x0 x1 x2 => of_some rfl (wordRI_lt (by decide) (by omega) (by omega) (by omega))
theorem xori : ∀ x0 x1 x2, Statement (.xori x0 x1 x2) := fun x0 x1 x2 => of_some rfl (wordRI_lt (by decide) (by omega) (by omega) (by omega))
theorem slti : ∀ x0 x1 x2, Statement (.slti x0 x1 x2) := fun x0 x1 x2 => of_some rfl (wordRI_lt (by decide) (by omega) (by omega) (by omega))
theorem sltiu : ∀ x0 x1 x2, Statement (.sltiu x0 x1 x2) := fun x0 x1 x2 => of_some rfl (wordRI_lt (by decide) (by omega) (by omega) (by omega))
theorem slli : ∀ x0 x1 x2, Statement (.slli x0 x1 x2) := fun x0 x1 x2 => of_some rfl (wordRR_lt (by decide) (by omega) (by omega) (by omega) (by decide))
theorem srli : ∀ x0 x1 x2, Statement (.srli x0 x1 x2) := fun x0 x1 x2 => of_some rfl (wordRR_lt (by decide) (by omega) (by omega) (by omega) (by decide))
theorem srai : ∀ x0 x1 x2, Statement (.srai x0 x1 x2) := fun x0 x1 x2 => of_some rfl (wordRR_lt (by decide) (by omega) (by omega) (by omega) (by decide))
theorem lui : ∀ x0 x1, Statement (.lui x0 x1) := fun x0 x1 => of_some rfl (wordU_lt (by decide) (by omega) (by omega))
theorem adpc : ∀ x0 x1, Statement (.adpc x0 x1) := fun x0 x1 => of_some rfl (wordU_lt (by decide) (by omega) (by omega))
theorem jal : ∀ x0 x1, Statement (.jal x0 x1) := fun x0 x1 => of_some rfl (wordU_lt (by decide) (by omega) (by omega))
theorem jalr : ∀ x0 x1 x2, Statement (.jalr x0 x1 x2) := fun x0 x1 x2 => of_some rfl (wordRI_lt (by decide) (by omega) (by omega) (by omega))
theorem beq : ∀ x0 x1 x2, Statement (.beq x0 x1 x2) := fun x0 x1 x2 => of_some rfl (wordB_lt (by decide) (by omega) (by omega) (by decide) (by omega))
theorem bne : ∀ x0 x1 x2, Statement (.bne x0 x1 x2) := fun x0 x1 x2 => of_some rfl (wordB_lt (by decide) (by omega) (by omega) (by decide) (by omega))
theorem blt : ∀ x0 x1 x2, Statement (.blt x0 x1 x2) := fun x0 x1 x2 => of_some rfl (wordB_lt (by decide) (by omega) (by omega) (by decide) (by omega))
theorem bge : ∀ x0 x1 x2, Statement (.bge x0 x1 x2) := fun x0 x1 x2 => of_some rfl (wordB_lt (by decide) (by omega) (by omega) (by decide) (by omega))
theorem bltu : ∀ x0 x1 x2, Statement (.bltu x0 x1 x2) := fun x0 x1 x2 => of_some rfl (wordB_lt (by decide) (by omega) (by omega) (by decide) (by omega))
theorem bgeu : ∀ x0 x1 x2, Statement (.bgeu x0 x1 x2) := fun x0 x1 x2 => of_some rfl (wordB_lt (by decide) (by omega) (by omega) (by decide) (by omega))
theorem ldb : ∀ x0 x1 x2 x3, Statement (.ldb x0 x1 x2 x3) := fun x0 x1 x2 x3 => of_some rfl (wordM_lt (by decide) (by omega) (by omega) (by omega) (by decide) (by decide) (by omega))
theorem ldbu : ∀ x0 x1 x2 x3, Statement (.ldbu x0 x1 x2 x3) := fun x0 x1 x2 x3 => of_some rfl (wordM_lt (by decide) (by omega) (by omega) (by omega) (by decide) (by decide) (by omega))
theorem ldh : ∀ x0 x1 x2 x3, Statement (.ldh x0 x1 x2 x3) := fun x0 x1 x2 x3 => of_some rfl (wordM_lt (by decide) (by omega) (by omega) (by omega) (by decide) (by decide) (by omega))
theorem ldhu : ∀ x0 x1 x2 x3, Statement (.ldhu x0 x1 x2 x3) := fun x0 x1 x2 x3 => of_some rfl (wordM_lt (by decide) (by omega) (by omega) (by omega) (by decide) (by decide) (by omega))
theorem ldw : ∀ x0 x1 x2 x3, Statement (.ldw x0 x1 x2 x3) := fun x0 x1 x2 x3 => of_some rfl (wordM_lt (by decide) (by omega) (by omega) (by omega) (by decide) (by decide) (by omega))
theorem stb : ∀ x0 x1 x2 x3, Statement (.stb x0 x1 x2 x3) := fun x0 x1 x2 x3 => of_some rfl (wordM_lt (by decide) (by omega) (by omega) (by omega) (by decide) (by decide) (by omega))
theorem sth : ∀ x0 x1 x2 x3, Statement (.sth x0 x1 x2 x3) := fun x0 x1 x2 x3 => of_some rfl (wordM_lt (by decide) (by omega) (by omega) (by omega) (by decide) (by decide) (by omega))
theorem stw : ∀ x0 x1 x2 x3, Statement (.stw x0 x1 x2 x3) := fun x0 x1 x2 x3 => of_some rfl (wordM_lt (by decide) (by omega) (by omega) (by omega) (by decide) (by decide) (by omega))
theorem ldfe : ∀ x0 x1 x2 x3, Statement (.ldfe x0 x1 x2 x3) := fun x0 x1 x2 x3 => of_some rfl (wordM_lt (by decide) (by omega) (by omega) (by omega) (by decide) (by decide) (by omega))
theorem ldff : ∀ x0 x1 x2 x3, Statement (.ldff x0 x1 x2 x3) := fun x0 x1 x2 x3 => of_some rfl (wordM_lt (by decide) (by omega) (by omega) (by omega) (by decide) (by decide) (by omega))
theorem stfe : ∀ x0 x1 x2 x3, Statement (.stfe x0 x1 x2 x3) := fun x0 x1 x2 x3 => of_some rfl (wordM_lt (by decide) (by omega) (by omega) (by omega) (by decide) (by decide) (by omega))
theorem stff : ∀ x0 x1 x2 x3, Statement (.stff x0 x1 x2 x3) := fun x0 x1 x2 x3 => of_some rfl (wordM_lt (by decide) (by omega) (by omega) (by omega) (by decide) (by decide) (by omega))
theorem amoadd : ∀ x0 x1 x2 x3 x4, Statement (.amoadd x0 x1 x2 x3 x4) := fun x0 x1 x2 x3 x4 => of_some rfl (wordA_lt (by decide) (by omega) (by omega) (by omega) (by omega) (by decide) (by omega))
theorem amoswap : ∀ x0 x1 x2 x3 x4, Statement (.amoswap x0 x1 x2 x3 x4) := fun x0 x1 x2 x3 x4 => of_some rfl (wordA_lt (by decide) (by omega) (by omega) (by omega) (by omega) (by decide) (by omega))
theorem amocas : ∀ x0 x1 x2 x3 x4, Statement (.amocas x0 x1 x2 x3 x4) := fun x0 x1 x2 x3 x4 => of_some rfl (wordA_lt (by decide) (by omega) (by omega) (by omega) (by omega) (by decide) (by omega))
theorem amoand : ∀ x0 x1 x2 x3 x4, Statement (.amoand x0 x1 x2 x3 x4) := fun x0 x1 x2 x3 x4 => of_some rfl (wordA_lt (by decide) (by omega) (by omega) (by omega) (by omega) (by decide) (by omega))
theorem amoor : ∀ x0 x1 x2 x3 x4, Statement (.amoor x0 x1 x2 x3 x4) := fun x0 x1 x2 x3 x4 => of_some rfl (wordA_lt (by decide) (by omega) (by omega) (by omega) (by omega) (by decide) (by omega))
theorem amoxor : ∀ x0 x1 x2 x3 x4, Statement (.amoxor x0 x1 x2 x3 x4) := fun x0 x1 x2 x3 x4 => of_some rfl (wordA_lt (by decide) (by omega) (by omega) (by omega) (by omega) (by decide) (by omega))
theorem amomin : ∀ x0 x1 x2 x3 x4, Statement (.amomin x0 x1 x2 x3 x4) := fun x0 x1 x2 x3 x4 => of_some rfl (wordA_lt (by decide) (by omega) (by omega) (by omega) (by omega) (by decide) (by omega))
theorem amomax : ∀ x0 x1 x2 x3 x4, Statement (.amomax x0 x1 x2 x3 x4) := fun x0 x1 x2 x3 x4 => of_some rfl (wordA_lt (by decide) (by omega) (by omega) (by omega) (by omega) (by decide) (by omega))
theorem amominu : ∀ x0 x1 x2 x3 x4, Statement (.amominu x0 x1 x2 x3 x4) := fun x0 x1 x2 x3 x4 => of_some rfl (wordA_lt (by decide) (by omega) (by omega) (by omega) (by omega) (by decide) (by omega))
theorem amomaxu : ∀ x0 x1 x2 x3 x4, Statement (.amomaxu x0 x1 x2 x3 x4) := fun x0 x1 x2 x3 x4 => of_some rfl (wordA_lt (by decide) (by omega) (by omega) (by omega) (by omega) (by decide) (by omega))
theorem fence : ∀ x0 x1, Statement (.fence x0 x1) := fun x0 x1 => of_some rfl (wordE_lt (by decide) (by omega) (by decide) (by decide) (by omega) (by decide))
theorem drain : Statement (.drain) := of_some rfl (wordE_lt (by decide) (by decide) (by decide) (by decide) (by decide) (by decide))
theorem feclr : ∀ x0 x1 x2, Statement (.feclr x0 x1 x2) := fun x0 x1 x2 => of_some rfl (wordE_lt (by decide) (by decide) (by omega) (by omega) (by omega) (by decide))
theorem trig : ∀ x0 x1 x2 x3, Statement (.trig x0 x1 x2 x3) := fun x0 x1 x2 x3 => of_some rfl (wordE_lt (by decide) (by omega) (by omega) (by omega) (by omega) (by decide))
theorem waitc : ∀ x0 x1 x2 x3, Statement (.waitc x0 x1 x2 x3) := fun x0 x1 x2 x3 => of_some rfl (wordE_lt (by decide) (by omega) (by omega) (by omega) (by omega) (by decide))
theorem ncmp : ∀ x0 x1 x2 x3, Statement (.ncmp x0 x1 x2 x3) := fun x0 x1 x2 x3 => of_some rfl (wordE_lt (by decide) (by omega) (by omega) (by omega) (by omega) (by decide))
theorem nred : ∀ x0 x1 x2 x3, Statement (.nred x0 x1 x2 x3) := fun x0 x1 x2 x3 => of_some rfl (wordE_lt (by decide) (by omega) (by omega) (by omega) (by omega) (by decide))
theorem cpy : ∀ x0 x1 x2 x3, Statement (.cpy x0 x1 x2 x3) := fun x0 x1 x2 x3 => of_some rfl (wordE_lt (by decide) (by omega) (by omega) (by omega) (by omega) (by decide))
theorem cpyg : ∀ x0 x1 x2 x3, Statement (.cpyg x0 x1 x2 x3) := fun x0 x1 x2 x3 => of_some rfl (wordE_lt (by decide) (by omega) (by omega) (by omega) (by omega) (by decide))
theorem cpys : ∀ x0 x1 x2 x3, Statement (.cpys x0 x1 x2 x3) := fun x0 x1 x2 x3 => of_some rfl (wordE_lt (by decide) (by omega) (by omega) (by omega) (by omega) (by decide))
theorem cpyf : ∀ x0 x1 x2 x3, Statement (.cpyf x0 x1 x2 x3) := fun x0 x1 x2 x3 => of_some rfl (wordE_lt (by decide) (by omega) (by omega) (by omega) (by omega) (by decide))
theorem wtany : ∀ x0 x1, Statement (.wtany x0 x1) := fun x0 x1 => of_some rfl (wordE_lt (by decide) (by omega) (by omega) (by decide) (by decide) (by decide))
theorem wtall : ∀ x0, Statement (.wtall x0) := fun x0 => of_some rfl (wordE_lt (by decide) (by decide) (by omega) (by decide) (by decide) (by decide))
theorem tfirst : ∀ x0 x1, Statement (.tfirst x0 x1) := fun x0 x1 => of_some rfl (wordE_lt (by decide) (by omega) (by omega) (by decide) (by decide) (by decide))
theorem tclr : ∀ x0, Statement (.tclr x0) := fun x0 => of_some rfl (wordE_lt (by decide) (by decide) (by omega) (by decide) (by decide) (by decide))
theorem tstat : ∀ x0 x1, Statement (.tstat x0 x1) := fun x0 x1 => of_some rfl (wordE_lt (by decide) (by omega) (by omega) (by decide) (by decide) (by decide))
theorem vld : ∀ x0 x1 x2 x3 x4, Statement (.vld x0 x1 x2 x3 x4) := fun x0 x1 x2 x3 x4 => of_some rfl (wordVM_lt (by decide) (by omega) (by omega) (by omega) (by omega) (by decide) (by decide) (by omega))
theorem vlds : ∀ x0 x1 x2 x3 x4 x5, Statement (.vlds x0 x1 x2 x3 x4 x5) := fun x0 x1 x2 x3 x4 x5 => of_some rfl (wordVM_lt (by decide) (by omega) (by omega) (by omega) (by omega) (by omega) (by decide) (by omega))
theorem vldx : ∀ x0 x1 x2 x3 x4 x5, Statement (.vldx x0 x1 x2 x3 x4 x5) := fun x0 x1 x2 x3 x4 x5 => of_some rfl (wordVM_lt (by decide) (by omega) (by omega) (by omega) (by omega) (by omega) (by decide) (by omega))
theorem vst : ∀ x0 x1 x2 x3 x4, Statement (.vst x0 x1 x2 x3 x4) := fun x0 x1 x2 x3 x4 => of_some rfl (wordVM_lt (by decide) (by omega) (by omega) (by omega) (by omega) (by decide) (by decide) (by omega))
theorem vsts : ∀ x0 x1 x2 x3 x4 x5, Statement (.vsts x0 x1 x2 x3 x4 x5) := fun x0 x1 x2 x3 x4 x5 => of_some rfl (wordVM_lt (by decide) (by omega) (by omega) (by omega) (by omega) (by omega) (by decide) (by omega))
theorem vstx : ∀ x0 x1 x2 x3 x4 x5, Statement (.vstx x0 x1 x2 x3 x4 x5) := fun x0 x1 x2 x3 x4 x5 => of_some rfl (wordVM_lt (by decide) (by omega) (by omega) (by omega) (by omega) (by omega) (by decide) (by omega))
theorem viadd : ∀ x0 x1 x2 x3 x4, Statement (.viadd x0 x1 x2 x3 x4) := fun x0 x1 x2 x3 x4 => of_some rfl (wordV_lt (by decide) (by omega) (by omega) (by omega) (by omega) (by omega) (by decide) (by decide))
theorem visub : ∀ x0 x1 x2 x3 x4, Statement (.visub x0 x1 x2 x3 x4) := fun x0 x1 x2 x3 x4 => of_some rfl (wordV_lt (by decide) (by omega) (by omega) (by omega) (by omega) (by omega) (by decide) (by decide))
theorem vimul : ∀ x0 x1 x2 x3 x4, Statement (.vimul x0 x1 x2 x3 x4) := fun x0 x1 x2 x3 x4 => of_some rfl (wordV_lt (by decide) (by omega) (by omega) (by omega) (by omega) (by omega) (by decide) (by decide))
theorem vimin : ∀ x0 x1 x2 x3 x4, Statement (.vimin x0 x1 x2 x3 x4) := fun x0 x1 x2 x3 x4 => of_some rfl (wordV_lt (by decide) (by omega) (by omega) (by omega) (by omega) (by omega) (by decide) (by decide))
theorem vimax : ∀ x0 x1 x2 x3 x4, Statement (.vimax x0 x1 x2 x3 x4) := fun x0 x1 x2 x3 x4 => of_some rfl (wordV_lt (by decide) (by omega) (by omega) (by omega) (by omega) (by omega) (by decide) (by decide))
theorem viand : ∀ x0 x1 x2 x3 x4, Statement (.viand x0 x1 x2 x3 x4) := fun x0 x1 x2 x3 x4 => of_some rfl (wordV_lt (by decide) (by omega) (by omega) (by omega) (by omega) (by omega) (by decide) (by decide))
theorem vior : ∀ x0 x1 x2 x3 x4, Statement (.vior x0 x1 x2 x3 x4) := fun x0 x1 x2 x3 x4 => of_some rfl (wordV_lt (by decide) (by omega) (by omega) (by omega) (by omega) (by omega) (by decide) (by decide))
theorem vixor : ∀ x0 x1 x2 x3 x4, Statement (.vixor x0 x1 x2 x3 x4) := fun x0 x1 x2 x3 x4 => of_some rfl (wordV_lt (by decide) (by omega) (by omega) (by omega) (by omega) (by omega) (by decide) (by decide))
theorem visll : ∀ x0 x1 x2 x3 x4, Statement (.visll x0 x1 x2 x3 x4) := fun x0 x1 x2 x3 x4 => of_some rfl (wordV_lt (by decide) (by omega) (by omega) (by omega) (by omega) (by omega) (by decide) (by decide))
theorem visrl : ∀ x0 x1 x2 x3 x4, Statement (.visrl x0 x1 x2 x3 x4) := fun x0 x1 x2 x3 x4 => of_some rfl (wordV_lt (by decide) (by omega) (by omega) (by omega) (by omega) (by omega) (by decide) (by decide))
theorem visra : ∀ x0 x1 x2 x3 x4, Statement (.visra x0 x1 x2 x3 x4) := fun x0 x1 x2 x3 x4 => of_some rfl (wordV_lt (by decide) (by omega) (by omega) (by omega) (by omega) (by omega) (by decide) (by decide))
theorem viabs : ∀ x0 x1 x2 x3, Statement (.viabs x0 x1 x2 x3) := fun x0 x1 x2 x3 => of_some rfl (wordV_lt (by decide) (by omega) (by omega) (by decide) (by omega) (by omega) (by decide) (by decide))
theorem vadd : ∀ x0 x1 x2 x3 x4, Statement (.vadd x0 x1 x2 x3 x4) := fun x0 x1 x2 x3 x4 => of_some rfl (wordV_lt (by decide) (by omega) (by omega) (by omega) (by omega) (by omega) (by decide) (by decide))
theorem vsub : ∀ x0 x1 x2 x3 x4, Statement (.vsub x0 x1 x2 x3 x4) := fun x0 x1 x2 x3 x4 => of_some rfl (wordV_lt (by decide) (by omega) (by omega) (by omega) (by omega) (by omega) (by decide) (by decide))
theorem vmul : ∀ x0 x1 x2 x3 x4, Statement (.vmul x0 x1 x2 x3 x4) := fun x0 x1 x2 x3 x4 => of_some rfl (wordV_lt (by decide) (by omega) (by omega) (by omega) (by omega) (by omega) (by decide) (by decide))
theorem vfma : ∀ x0 x1 x2 x3 x4, Statement (.vfma x0 x1 x2 x3 x4) := fun x0 x1 x2 x3 x4 => of_some rfl (wordV_lt (by decide) (by omega) (by omega) (by omega) (by omega) (by omega) (by decide) (by decide))
theorem vfms : ∀ x0 x1 x2 x3 x4, Statement (.vfms x0 x1 x2 x3 x4) := fun x0 x1 x2 x3 x4 => of_some rfl (wordV_lt (by decide) (by omega) (by omega) (by omega) (by omega) (by omega) (by decide) (by decide))
theorem vmin : ∀ x0 x1 x2 x3 x4, Statement (.vmin x0 x1 x2 x3 x4) := fun x0 x1 x2 x3 x4 => of_some rfl (wordV_lt (by decide) (by omega) (by omega) (by omega) (by omega) (by omega) (by decide) (by decide))
theorem vmax : ∀ x0 x1 x2 x3 x4, Statement (.vmax x0 x1 x2 x3 x4) := fun x0 x1 x2 x3 x4 => of_some rfl (wordV_lt (by decide) (by omega) (by omega) (by omega) (by omega) (by omega) (by decide) (by decide))
theorem vabs : ∀ x0 x1 x2 x3, Statement (.vabs x0 x1 x2 x3) := fun x0 x1 x2 x3 => of_some rfl (wordV_lt (by decide) (by omega) (by omega) (by decide) (by omega) (by omega) (by decide) (by decide))
theorem vneg : ∀ x0 x1 x2 x3, Statement (.vneg x0 x1 x2 x3) := fun x0 x1 x2 x3 => of_some rfl (wordV_lt (by decide) (by omega) (by omega) (by decide) (by omega) (by omega) (by decide) (by decide))
theorem vsqrt : ∀ x0 x1 x2 x3, Statement (.vsqrt x0 x1 x2 x3) := fun x0 x1 x2 x3 => of_some rfl (wordV_lt (by decide) (by omega) (by omega) (by decide) (by omega) (by omega) (by decide) (by decide))
theorem vrcp : ∀ x0 x1 x2 x3, Statement (.vrcp x0 x1 x2 x3) := fun x0 x1 x2 x3 => of_some rfl (wordV_lt (by decide) (by omega) (by omega) (by decide) (by omega) (by omega) (by decide) (by decide))
theorem vrsq : ∀ x0 x1 x2 x3, Statement (.vrsq x0 x1 x2 x3) := fun x0 x1 x2 x3 => of_some rfl (wordV_lt (by decide) (by omega) (by omega) (by decide) (by omega) (by omega) (by decide) (by decide))
theorem vexp2 : ∀ x0 x1 x2 x3, Statement (.vexp2 x0 x1 x2 x3) := fun x0 x1 x2 x3 => of_some rfl (wordV_lt (by decide) (by omega) (by omega) (by decide) (by omega) (by omega) (by decide) (by decide))
theorem vscl : ∀ x0 x1 x2 x3 x4, Statement (.vscl x0 x1 x2 x3 x4) := fun x0 x1 x2 x3 x4 => of_some rfl (wordV_lt (by decide) (by omega) (by omega) (by omega) (by omega) (by omega) (by decide) (by decide))
theorem vcmp : ∀ x0 x1 x2 x3 x4 x5, Statement (.vcmp x0 x1 x2 x3 x4 x5) := fun x0 x1 x2 x3 x4 x5 => of_some rfl (wordV_lt (by decide) (by omega) (by omega) (by omega) (by omega) (by omega) (by omega) (by decide))
theorem vsel : ∀ x0 x1 x2 x3 x4, Statement (.vsel x0 x1 x2 x3 x4) := fun x0 x1 x2 x3 x4 => of_some rfl (wordV_lt (by decide) (by omega) (by omega) (by omega) (by omega) (by omega) (by decide) (by decide))
theorem vshuf : ∀ x0 x1 x2 x3 x4, Statement (.vshuf x0 x1 x2 x3 x4) := fun x0 x1 x2 x3 x4 => of_some rfl (wordV_lt (by decide) (by omega) (by omega) (by omega) (by omega) (by omega) (by decide) (by decide))
theorem vslide : ∀ x0 x1 x2 x3 x4, Statement (.vslide x0 x1 x2 x3 x4) := fun x0 x1 x2 x3 x4 => of_some rfl (wordV_lt (by decide) (by omega) (by omega) (by omega) (by omega) (by omega) (by decide) (by decide))
theorem vredsum : ∀ x0 x1 x2 x3, Statement (.vredsum x0 x1 x2 x3) := fun x0 x1 x2 x3 => of_some rfl (wordV_lt (by decide) (by omega) (by omega) (by decide) (by omega) (by omega) (by decide) (by decide))
theorem vredmax : ∀ x0 x1 x2 x3, Statement (.vredmax x0 x1 x2 x3) := fun x0 x1 x2 x3 => of_some rfl (wordV_lt (by decide) (by omega) (by omega) (by decide) (by omega) (by omega) (by decide) (by decide))
theorem vredmin : ∀ x0 x1 x2 x3, Statement (.vredmin x0 x1 x2 x3) := fun x0 x1 x2 x3 => of_some rfl (wordV_lt (by decide) (by omega) (by omega) (by decide) (by omega) (by omega) (by decide) (by decide))
theorem vcvt : ∀ x0 x1 x2 x3 x4 x5, Statement (.vcvt x0 x1 x2 x3 x4 x5) := fun x0 x1 x2 x3 x4 x5 => of_some rfl (wordV_lt (by decide) (by omega) (by omega) (by omega) (by omega) (by omega) (by omega) (by decide))
theorem kand : ∀ x0 x1 x2, Statement (.kand x0 x1 x2) := fun x0 x1 x2 => of_some rfl (wordV_lt (by decide) (by omega) (by omega) (by omega) (by decide) (by decide) (by decide) (by decide))
theorem kor : ∀ x0 x1 x2, Statement (.kor x0 x1 x2) := fun x0 x1 x2 => of_some rfl (wordV_lt (by decide) (by omega) (by omega) (by omega) (by decide) (by decide) (by decide) (by decide))
theorem knot : ∀ x0 x1, Statement (.knot x0 x1) := fun x0 x1 => of_some rfl (wordV_lt (by decide) (by omega) (by omega) (by decide) (by decide) (by decide) (by decide) (by decide))
theorem kmov : ∀ x0 x1, Statement (.kmov x0 x1) := fun x0 x1 => of_some rfl (wordV_lt (by decide) (by omega) (by omega) (by decide) (by decide) (by decide) (by decide) (by decide))
theorem vbcast : ∀ x0 x1 x2, Statement (.vbcast x0 x1 x2) := fun x0 x1 x2 => of_some rfl (wordE_lt (by decide) (by omega) (by omega) (by decide) (by omega) (by decide))
theorem vget : ∀ x0 x1 x2 x3, Statement (.vget x0 x1 x2 x3) := fun x0 x1 x2 x3 => of_some rfl (wordE_lt (by decide) (by omega) (by omega) (by omega) (by omega) (by decide))
theorem vput : ∀ x0 x1 x2 x3, Statement (.vput x0 x1 x2 x3) := fun x0 x1 x2 x3 => of_some rfl (wordE_lt (by decide) (by omega) (by omega) (by omega) (by omega) (by decide))
theorem kget : ∀ x0 x1 x2, Statement (.kget x0 x1 x2) := fun x0 x1 x2 => of_some rfl (wordE_lt (by decide) (by omega) (by omega) (by decide) (by omega) (by decide))
theorem kset : ∀ x0 x1 x2, Statement (.kset x0 x1 x2) := fun x0 x1 x2 => of_some rfl (wordE_lt (by decide) (by omega) (by omega) (by decide) (by omega) (by decide))
theorem mma : ∀ x0 x1 x2, Statement (.mma x0 x1 x2) := fun x0 x1 x2 => of_some rfl (wordE_lt (by decide) (by omega) (by omega) (by decide) (by omega) (by decide))
theorem mmarb : ∀ x0 x1 x2, Statement (.mmarb x0 x1 x2) := fun x0 x1 x2 => of_some rfl (wordE_lt (by decide) (by omega) (by omega) (by decide) (by omega) (by decide))
theorem mmacn : ∀ x0 x1 x2, Statement (.mmacn x0 x1 x2) := fun x0 x1 x2 => of_some rfl (wordE_lt (by decide) (by omega) (by omega) (by decide) (by omega) (by decide))
theorem mbld : ∀ x0 x1, Statement (.mbld x0 x1) := fun x0 x1 => of_some rfl (wordE_lt (by decide) (by decide) (by omega) (by decide) (by omega) (by decide))
theorem mbpass : ∀ x0, Statement (.mbpass x0) := fun x0 => of_some rfl (wordE_lt (by decide) (by decide) (by decide) (by decide) (by omega) (by decide))
theorem mzero : ∀ x0, Statement (.mzero x0) := fun x0 => of_some rfl (wordE_lt (by decide) (by omega) (by decide) (by decide) (by decide) (by decide))
theorem mfmt : ∀ x0, Statement (.mfmt x0) := fun x0 => of_some rfl (wordE_lt (by decide) (by decide) (by omega) (by decide) (by decide) (by decide))
theorem mfmtq : ∀ x0, Statement (.mfmtq x0) := fun x0 => of_some rfl (wordE_lt (by decide) (by decide) (by omega) (by decide) (by decide) (by decide))
theorem put : ∀ x0 x1 x2, Statement (.put x0 x1 x2) := fun x0 x1 x2 => of_some rfl (wordE_lt (by decide) (by omega) (by omega) (by omega) (by decide) (by decide))
theorem putg : ∀ x0 x1 x2, Statement (.putg x0 x1 x2) := fun x0 x1 x2 => of_some rfl (wordE_lt (by decide) (by omega) (by omega) (by omega) (by decide) (by decide))
theorem read : ∀ x0 x1 x2 x3, Statement (.read x0 x1 x2 x3) := fun x0 x1 x2 x3 => of_some rfl (wordE_lt (by decide) (by omega) (by omega) (by omega) (by omega) (by decide))
theorem take : ∀ x0 x1 x2 x3, Statement (.take x0 x1 x2 x3) := fun x0 x1 x2 x3 => of_some rfl (wordE_lt (by decide) (by omega) (by omega) (by omega) (by omega) (by decide))
theorem tcancel : ∀ x0 x1, Statement (.tcancel x0 x1) := fun x0 x1 => of_some rfl (wordE_lt (by decide) (by omega) (by decide) (by omega) (by decide) (by decide))
theorem halldefDefine : ∀ x0 x1 x2, Statement (.halldefDefine x0 x1 x2) := fun x0 x1 x2 => of_some rfl (wordE_lt (by decide) (by omega) (by omega) (by omega) (by decide) (by decide))
theorem halldefRetire : ∀ x0 x1 x2, Statement (.halldefRetire x0 x1 x2) := fun x0 x1 x2 => of_some rfl (wordE_lt (by decide) (by omega) (by omega) (by omega) (by decide) (by decide))
theorem hallq : ∀ x0 x1 x2, Statement (.hallq x0 x1 x2) := fun x0 x1 x2 => of_some rfl (wordE_lt (by decide) (by omega) (by omega) (by omega) (by decide) (by decide))
theorem split : ∀ x0 x1, Statement (.split x0 x1) := fun x0 x1 => of_some rfl (wordE_lt (by decide) (by omega) (by omega) (by decide) (by decide) (by decide))
theorem splst : ∀ x0 x1, Statement (.splst x0 x1) := fun x0 x1 => of_some rfl (wordE_lt (by decide) (by omega) (by omega) (by decide) (by decide) (by decide))
theorem skset : ∀ x0 x1, Statement (.skset x0 x1) := fun x0 x1 => of_some rfl (wordE_lt (by decide) (by decide) (by omega) (by decide) (by omega) (by decide))
theorem skupd : ∀ x0 x1 x2 x3, Statement (.skupd x0 x1 x2 x3) := fun x0 x1 x2 x3 => of_some rfl (wordE_lt (by decide) (by omega) (by omega) (by omega) (by omega) (by decide))
theorem skqry : ∀ x0 x1 x2, Statement (.skqry x0 x1 x2) := fun x0 x1 x2 => of_some rfl (wordE_lt (by decide) (by omega) (by omega) (by decide) (by omega) (by decide))
theorem skadd : ∀ x0 x1 x2, Statement (.skadd x0 x1 x2) := fun x0 x1 x2 => of_some rfl (wordE_lt (by decide) (by omega) (by omega) (by decide) (by omega) (by decide))
theorem skclr : ∀ x0, Statement (.skclr x0) := fun x0 => of_some rfl (wordE_lt (by decide) (by decide) (by decide) (by decide) (by omega) (by decide))
theorem freeze : Statement (.freeze) := of_some rfl (wordE_lt (by decide) (by decide) (by decide) (by decide) (by decide) (by decide))
theorem nest : ∀ x0 x1, Statement (.nest x0 x1) := fun x0 x1 => of_some rfl (wordE_lt (by decide) (by decide) (by omega) (by omega) (by decide) (by decide))
theorem njoin : Statement (.njoin) := of_some rfl (wordE_lt (by decide) (by decide) (by decide) (by decide) (by decide) (by decide))
theorem tstw : ∀ x0 x1, Statement (.tstw x0 x1) := fun x0 x1 => of_some rfl (wordE_lt (by decide) (by omega) (by omega) (by decide) (by decide) (by decide))
theorem tstv : ∀ x0 x1, Statement (.tstv x0 x1) := fun x0 x1 => of_some rfl (wordE_lt (by decide) (by omega) (by omega) (by decide) (by decide) (by decide))
theorem finfo : ∀ x0 x1, Statement (.finfo x0 x1) := fun x0 x1 => of_some rfl (wordE_lt (by decide) (by omega) (by decide) (by decide) (by omega) (by decide))
theorem msg : ∀ x0 x1 x2, Statement (.msg x0 x1 x2) := fun x0 x1 x2 => of_some rfl (wordE_lt (by decide) (by omega) (by omega) (by omega) (by decide) (by decide))
theorem rput : ∀ x0 x1, Statement (.rput x0 x1) := fun x0 x1 => of_some rfl (wordE_lt (by decide) (by decide) (by omega) (by omega) (by decide) (by decide))
theorem rputv : ∀ x0 x1, Statement (.rputv x0 x1) := fun x0 x1 => of_some rfl (wordE_lt (by decide) (by omega) (by omega) (by decide) (by decide) (by decide))
theorem empty : ∀ x0, Statement (.empty x0) := fun x0 => of_some rfl (wordE_lt (by decide) (by omega) (by decide) (by decide) (by decide) (by decide))
theorem emptyv : ∀ x0, Statement (.emptyv x0) := fun x0 => of_some rfl (wordE_lt (by decide) (by omega) (by decide) (by decide) (by decide) (by decide))
theorem testp : ∀ x0 x1, Statement (.testp x0 x1) := fun x0 x1 => of_some rfl (wordE_lt (by decide) (by omega) (by omega) (by decide) (by decide) (by decide))
theorem testpVector : ∀ x0 x1, Statement (.testpVector x0 x1) := fun x0 x1 => of_some rfl (wordE_lt (by decide) (by omega) (by omega) (by decide) (by decide) (by decide))
theorem wfm : ∀ x0, Statement (.wfm x0) := fun x0 => of_some rfl (wordE_lt (by decide) (by omega) (by decide) (by decide) (by decide) (by decide))
theorem landa : ∀ x0, Statement (.landa x0) := fun x0 => of_some rfl (wordE_lt (by decide) (by decide) (by omega) (by decide) (by decide) (by decide))
theorem landw : ∀ x0, Statement (.landw x0) := fun x0 => of_some rfl (wordE_lt (by decide) (by decide) (by omega) (by decide) (by decide) (by decide))
theorem landaw : ∀ x0, Statement (.landaw x0) := fun x0 => of_some rfl (wordE_lt (by decide) (by decide) (by omega) (by decide) (by decide) (by decide))
theorem landq : ∀ x0 x1, Statement (.landq x0 x1) := fun x0 x1 => of_some rfl (wordE_lt (by decide) (by omega) (by omega) (by decide) (by decide) (by decide))
theorem cgput : ∀ x0 x1, Statement (.cgput x0 x1) := fun x0 x1 => of_some rfl (wordE_lt (by decide) (by decide) (by omega) (by omega) (by decide) (by decide))
theorem cgputv : ∀ x0 x1, Statement (.cgputv x0 x1) := fun x0 x1 => of_some rfl (wordE_lt (by decide) (by decide) (by omega) (by omega) (by decide) (by decide))
theorem cgget : ∀ x0 x1, Statement (.cgget x0 x1) := fun x0 x1 => of_some rfl (wordE_lt (by decide) (by omega) (by omega) (by decide) (by decide) (by decide))
theorem cggetv : ∀ x0 x1, Statement (.cggetv x0 x1) := fun x0 x1 => of_some rfl (wordE_lt (by decide) (by omega) (by omega) (by decide) (by decide) (by decide))
theorem cgset : ∀ x0 x1, Statement (.cgset x0 x1) := fun x0 x1 => of_some rfl (wordE_lt (by decide) (by decide) (by omega) (by omega) (by decide) (by decide))
theorem spawn : ∀ x0, Statement (.spawn x0) := fun x0 => of_some rfl (wordE_lt (by decide) (by decide) (by omega) (by decide) (by decide) (by decide))
theorem dec : ∀ x0 x1, Statement (.dec x0 x1) := fun x0 x1 => of_some rfl (wordE_lt (by decide) (by decide) (by omega) (by omega) (by decide) (by decide))
theorem decEvent : ∀ x0 x1 x2, Statement (.decEvent x0 x1 x2) := fun x0 x1 x2 => of_some rfl (wordE_lt (by decide) (by decide) (by omega) (by omega) (by omega) (by decide))
theorem exit : Statement (.exit) := of_some rfl (wordE_lt (by decide) (by decide) (by decide) (by decide) (by decide) (by decide))
theorem yield : Statement (.yield) := of_some rfl (wordE_lt (by decide) (by decide) (by decide) (by decide) (by decide) (by decide))
theorem hsift : ∀ x0 x1, Statement (.hsift x0 x1) := fun x0 x1 => of_some rfl (wordE_lt (by decide) (by decide) (by omega) (by omega) (by decide) (by decide))
theorem remapwAppend : ∀ x0 x1, Statement (.remapwAppend x0 x1) := fun x0 x1 => of_some rfl (wordE_lt (by decide) (by decide) (by omega) (by omega) (by decide) (by decide))
theorem remapwRelease : ∀ x0 x1, Statement (.remapwRelease x0 x1) := fun x0 x1 => of_some rfl (wordE_lt (by decide) (by decide) (by omega) (by omega) (by decide) (by decide))
theorem remapwClose : ∀ x0 x1, Statement (.remapwClose x0 x1) := fun x0 x1 => of_some rfl (wordE_lt (by decide) (by decide) (by omega) (by omega) (by decide) (by decide))
theorem remapcPool : ∀ x0 x1, Statement (.remapcPool x0 x1) := fun x0 x1 => of_some rfl (wordE_lt (by decide) (by decide) (by omega) (by omega) (by decide) (by decide))
theorem remapcDefine : ∀ x0 x1, Statement (.remapcDefine x0 x1) := fun x0 x1 => of_some rfl (wordE_lt (by decide) (by decide) (by omega) (by omega) (by decide) (by decide))
theorem remapcReset : ∀ x0 x1, Statement (.remapcReset x0 x1) := fun x0 x1 => of_some rfl (wordE_lt (by decide) (by decide) (by omega) (by omega) (by decide) (by decide))
theorem sysrd : ∀ x0 x1, Statement (.sysrd x0 x1) := fun x0 x1 => of_some rfl (wordN_lt (by decide) (by omega) (by omega) (by decide))
theorem syswr : ∀ x0 x1, Statement (.syswr x0 x1) := fun x0 x1 => of_some rfl (wordN_lt (by decide) (by omega) (by omega) (by decide))
theorem sysset : ∀ x0 x1, Statement (.sysset x0 x1) := fun x0 x1 => of_some rfl (wordN_lt (by decide) (by omega) (by omega) (by decide))
theorem sysclr : ∀ x0 x1, Statement (.sysclr x0 x1) := fun x0 x1 => of_some rfl (wordN_lt (by decide) (by omega) (by omega) (by decide))
theorem ecall : Statement (.ecall) := of_some rfl (wordE_lt (by decide) (by decide) (by decide) (by decide) (by decide) (by decide))
theorem brk : Statement (.brk) := of_some rfl (wordE_lt (by decide) (by decide) (by decide) (by decide) (by decide) (by decide))
theorem tret : Statement (.tret) := of_some rfl (wordE_lt (by decide) (by decide) (by decide) (by decide) (by decide) (by decide))
theorem halt : Statement (.halt) := of_some rfl (wordE_lt (by decide) (by decide) (by decide) (by decide) (by decide) (by decide))
theorem segld : ∀ x0 x1, Statement (.segld x0 x1) := fun x0 x1 => of_some rfl (wordE_lt (by decide) (by omega) (by omega) (by decide) (by decide) (by decide))
theorem segrd : ∀ x0 x1 x2, Statement (.segrd x0 x1 x2) := fun x0 x1 x2 => of_some rfl (wordE_lt (by decide) (by omega) (by omega) (by decide) (by omega) (by decide))
theorem registerWrite : ∀ x0 x1 x2 x3, Statement (.registerWrite x0 x1 x2 x3) := fun _ _ _ _ => of_none rfl
theorem slotclsWrite : ∀ x0 x1, Statement (.slotclsWrite x0 x1) := fun _ _ => of_none rfl
theorem runctlWrite : ∀ x0 x1, Statement (.runctlWrite x0 x1) := fun _ _ => of_none rfl
theorem shpoolWrite : ∀ x0 x1, Statement (.shpoolWrite x0 x1) := fun _ _ => of_none rfl
theorem lcsplitWrite : ∀ x0 x1, Statement (.lcsplitWrite x0 x1) := fun _ _ => of_none rfl
theorem lcsplitChangeDone : ∀ x0, Statement (.lcsplitChangeDone x0) := fun _ => of_none rfl
theorem mvtbaseWrite : ∀ x0 x1, Statement (.mvtbaseWrite x0 x1) := fun _ _ => of_none rfl
theorem vpoolWrite : ∀ x0 x1, Statement (.vpoolWrite x0 x1) := fun _ _ => of_none rfl
theorem cycleLowRead : ∀ x0, Statement (.cycleLowRead x0) := fun _ => of_none rfl
theorem stagingWrite : ∀ x0 x1 x2, Statement (.stagingWrite x0 x1 x2) := fun _ _ _ => of_none rfl
theorem ldoor : ∀ x0 x1 x2, Statement (.ldoor x0 x1 x2) := fun _ _ _ => of_none rfl
theorem stagingCaptureDone : ∀ x0 x1, Statement (.stagingCaptureDone x0 x1) := fun _ _ => of_none rfl
theorem cpop : ∀ x0 x1, Statement (.cpop x0 x1) := fun _ _ => of_none rfl
theorem windowWrite : ∀ x0 x1 x2, Statement (.windowWrite x0 x1 x2) := fun _ _ _ => of_none rfl
theorem windowRead : ∀ x0 x1 x2, Statement (.windowRead x0 x1 x2) := fun _ _ _ => of_none rfl
theorem smaskWrite : ∀ x0 x1, Statement (.smaskWrite x0 x1) := fun _ _ => of_none rfl
theorem partitionDescriptorWrite : ∀ x0 x1 x2, Statement (.partitionDescriptorWrite x0 x1 x2) := fun _ _ _ => of_none rfl
theorem keySlotWrite : ∀ x0 x1, Statement (.keySlotWrite x0 x1) := fun _ _ => of_none rfl
theorem keyMaterialReady : ∀ x0, Statement (.keyMaterialReady x0) := fun _ => of_none rfl
theorem getVersion : Statement (.getVersion) := of_none rfl
theorem getCapabilities : Statement .getCapabilities := of_none rfl
theorem negotiateAlgorithms : ∀ x0, Statement (.negotiateAlgorithms x0) := fun _ => of_none rfl
theorem getDigests : Statement (.getDigests) := of_none rfl
theorem getCertificate : ∀ x0 x1 x2, Statement (.getCertificate x0 x1 x2) := fun _ _ _ => of_none rfl
theorem challenge : ∀ x0, Statement (.challenge x0) := fun _ => of_none rfl
theorem getMeasurements : ∀ x0 x1, Statement (.getMeasurements x0 x1) := fun _ _ => of_none rfl
theorem keyExchange : ∀ x0, Statement (.keyExchange x0) := fun _ => of_none rfl
theorem spdmFinish : ∀ x0, Statement (.spdmFinish x0) := fun _ => of_none rfl
theorem keyUpdate : Statement (.keyUpdate) := of_none rfl
theorem heartbeat : Statement (.heartbeat) := of_none rfl
theorem endSession : Statement (.endSession) := of_none rfl
theorem chunkSend : ∀ x0 x1, Statement (.chunkSend x0 x1) := fun _ _ => of_none rfl
theorem chunkGet : ∀ x0, Statement (.chunkGet x0) := fun _ => of_none rfl
theorem ideKm : ∀ x0, Statement (.ideKm x0) := fun _ => of_none rfl
theorem lockInterfaceRequest : ∀ x0, Statement (.lockInterfaceRequest x0) := fun _ => of_none rfl
theorem startInterfaceRequest : ∀ x0, Statement (.startInterfaceRequest x0) := fun _ => of_none rfl
theorem stopInterfaceRequest : ∀ x0, Statement (.stopInterfaceRequest x0) := fun _ => of_none rfl
theorem ideIntegrityFailure : ∀ x0, Statement (.ideIntegrityFailure x0) := fun _ => of_none rfl
theorem vfFunctionLevelReset : ∀ x0, Statement (.vfFunctionLevelReset x0) := fun _ => of_none rfl
theorem firmwareImage : ∀ x0 x1 x2 x3, Statement (.firmwareImage x0 x1 x2 x3) := fun _ _ _ _ => of_none rfl
theorem launchAdmit : ∀ x0, Statement (.launchAdmit x0) := fun _ => of_none rfl
theorem decMessage : ∀ x0, Statement (.decMessage x0) := fun _ => of_none rfl
theorem errorToken : ∀ x0, Statement (.errorToken x0) := fun _ => of_none rfl
theorem wakeMessage : ∀ x0, Statement (.wakeMessage x0) := fun _ => of_none rfl
theorem composingThreadStart : ∀ x0, Statement (.composingThreadStart x0) := fun _ => of_none rfl
theorem formeCopyReceived : ∀ x0 x1, Statement (.formeCopyReceived x0 x1) := fun _ _ => of_none rfl
theorem stampItem : ∀ x0 x1, Statement (.stampItem x0 x1) := fun _ _ => of_none rfl
theorem preempt : ∀ x0, Statement (.preempt x0) := fun _ => of_none rfl
theorem imageSaveDone : ∀ x0, Statement (.imageSaveDone x0) := fun _ => of_none rfl
theorem resume : ∀ x0 x1, Statement (.resume x0 x1) := fun _ _ => of_none rfl
theorem watchdogExpiry : ∀ x0, Statement (.watchdogExpiry x0) := fun _ => of_none rfl
theorem taskCompletion : ∀ x0, Statement (.taskCompletion x0) := fun _ => of_none rfl
theorem formeRelease : ∀ x0 x1, Statement (.formeRelease x0 x1) := fun _ _ => of_none rfl
theorem nestedFormeRelease : ∀ x0 x1, Statement (.nestedFormeRelease x0 x1) := fun _ _ => of_none rfl
theorem messageArrival : ∀ x0, Statement (.messageArrival x0) := fun _ => of_none rfl
theorem handlerThreadStart : ∀ x0 x1, Statement (.handlerThreadStart x0 x1) := fun _ _ => of_none rfl
theorem remoteFill : ∀ x0, Statement (.remoteFill x0) := fun _ => of_none rfl
theorem remoteAccessArrival : ∀ x0, Statement (.remoteAccessArrival x0) := fun _ => of_none rfl
theorem syncRequestArrival : ∀ x0, Statement (.syncRequestArrival x0) := fun _ => of_none rfl
theorem accessReply : ∀ x0, Statement (.accessReply x0) := fun _ => of_none rfl
theorem acknowledgement : ∀ x0, Statement (.acknowledgement x0) := fun _ => of_none rfl
theorem walkComplete : ∀ x0 x1, Statement (.walkComplete x0 x1) := fun _ _ => of_none rfl
theorem fbpopRead : ∀ x0, Statement (.fbpopRead x0) := fun _ => of_none rfl
theorem fbstatDropClear : ∀ x0, Statement (.fbstatDropClear x0) := fun _ => of_none rfl
theorem replayAll : ∀ x0, Statement (.replayAll x0) := fun _ => of_none rfl
theorem invalVa : ∀ x0, Statement (.invalVa x0) := fun _ => of_none rfl
theorem invalAll : ∀ x0, Statement (.invalAll x0) := fun _ => of_none rfl
theorem domainConfigStage : ∀ x0 x1 x2, Statement (.domainConfigStage x0 x1 x2) := fun _ _ _ => of_none rfl
theorem scmdWb : ∀ x0, Statement (.scmdWb x0) := fun _ => of_none rfl
theorem scmdWbDone : ∀ x0, Statement (.scmdWbDone x0) := fun _ => of_none rfl
theorem domswGo : Statement (.domswGo) := of_none rfl
theorem domainSwitchDone : Statement (.domainSwitchDone) := of_none rfl
theorem hotnessHalving : Statement (.hotnessHalving) := of_none rfl
theorem migrationStart : ∀ x0 x1 x2, Statement (.migrationStart x0 x1 x2) := fun _ _ _ => of_none rfl
theorem migrationFlip : ∀ x0 x1, Statement (.migrationFlip x0 x1) := fun _ _ => of_none rfl
theorem copyComplete : ∀ x0, Statement (.copyComplete x0) := fun _ => of_none rfl
theorem nearMemoryComplete : ∀ x0, Statement (.nearMemoryComplete x0) := fun _ => of_none rfl
theorem skupdComplete : ∀ x0, Statement (.skupdComplete x0) := fun _ => of_none rfl
theorem counterWatchMet : ∀ x0, Statement (.counterWatchMet x0) := fun _ => of_none rfl
theorem triggerFire : ∀ x0, Statement (.triggerFire x0) := fun _ => of_none rfl
theorem scWindowClose : Statement (.scWindowClose) := of_none rfl
theorem matrixOpStart : ∀ x0, Statement (.matrixOpStart x0) := fun _ => of_none rfl
theorem matrixOpComplete : ∀ x0, Statement (.matrixOpComplete x0) := fun _ => of_none rfl
theorem handoffLand : ∀ x0, Statement (.handoffLand x0) := fun _ => of_none rfl
theorem galleryPutArrival : ∀ x0, Statement (.galleryPutArrival x0) := fun _ => of_none rfl
theorem galleryMatchRequest : ∀ x0, Statement (.galleryMatchRequest x0) := fun _ => of_none rfl
theorem galleryCancelArrival : ∀ x0, Statement (.galleryCancelArrival x0) := fun _ => of_none rfl
theorem putAnswer : ∀ x0, Statement (.putAnswer x0) := fun _ => of_none rfl
theorem retryReissue : ∀ x0, Statement (.retryReissue x0) := fun _ => of_none rfl
theorem redirectReissue : ∀ x0, Statement (.redirectReissue x0) := fun _ => of_none rfl
theorem rangeEntryAck : ∀ x0 x1, Statement (.rangeEntryAck x0 x1) := fun _ _ => of_none rfl
theorem splitFlip : ∀ x0, Statement (.splitFlip x0) := fun _ => of_none rfl
theorem splitDrain : ∀ x0, Statement (.splitDrain x0) := fun _ => of_none rfl
theorem splitDone : ∀ x0, Statement (.splitDone x0) := fun _ => of_none rfl
theorem landingArrival : ∀ x0, Statement (.landingArrival x0) := fun _ => of_none rfl
theorem landingAck : ∀ x0, Statement (.landingAck x0) := fun _ => of_none rfl
theorem landingFlipSeen : ∀ x0, Statement (.landingFlipSeen x0) := fun _ => of_none rfl
theorem lownWrite : ∀ x0 x1, Statement (.lownWrite x0 x1) := fun _ _ => of_none rfl
theorem lcfgWrite : ∀ x0 x1 x2, Statement (.lcfgWrite x0 x1 x2) := fun _ _ _ => of_none rfl
theorem collectiveArrival : ∀ x0, Statement (.collectiveArrival x0) := fun _ => of_none rfl
theorem collectiveResult : ∀ x0, Statement (.collectiveResult x0) := fun _ => of_none rfl
theorem packetDelivery : ∀ x0, Statement (.packetDelivery x0) := fun _ => of_none rfl
theorem transportGiveUp : ∀ x0, Statement (.transportGiveUp x0) := fun _ => of_none rfl
theorem functionFence : ∀ x0 x1 x2, Statement (.functionFence x0 x1 x2) := fun _ _ _ => of_none rfl
theorem deferredFencedTrap : ∀ x0, Statement (.deferredFencedTrap x0) := fun _ => of_none rfl
theorem debugRelease : ∀ x0 x1, Statement (.debugRelease x0 x1) := fun _ _ => of_none rfl
theorem powerOnReset : Statement (.powerOnReset) := of_none rfl
theorem packageReset : Statement (.packageReset) := of_none rfl
theorem debugReset : ∀ x0, Statement (.debugReset x0) := fun _ => of_none rfl
theorem lifeCycleChange : ∀ x0 x1, Statement (.lifeCycleChange x0 x1) := fun _ _ => of_none rfl
theorem wipeComplete : ∀ x0, Statement (.wipeComplete x0) := fun _ => of_none rfl
theorem powerRemoved : Statement (.powerRemoved) := of_none rfl
theorem thrRise : ∀ x0 x1, Statement (.thrRise x0 x1) := fun _ _ => of_none rfl
theorem thrFall : ∀ x0 x1, Statement (.thrFall x0 x1) := fun _ _ => of_none rfl
theorem thermalTrip : ∀ x0, Statement (.thermalTrip x0) := fun _ => of_none rfl
theorem thermalOff : Statement (.thermalOff) := of_none rfl
theorem msiXVectorUnmask : ∀ x0 x1, Statement (.msiXVectorUnmask x0 x1) := fun _ _ => of_none rfl
theorem poolModuleFailure : ∀ x0, Statement (.poolModuleFailure x0) := fun _ => of_none rfl
theorem bouncedRequestReissue : ∀ x0, Statement (.bouncedRequestReissue x0) := fun _ => of_none rfl
theorem mirroredChange : ∀ x0, Statement (.mirroredChange x0) := fun _ => of_none rfl
theorem sourceHomeNotice : ∀ x0, Statement (.sourceHomeNotice x0) := fun _ => of_none rfl
theorem rankCompletionReport : ∀ x0, Statement (.rankCompletionReport x0) := fun _ => of_none rfl

end Sys2Proof.Laws.Encoding
end

