-- ==== Sys2Proof/Tests/Slice0.lean ====
section
/-!
SUPPORT. Tests: ill-formed terms that WellFormed refuses, words written out from the encoding tables, witnesses of the
hypotheses of every obligation, and a few steps. Expected values come from the spec's tables and rules by hand.
-/

set_option Elab.async false

namespace Sys2Proof.Tests

open Sys2Proof Sys2Proof.Machine Sys2Proof.Cert

/-! ### Small states -/

/-- A segment over the own TCM of core 0 with every right but I. -/
def segTcm : Seg := { base := BitVec.ofNat 64 (localAddr 0 0), limit := 0x70000, rights := 63, scope := .pkg }

/-- A small register file. -/
def regs : Tab Word := [(1, 0x3000), (2, 7), (3, 0xFFFFFFFE), (4, 0x12345678), (5, 1), (6, 8)]

/-- A supervisor thread with it; sg0 to sg2 cover the TCM. -/
def thread : Thread :=
  { pc := 0x2000, regs := { s := regs, v := [(1, 0x0807060504030201), (2, 0x102), (3, 5)], k := [(1, 0xF0F)] }
    segs := [(0, segTcm), (1, segTcm), (2, segTcm)], sys := { tstatus := 1 } }

/-- The machine with storey 0 in partition 0, whose TDI runs, and a thread that issues in a slot of core 0. -/
def inSlot (slot : Nat) (t : Thread) : State :=
  { State.reset.withFetchWord 32 0 with threads := [(slot, t)], cur := slot, agenda := [] }

/-- A handler in slot 3, and eight bytes of its TCM. -/
def base : State := (inSlot 3 thread).sramWrite 0 0x3000 [0x81, 0x92, 0x83, 0x74, 5, 6, 7, 8]

/-- The same thread with one scalar register changed. -/
def withS (s : State) (n : Nat) (v : Word) : State := s.modMe fun t => { t with regs := t.regs.putS n v }

/-- An outcome is a next state. -/
def isNext : Host.Outcome State Fault Refusal → Bool
  | .next _ => true
  | _ => false

/-- A property of the next state. -/
def after (o : Host.Outcome State Fault Refusal) (p : State → Bool) : Bool := match o with
  | .next t => p t
  | _ => false

/-! ### Ill-formed terms and words that are no instruction (R37) -/

theorem test_illFormed_order : (Instr.amoadd 5 1 2 3 4).illFormed = some .order ∧ (Instr.amocas 7 1 2 3 4).illFormed = some .order := by
  decide +kernel
theorem test_illFormed_value :
    (Instr.fence 3 0).illFormed = some .value ∧ (Instr.fence 0 5).illFormed = some .value
    ∧ (Instr.cpy 3 1 2 3).illFormed = some .value ∧ (Instr.cpyf 3 1 2 3).illFormed = some .value
    ∧ (Instr.vcvt 0 0 6 1 2 3).illFormed = some .value
    ∧ (Instr.vbcast 1 2 3).illFormed = some .value ∧ (Instr.vget 1 2 3 3).illFormed = some .value
    ∧ (Instr.vput 1 2 3 7).illFormed = some .value ∧ (Instr.kget 1 2 2).illFormed = some .value ∧ (Instr.kset 1 2 2).illFormed = some .value
    ∧ (Instr.mma 1 2 4).illFormed = some .value ∧ (Instr.mmarb 1 2 2).illFormed = some .value ∧ (Instr.mma 1 0 2).illFormed = none
    ∧ (Instr.mbld 1 2).illFormed = some .value ∧ (Instr.mbpass 2).illFormed = some .value
    ∧ (Instr.read 3 8 1 2).illFormed = some .value ∧ (Instr.take 3 8 1 2).illFormed = some .value
    ∧ (Instr.decEvent 0 1 2).illFormed = some .value ∧ (Instr.segrd 1 2 4).illFormed = some .value := by decide +kernel
theorem test_illFormed_laneType :
    (Instr.viadd 0 1 2 3 4).illFormed = some .laneType ∧ (Instr.vadd 4 1 2 3 4).illFormed = some .laneType
    ∧ (Instr.vcmp 0 2 1 2 3 4).illFormed = some .laneType ∧ (Instr.vsel 6 1 2 3 4).illFormed = some .laneType
    ∧ (Instr.vredsum 3 1 2 3).illFormed = some .laneType ∧ (Instr.vcvt 0 6 0 1 2 3).illFormed = some .laneType := by decide +kernel
theorem test_illFormed_oddPair :
    (Instr.wtany 1 3).illFormed = some .oddPair ∧ (Instr.wtall 3).illFormed = some .oddPair
    ∧ (Instr.tfirst 1 3).illFormed = some .oddPair ∧ (Instr.tclr 3).illFormed = some .oddPair := by decide +kernel
theorem test_illFormed_resultRegister :
    (Instr.read 0 7 1 2).illFormed = some .resultRegister ∧ (Instr.take 1 3 1 2).illFormed = some .resultRegister := by decide +kernel

theorem test_reject_words :
    decode [1, 2, 3] = .error .shortFetch ∧ decodeWord 0 = .error .zeroWord ∧ decodeWord 0x26 = .error .opcode
    ∧ decodeWord 0x40 = .error .opcode ∧ decodeWord 0xFFFFFFFF = .error .opcode
    ∧ decodeWord (0x01 + 67108864 * 63) = .error .function
    ∧ decodeWord (0x0D + 65536 * 6) = .error .condition
    ∧ decodeWord (0x0E + 524288 * 3) = .error .size
    ∧ decodeWord (0x01 + 64 * 3 + 2048 * 4 + 65536 * 5 + 2097152) = .error .reservedField
    ∧ decodeWord (0x25 + 16777216 * 7 + 64) = .error .reservedField := by decide +kernel

/-! ### Words written out from the formats and function tables (R33-R37), each row at its own field values -/

theorem test_decode_01_0 :
    decodeWord 0x001CEF01 = .ok (.add 28 29 28)
    ∧ decodeWord 0x040C5F81 = .ok (.sub 30 11 12)
    ∧ decodeWord 0x080B3701 = .ok (.and 28 6 11)
    ∧ decodeWord 0x0C134941 = .ok (.or 5 9 19)
    ∧ decodeWord 0x1002CF01 = .ok (.xor 28 25 2)
    ∧ decodeWord 0x140A0101 = .ok (.andn 4 0 10)
    ∧ decodeWord 0x18031301 = .ok (.orn 12 2 3)
    ∧ decodeWord 0x1C0F0F41 = .ok (.xnor 29 1 15)
    ∧ decodeWord 0x2014E301 = .ok (.sll 12 28 20)
    ∧ decodeWord 0x240E97C1 = .ok (.srl 31 18 14)
    ∧ decodeWord 0x28002F41 = .ok (.sra 29 5 0)
    ∧ decodeWord 0x2C11D141 = .ok (.rol 5 26 17) := by
  decide +kernel
theorem test_decode_01_1 :
    decodeWord 0x3010A381 = .ok (.ror 14 20 16)
    ∧ decodeWord 0x34120901 = .ok (.slt 4 1 18)
    ∧ decodeWord 0x3806C981 = .ok (.sltu 6 25 6)
    ∧ decodeWord 0x3C12C101 = .ok (.min 4 24 18)
    ∧ decodeWord 0x40010341 = .ok (.max 13 0 1)
    ∧ decodeWord 0x440D1F81 = .ok (.minu 30 3 13)
    ∧ decodeWord 0x4818CE81 = .ok (.maxu 26 25 24)
    ∧ decodeWord 0x4C046441 = .ok (.mul 17 12 4)
    ∧ decodeWord 0x50152CC1 = .ok (.mulh 19 5 21)
    ∧ decodeWord 0x54150681 = .ok (.mulhu 26 0 21)
    ∧ decodeWord 0x580743C1 = .ok (.mulhsu 15 8 7)
    ∧ decodeWord 0x5C0600C1 = .ok (.div 3 0 6) := by
  decide +kernel
theorem test_decode_01_2 :
    decodeWord 0x601DFAC1 = .ok (.divu 11 31 29)
    ∧ decodeWord 0x640CE301 = .ok (.rem 12 28 12)
    ∧ decodeWord 0x6808D601 = .ok (.remu 24 26 8)
    ∧ decodeWord 0x6C003E41 = .ok (.clz 25 7)
    ∧ decodeWord 0x7000D341 = .ok (.ctz 13 26)
    ∧ decodeWord 0x74000441 = .ok (.popc 17 0)
    ∧ decodeWord 0x78009841 = .ok (.sextb 1 19)
    ∧ decodeWord 0x7C006AC1 = .ok (.sexth 11 13)
    ∧ decodeWord 0x8000C981 = .ok (.zexth 6 25)
    ∧ decodeWord 0x84001241 = .ok (.bswap 9 2) := by
  decide +kernel
theorem test_decode_02 :
    decodeWord 0x6D2EE402 = .ok (.addi 16 28 27950) := by
  decide +kernel
theorem test_decode_03 :
    decodeWord 0x04E7AC83 = .ok (.andi 18 21 1255) := by
  decide +kernel
theorem test_decode_04 :
    decodeWord 0xC5B82104 = .ok (.ori 4 4 50616) := by
  decide +kernel
theorem test_decode_05 :
    decodeWord 0x2E236BC5 = .ok (.xori 15 13 11811) := by
  decide +kernel
theorem test_decode_06 :
    decodeWord 0x07F0BDC6 = .ok (.slti 23 23 2032) := by
  decide +kernel
theorem test_decode_07 :
    decodeWord 0xE80A4787 = .ok (.sltiu 30 8 59402) := by
  decide +kernel
theorem test_decode_08 :
    decodeWord 0x0008C2C8 = .ok (.slli 11 24 8)
    ∧ decodeWord 0x04099B88 = .ok (.srli 14 19 9)
    ∧ decodeWord 0x080F6288 = .ok (.srai 10 12 15) := by
  decide +kernel
theorem test_decode_09 :
    decodeWord 0x64A76E09 = .ok (.lui 24 824557) := by
  decide +kernel
theorem test_decode_0a :
    decodeWord 0xF70C594A = .ok (.adpc 5 2023819) := by
  decide +kernel
theorem test_decode_0b :
    decodeWord 0xD7C938CB = .ok (.jal 3 1767719) := by
  decide +kernel
theorem test_decode_0c :
    decodeWord 0x352A308C = .ok (.jalr 2 6 13610) := by
  decide +kernel
theorem test_decode_0d :
    decodeWord 0x82A07E4D = .ok (.beq 25 15 4180)
    ∧ decodeWord 0x8391D7CD = .ok (.bne 31 26 4210)
    ∧ decodeWord 0x963A590D = .ok (.blt 4 11 4807)
    ∧ decodeWord 0x40B3778D = .ok (.bge 30 14 2070)
    ∧ decodeWord 0x25F48B4D = .ok (.bltu 13 17 1214)
    ∧ decodeWord 0x686D090D = .ok (.bgeu 4 1 3341) := by
  decide +kernel
theorem test_decode_0e :
    decodeWord 0x89C6E3CE = .ok (.ldb 15 28 6 551)
    ∧ decodeWord 0x1EE05C8E = .ok (.ldbu 18 11 0 123)
    ∧ decodeWord 0xBCCA2DCE = .ok (.ldh 23 5 2 755)
    ∧ decodeWord 0x46EFAA0E = .ok (.ldhu 8 21 7 283)
    ∧ decodeWord 0x11D0F58E = .ok (.ldw 22 30 0 71) := by
  decide +kernel
theorem test_decode_0f :
    decodeWord 0x9F80090F = .ok (.stb 4 1 0 638)
    ∧ decodeWord 0xF6C99D0F = .ok (.sth 20 19 1 987)
    ∧ decodeWord 0x45D1270F = .ok (.stw 28 4 1 279) := by
  decide +kernel
theorem test_decode_10 :
    decodeWord 0xBC404550 = .ok (.ldfe 21 8 0 753)
    ∧ decodeWord 0xB409F110 = .ok (.ldff 4 30 1 720)
    ∧ decodeWord 0xD590F810 = .ok (.stfe 0 31 0 854)
    ∧ decodeWord 0xC3DE0110 = .ok (.stff 4 0 6 783) := by
  decide +kernel
theorem test_decode_11 :
    decodeWord 0x20278691 = .ok (.amoadd 2 26 16 1 7)
    ∧ decodeWord 0x41FCE951 = .ok (.amoswap 4 5 29 7 28)
    ∧ decodeWord 0x1285F051 = .ok (.amocas 1 1 30 4 5)
    ∧ decodeWord 0x23FF8011 = .ok (.amoand 2 0 16 7 31)
    ∧ decodeWord 0x344C5551 = .ok (.amoor 3 21 10 2 12)
    ∧ decodeWord 0x1574CC11 = .ok (.amoxor 1 16 25 3 20)
    ∧ decodeWord 0x466DC391 = .ok (.amomin 4 14 24 3 13)
    ∧ decodeWord 0x276847D1 = .ok (.amomax 2 31 8 3 8)
    ∧ decodeWord 0x383151D1 = .ok (.amominu 3 7 10 1 17)
    ∧ decodeWord 0x498DD611 = .ok (.amomaxu 4 24 26 4 13) := by
  decide +kernel
theorem test_decode_12 :
    decodeWord 0x00800092 = .ok (.fence 2 4)
    ∧ decodeWord 0x01000012 = .ok (.drain)
    ∧ decodeWord 0x02F42012 = .ok (.feclr 7 4 20)
    ∧ decodeWord 0x03111452 = .ok (.trig 17 0 2 17)
    ∧ decodeWord 0x04B30A12 = .ok (.waitc 8 5 1 19)
    ∧ decodeWord 0x05DD6052 = .ok (.ncmp 1 6 12 29)
    ∧ decodeWord 0x068F48D2 = .ok (.nred 3 4 9 15) := by
  decide +kernel
theorem test_decode_13 :
    decodeWord 0x001C35D3 = .ok (.cpy 0 23 6 28)
    ∧ decodeWord 0x010CF413 = .ok (.cpyg 0 16 30 12)
    ∧ decodeWord 0x021E12D3 = .ok (.cpys 0 11 2 30)
    ∧ decodeWord 0x03565653 = .ok (.cpyf 2 25 10 22) := by
  decide +kernel
theorem test_decode_14 :
    decodeWord 0x00007154 = .ok (.wtany 5 14)
    ∧ decodeWord 0x0100D014 = .ok (.wtall 26)
    ∧ decodeWord 0x0200C214 = .ok (.tfirst 8 24)
    ∧ decodeWord 0x0300E014 = .ok (.tclr 28)
    ∧ decodeWord 0x0400EB14 = .ok (.tstat 12 29) := by
  decide +kernel
theorem test_decode_15 :
    decodeWord 0x001AF695 = .ok (.vld 10 5 29 0 6)
    ∧ decodeWord 0x64C5BF15 = .ok (.vlds 12 3 15 6 6 1)
    ∧ decodeWord 0x293606D5 = .ok (.vldx 11 4 1 2 9 5) := by
  decide +kernel
theorem test_decode_16 :
    decodeWord 0x2003D756 = .ok (.vst 13 7 21 2 0)
    ∧ decodeWord 0x87E19356 = .ok (.vsts 13 3 4 8 31 0)
    ∧ decodeWord 0x18B57916 = .ok (.vstx 4 2 30 1 5 5) := by
  decide +kernel
theorem test_decode_17 :
    decodeWord 0x00BC9F97 = .ok (.viadd 5 14 7 2 7)
    ∧ decodeWord 0x04AA2717 = .ok (.visub 5 12 9 8 2)
    ∧ decodeWord 0x089123D7 = .ok (.vimul 4 15 8 4 4)
    ∧ decodeWord 0x0C98C317 = .ok (.vimin 4 12 0 3 6)
    ∧ decodeWord 0x10830FD7 = .ok (.vimax 4 15 3 12 0)
    ∧ decodeWord 0x1488BB57 = .ok (.viand 4 13 14 2 2)
    ∧ decodeWord 0x18B1FFD7 = .ok (.vior 5 15 15 7 4)
    ∧ decodeWord 0x1C977E97 = .ok (.vixor 4 10 15 13 5)
    ∧ decodeWord 0x208F4217 = .ok (.visll 4 8 0 13 3)
    ∧ decodeWord 0x24805917 = .ok (.visrl 4 4 6 1 0)
    ∧ decodeWord 0x28826AD7 = .ok (.visra 4 11 10 9 0)
    ∧ decodeWord 0x2C9C0FD7 = .ok (.viabs 4 15 3 7) := by
  decide +kernel
theorem test_decode_18_0 :
    decodeWord 0x0011B418 = .ok (.vadd 0 0 13 6 4)
    ∧ decodeWord 0x04395998 = .ok (.vsub 1 6 6 5 6)
    ∧ decodeWord 0x0809ED58 = .ok (.vmul 0 5 11 7 2)
    ∧ decodeWord 0x0C359998 = .ok (.vfma 1 6 6 6 5)
    ∧ decodeWord 0x1009D098 = .ok (.vfms 0 2 4 7 2)
    ∧ decodeWord 0x1438F758 = .ok (.vmin 1 13 13 3 6)
    ∧ decodeWord 0x180F00D8 = .ok (.vmax 0 3 0 12 3)
    ∧ decodeWord 0x1C142CD8 = .ok (.vabs 0 3 11 5)
    ∧ decodeWord 0x202C0BD8 = .ok (.vneg 1 15 2 3)
    ∧ decodeWord 0x240007D8 = .ok (.vsqrt 0 15 1 0)
    ∧ decodeWord 0x280C14D8 = .ok (.vrcp 0 3 5 3)
    ∧ decodeWord 0x2C081658 = .ok (.vrsq 0 9 5 2) := by
  decide +kernel
theorem test_decode_18_1 :
    decodeWord 0x30001398 = .ok (.vexp2 0 14 4 0)
    ∧ decodeWord 0x3406B398 = .ok (.vscl 0 14 12 10 1) := by
  decide +kernel
theorem test_decode_19 :
    decodeWord 0x030EC019 = .ok (.vcmp 3 0 0 0 11 3)
    ∧ decodeWord 0x043EEF19 = .ok (.vsel 1 12 11 11 7)
    ∧ decodeWord 0x08A42899 = .ok (.vshuf 5 2 10 0 1)
    ∧ decodeWord 0x0C0EA219 = .ok (.vslide 0 8 8 10 3)
    ∧ decodeWord 0x10282AD9 = .ok (.vredsum 1 11 10 2)
    ∧ decodeWord 0x14A80A99 = .ok (.vredmax 5 10 2 2)
    ∧ decodeWord 0x18B405D9 = .ok (.vredmin 5 7 1 5)
    ∧ decodeWord 0x1C184B19 = .ok (.vcvt 0 0 1 12 2 6)
    ∧ decodeWord 0x2001CC59 = .ok (.kand 1 3 7)
    ∧ decodeWord 0x24018059 = .ok (.kor 1 0 6)
    ∧ decodeWord 0x280004D9 = .ok (.knot 3 1)
    ∧ decodeWord 0x2C0011D9 = .ok (.kmov 7 4) := by
  decide +kernel
theorem test_decode_1a :
    decodeWord 0x0040199A = .ok (.vbcast 6 3 2)
    ∧ decodeWord 0x01201C1A = .ok (.vget 16 3 0 1)
    ∧ decodeWord 0x0255D0DA = .ok (.vput 3 26 21 2)
    ∧ decodeWord 0x0320089A = .ok (.kget 2 1 1)
    ∧ decodeWord 0x0420519A = .ok (.kset 6 10 1) := by
  decide +kernel
theorem test_decode_1b :
    decodeWord 0x000057DB = .ok (.mma 31 10 0)
    ∧ decodeWord 0x0120FE9B = .ok (.mmarb 26 31 1)
    ∧ decodeWord 0x02209DDB = .ok (.mmacn 23 19 1)
    ∧ decodeWord 0x0320881B = .ok (.mbld 17 1)
    ∧ decodeWord 0x0420001B = .ok (.mbpass 1)
    ∧ decodeWord 0x0500049B = .ok (.mzero 18)
    ∧ decodeWord 0x0600081B = .ok (.mfmt 1)
    ∧ decodeWord 0x0700001B = .ok (.mfmtq 0) := by
  decide +kernel
theorem test_decode_1c :
    decodeWord 0x000F115C = .ok (.put 5 2 15)
    ∧ decodeWord 0x011AC05C = .ok (.putg 1 24 26)
    ∧ decodeWord 0x02191B5C = .ok (.read 0 13 3 25)
    ∧ decodeWord 0x031BF31C = .ok (.take 0 12 30 27)
    ∧ decodeWord 0x0402019C = .ok (.tcancel 6 2) := by
  decide +kernel
theorem test_decode_1d :
    decodeWord 0x001D4BDD = .ok (.halldefDefine 15 9 29)
    ∧ decodeWord 0x01071E9D = .ok (.hallq 26 3 7)
    ∧ decodeWord 0x0200E9DD = .ok (.split 7 29)
    ∧ decodeWord 0x030068DD = .ok (.splst 3 13) := by
  decide +kernel
theorem test_decode_1e :
    decodeWord 0x00A0481E = .ok (.skset 5 9)
    ∧ decodeWord 0x012B721E = .ok (.skupd 1 8 14 11)
    ∧ decodeWord 0x02C0721E = .ok (.skqry 6 8 14)
    ∧ decodeWord 0x03C0BA1E = .ok (.skadd 6 8 23)
    ∧ decodeWord 0x0480001E = .ok (.skclr 4) := by
  decide +kernel
theorem test_decode_1f :
    decodeWord 0x0000001F = .ok (.freeze)
    ∧ decodeWord 0x0108781F = .ok (.nest 15 8)
    ∧ decodeWord 0x0200001F = .ok (.njoin)
    ∧ decodeWord 0x0300F1DF = .ok (.tstw 7 30)
    ∧ decodeWord 0x04009ADF = .ok (.tstv 11 19)
    ∧ decodeWord 0x0580045F = .ok (.finfo 17 4) := by
  decide +kernel
theorem test_decode_20 :
    decodeWord 0x000C8BE0 = .ok (.msg 15 17 12)
    ∧ decodeWord 0x010C7820 = .ok (.rput 15 12)
    ∧ decodeWord 0x02006060 = .ok (.rputv 1 12)
    ∧ decodeWord 0x030000E0 = .ok (.empty 3)
    ∧ decodeWord 0x04000020 = .ok (.emptyv 0)
    ∧ decodeWord 0x05008C20 = .ok (.testp 16 17)
    ∧ decodeWord 0x05206860 = .ok (.testpVector 1 13)
    ∧ decodeWord 0x060000A0 = .ok (.wfm 2) := by
  decide +kernel
theorem test_decode_21 :
    decodeWord 0x00003021 = .ok (.landa 6)
    ∧ decodeWord 0x01007021 = .ok (.landw 14)
    ∧ decodeWord 0x02008821 = .ok (.landaw 17)
    ∧ decodeWord 0x03002161 = .ok (.landq 5 4) := by
  decide +kernel
theorem test_decode_22 :
    decodeWord 0x000A7822 = .ok (.cgput 15 10)
    ∧ decodeWord 0x010BF022 = .ok (.cgputv 30 11)
    ∧ decodeWord 0x0200F5A2 = .ok (.cgget 22 30)
    ∧ decodeWord 0x03006AA2 = .ok (.cggetv 10 13)
    ∧ decodeWord 0x0415F822 = .ok (.cgset 31 21) := by
  decide +kernel
theorem test_decode_23 :
    decodeWord 0x00004023 = .ok (.spawn 8)
    ∧ decodeWord 0x01043823 = .ok (.dec 7 4)
    ∧ decodeWord 0x01EDE023 = .ok (.decEvent 7 28 13)
    ∧ decodeWord 0x02000023 = .ok (.exit)
    ∧ decodeWord 0x03000023 = .ok (.yield) := by
  decide +kernel
theorem test_decode_24 :
    decodeWord 0x001B8024 = .ok (.hsift 16 27)
    ∧ decodeWord 0x01184824 = .ok (.remapwAppend 9 24)
    ∧ decodeWord 0x02174824 = .ok (.remapcPool 9 23) := by
  decide +kernel
theorem test_decode_25 :
    decodeWord 0x00534CA5 = .ok (.sysrd 18 2665)
    ∧ decodeWord 0x012F16E5 = .ok (.syswr 27 1506)
    ∧ decodeWord 0x025E81A5 = .ok (.sysset 6 3024)
    ∧ decodeWord 0x03764525 = .ok (.sysclr 20 3784)
    ∧ decodeWord 0x04000025 = .ok (.ecall)
    ∧ decodeWord 0x05000025 = .ok (.brk)
    ∧ decodeWord 0x06000025 = .ok (.tret)
    ∧ decodeWord 0x07000025 = .ok (.halt)
    ∧ decodeWord 0x08002865 = .ok (.segld 1 5)
    ∧ decodeWord 0x09603F65 = .ok (.segrd 29 7 3) := by
  decide +kernel

/-! ### Words that the spec works out itself (R39, R129, R142, R153, R163, R228, R243, R258, R296, R318, R330, R348, R353 and the
programs' listings): the source of each is the comment -/

theorem test_decode_specWords_first :
    decodeWord 0x000520C1 = .ok (.add 3 4 5)  -- ADD s3, s4, s5
    ∧ decodeWord 0x009220CE = .ok (.ldw 3 4 2 2)  -- LDW s3, sg2:[s4+8]
    ∧ decodeWord 0xFFF100CD = .ok (.bne 3 0 8190)  -- BNE s3, s0, loop
    ∧ decodeWord 0x0004C858 = .ok (.vadd 0 1 2 3 1)  -- VADD.F32 v1, v2, v3, k1
    ∧ decodeWord 0x0325221C = .ok (.take 1 8 4 5)  -- TAKE.WAIT v8, s4, s5
    ∧ decodeWord 0x000010E5 = .ok (.sysrd 3 2)  -- SYSRD s3, 0x002
    ∧ decodeWord 0x0000001F = .ok (.freeze)  -- FREEZE
    ∧ decodeWord 0x0105201F = .ok (.nest 4 5)  -- NEST s4, s5
    ∧ decodeWord 0x0200001F = .ok (.njoin)  -- NJOIN
    ∧ decodeWord 0x030020DF = .ok (.tstw 3 4)  -- TSTW s3, s4
    ∧ decodeWord 0x0400221F = .ok (.tstv 8 4)  -- TSTV v8, s4
    ∧ decodeWord 0x054000DF = .ok (.finfo 3 2)  -- FINFO s3, 2
    ∧ decodeWord 0x000520E0 = .ok (.msg 3 4 5)  -- MSG s3, s4, s5
    ∧ decodeWord 0x01052020 = .ok (.rput 4 5)  -- RPUT s4, s5
    ∧ decodeWord 0x02002260 = .ok (.rputv 9 4)  -- RPUTV v9, s4
    ∧ decodeWord 0x03000520 = .ok (.empty 20)  -- EMPTY s20
    ∧ decodeWord 0x04000220 = .ok (.emptyv 8)  -- EMPTYV v8
    ∧ decodeWord 0x052048E0 = .ok (.testpVector 3 9) := by  -- TESTP s3, v9
  decide +kernel

theorem test_decode_specWords_second :
    decodeWord 0x060000E0 = .ok (.wfm 3)  -- WFM s3
    ∧ decodeWord 0x00002023 = .ok (.spawn 4)  -- SPAWN s4
    ∧ decodeWord 0x01452023 = .ok (.decEvent 2 4 5)  -- DEC sg2:[s4], s5
    ∧ decodeWord 0x02000023 = .ok (.exit)  -- EXIT
    ∧ decodeWord 0x011009A5 = .ok (.syswr 6 513)  -- SYSWR 0x201, s6
    ∧ decodeWord 0x04000025 = .ok (.ecall)  -- ECALL
    ∧ decodeWord 0x080038E5 = .ok (.segld 3 7)  -- SEGLD sg3, s7
    ∧ decodeWord 0x09401165 = .ok (.segrd 5 2 2)  -- SEGRD s5, sg2, 2
    ∧ decodeWord 0xFFC220CE = .ok (.ldb 3 4 2 1023)  -- LDB s3, sg2:[s4-1]
    ∧ decodeWord 0x001031CF = .ok (.stw 7 6 0 0)  -- STW s7, sg0:[s6]
    ∧ decodeWord 0x00402150 = .ok (.ldfe 5 4 0 1)  -- LDFE s5, sg0:[s4+4]
    ∧ decodeWord 0x00502190 = .ok (.stfe 6 4 0 1)  -- STFE s6, sg0:[s4+4]
    ∧ decodeWord 0x304520D1 = .ok (.amoadd 3 3 4 2 5)  -- AMOADD.AR s3, sg2:[s4], s5
    ∧ decodeWord 0x424520D1 = .ok (.amocas 4 3 4 2 5)  -- AMOCAS.SC s3, sg2:[s4], s5
    ∧ decodeWord 0x00600092 = .ok (.fence 2 3)  -- FENCE.AR.PKG
    ∧ decodeWord 0x00600052 = .ok (.fence 1 3)  -- FENCE.REL.PKG
    ∧ decodeWord 0x01000012 = .ok (.drain)  -- DRAIN
    ∧ decodeWord 0x02052012 = .ok (.feclr 0 4 5) := by  -- FECLR sg0:[s4], s5
  decide +kernel

theorem test_decode_specWords_third :
    decodeWord 0x03452192 = .ok (.trig 6 2 4 5)  -- TRIG s6, sg2:[s4], s5
    ∧ decodeWord 0x044520D2 = .ok (.waitc 3 2 4 5)  -- WAITC s3, sg2:[s4], s5
    ∧ decodeWord 0x05452192 = .ok (.ncmp 6 2 4 5)  -- NCMP s6, sg2:[s4], s5
    ∧ decodeWord 0x06452192 = .ok (.nred 6 2 4 5)  -- NRED s6, sg2:[s4], s5
    ∧ decodeWord 0x002520D3 = .ok (.cpy 1 3 4 5)  -- CPY.NA s3, s4, s5
    ∧ decodeWord 0x010520D3 = .ok (.cpyg 0 3 4 5)  -- CPYG s3, s4, s5
    ∧ decodeWord 0x000020D4 = .ok (.wtany 3 4)  -- WTANY s3, s4
    ∧ decodeWord 0x01002014 = .ok (.wtall 4)  -- WTALL s4
    ∧ decodeWord 0x020020D4 = .ok (.tfirst 3 4)  -- TFIRST s3, s4
    ∧ decodeWord 0x03002014 = .ok (.tclr 4)  -- TCLR s4
    ∧ decodeWord 0x040020D4 = .ok (.tstat 3 4)  -- TSTAT s3, s4
    ∧ decodeWord 0x10051055 = .ok (.vld 1 2 4 1 1)  -- VLD v1, sg2:[s4+64], k1
    ∧ decodeWord 0x04A11055 = .ok (.vlds 1 2 4 0 5 0)  -- VLDS v1, sg2:[s4], s5
    ∧ decodeWord 0xF8601096 = .ok (.vstx 2 0 4 15 3 0)  -- VSTX v2, sg0:[s4-64], v3
    ∧ decodeWord 0x00A0C857 = .ok (.viadd 5 1 2 3 0)  -- VIADD.I8 v1, v2, v3
    ∧ decodeWord 0x0C219518 = .ok (.vfma 1 4 5 6 0)  -- VFMA.BF16 v4, v5, v6
    ∧ decodeWord 0x01050C99 = .ok (.vcmp 1 0 2 3 4 1)  -- VCMP.F32.LT k2, v3, v4, k1
    ∧ decodeWord 0x100C0859 = .ok (.vredsum 0 1 2 3) := by  -- VREDSUM.F32 v1, v2, k3
  decide +kernel

theorem test_decode_specWords_fourth :
    decodeWord 0x1E404499 = .ok (.vcvt 2 2 1 2 1 0)  -- VCVT.E4M3.BF16.RNES v2, v1
    ∧ decodeWord 0x2000C859 = .ok (.kand 1 2 3)  -- KAND k1, k2, k3
    ∧ decodeWord 0x000020DA = .ok (.vbcast 3 4 0)  -- VBCAST v3, s4, 0
    ∧ decodeWord 0x0225225A = .ok (.vput 9 4 5 1)  -- VPUT v9, s4, s5, 1
    ∧ decodeWord 0x032010DA = .ok (.kget 3 2 1)  -- KGET s3, k2, 1
    ∧ decodeWord 0x002020DB = .ok (.mma 3 4 1)  -- MMA s3, s4, 1
    ∧ decodeWord 0x010020DB = .ok (.mmarb 3 4 0)  -- MMARB s3, s4, 0
    ∧ decodeWord 0x024000DB = .ok (.mmacn 3 0 2)  -- MMACN s3, s0, 2
    ∧ decodeWord 0x0320281B = .ok (.mbld 5 1)  -- MBLD s5, 1
    ∧ decodeWord 0x0420001B = .ok (.mbpass 1)  -- MBPASS 1
    ∧ decodeWord 0x050000DB = .ok (.mzero 3)  -- MZERO s3
    ∧ decodeWord 0x0600201B = .ok (.mfmt 4)  -- MFMT s4
    ∧ decodeWord 0x0700201B = .ok (.mfmtq 4)  -- MFMTQ s4
    ∧ decodeWord 0x0005225C = .ok (.put 9 4 5)  -- PUT v9, s4, s5
    ∧ decodeWord 0x0105225C = .ok (.putg 9 4 5)  -- PUTG v9, s4, s5
    ∧ decodeWord 0x0205221C = .ok (.read 0 8 4 5)  -- READ.POLL v8, s4, s5
    ∧ decodeWord 0x0347329C = .ok (.take 2 10 6 7)  -- TAKE.CONT v10, s6, s7
    ∧ decodeWord 0x040500DC = .ok (.tcancel 3 5) := by  -- TCANCEL s3, s5
  decide +kernel

theorem test_decode_specWords_fifth :
    decodeWord 0x000520DD = .ok (.halldefDefine 3 4 5)  -- HALLDEF s3, s4, s5
    ∧ decodeWord 0x010520DD = .ok (.hallq 3 4 5)  -- HALLQ s3, s4, s5
    ∧ decodeWord 0x020020DD = .ok (.split 3 4)  -- SPLIT s3, s4
    ∧ decodeWord 0x030020DD = .ok (.splst 3 4)  -- SPLST s3, s4
    ∧ decodeWord 0x00140589 = .ok (.lui 22 640)  -- LUI s22, 0x280
    ∧ decodeWord 0x03366A1C = .ok (.take 1 8 13 22)  -- TAKE.WAIT v8, s13, s22
    ∧ decodeWord 0x0100D014 = .ok (.wtall 26)  -- WTALL s26
    ∧ decodeWord 0x0117445A = .ok (.vget 17 8 23 0)  -- VGET s17, v8, s23, 0
    ∧ decodeWord 0x0217621A = .ok (.vput 8 12 23 0)  -- VPUT v8, s12, s23, 0
    ∧ decodeWord 0x0300801B = .ok (.mbld 16 0)  -- MBLD s16, 0
    ∧ decodeWord 0x0000749B = .ok (.mma 18 14 0)  -- MMA s18, s14, 0
    ∧ decodeWord 0x0013925C = .ok (.put 9 18 19)  -- PUT v9, s18, s19
    ∧ decodeWord 0x0040201E = .ok (.skset 2 4)  -- SKSET 2, s4
    ∧ decodeWord 0x0123119E = .ok (.skupd 1 6 2 3)  -- SKUPD 1, s6, v2, v3
    ∧ decodeWord 0x0220125E = .ok (.skqry 1 9 2)  -- SKQRY 1, v9, v2
    ∧ decodeWord 0x030020DE = .ok (.skadd 0 3 4)  -- SKADD 0, s3, s4
    ∧ decodeWord 0x04A0001E = .ok (.skclr 5)  -- SKCLR 5
    ∧ decodeWord 0x00002021 = .ok (.landa 4) := by  -- LANDA s4
  decide +kernel

theorem test_decode_specWords_sixth :
    decodeWord 0x01002021 = .ok (.landw 4)  -- LANDW s4
    ∧ decodeWord 0x02002021 = .ok (.landaw 4)  -- LANDAW s4
    ∧ decodeWord 0x030020E1 = .ok (.landq 3 4)  -- LANDQ s3, s4
    ∧ decodeWord 0x00052022 = .ok (.cgput 4 5)  -- CGPUT s4, s5
    ∧ decodeWord 0x01092022 = .ok (.cgputv 4 9)  -- CGPUTV s4, v9
    ∧ decodeWord 0x020020E2 = .ok (.cgget 3 4)  -- CGGET s3, s4
    ∧ decodeWord 0x03002262 = .ok (.cggetv 9 4)  -- CGGETV v9, s4
    ∧ decodeWord 0x04052022 = .ok (.cgset 4 5)  -- CGSET s4, s5
    ∧ decodeWord 0x0400001E = .ok (.skclr 0)  -- SKCLR 0
    ∧ decodeWord 0x000134D5 = .ok (.vld 3 2 13 0 0)  -- VLD v3, sg2:[s13+0]
    ∧ decodeWord 0x0103131E = .ok (.skupd 0 12 2 3)  -- SKUPD 0, s12, v2, v3
    ∧ decodeWord 0x0000C3E5 = .ok (.sysrd 15 24)  -- SYSRD s15, 0x018
    ∧ decodeWord 0x001003CF = .ok (.stw 15 0 0 0)  -- STW s15, sg0:[s0+SCR]
    ∧ decodeWord 0x05A0045F = .ok (.finfo 17 5)  -- FINFO s17, 5
    ∧ decodeWord 0x0412844F = .ok (.stw 17 16 2 16)  -- STW s17, sg2:[s16+64]
    ∧ decodeWord 0x02005021 = .ok (.landaw 10)  -- LANDAW s10
    ∧ decodeWord 0x00005021 = .ok (.landa 10)  -- LANDA s10
    ∧ decodeWord 0x00005822 = .ok (.cgput 11 0) := by  -- CGPUT s11, s0
  decide +kernel

theorem test_decode_specWords_seventh :
    decodeWord 0x02005BA2 = .ok (.cgget 14 11)  -- CGGET s14, s11
    ∧ decodeWord 0x0200215E = .ok (.skqry 0 5 4)  -- SKQRY 0, v5, v4
    ∧ decodeWord 0x00014156 = .ok (.vst 5 2 16 0 0)  -- VST v5, sg2:[s16+0]
    ∧ decodeWord 0x00052024 = .ok (.hsift 4 5)  -- HSIFT s4, s5
    ∧ decodeWord 0x01052024 = .ok (.remapwAppend 4 5)  -- REMAPW s4, s5
    ∧ decodeWord 0x02052024 = .ok (.remapcPool 4 5)  -- REMAPC s4, s5
    ∧ decodeWord 0x0356921C = .ok (.take 2 8 18 22)  -- TAKE.CONT v8, s18, s22
    ∧ decodeWord 0x0236921C = .ok (.read 1 8 18 22)  -- READ.WAIT v8, s18, s22
    ∧ decodeWord 0x00000023 = .ok (.spawn 0)  -- SPAWN s0
    ∧ decodeWord 0x09001225 = .ok (.segrd 8 2 0)  -- SEGRD s8, sg2, 0
    ∧ decodeWord 0x1E4044D9 = .ok (.vcvt 2 2 1 3 1 0)  -- VCVT.E4M3.BF16.RNES v3, v1
    ∧ decodeWord 0x0CA15119 = .ok (.vslide 5 4 4 5 0)  -- VSLIDE.I8 v4, v4, v5
    ∧ decodeWord 0x3421C898 = .ok (.vscl 1 2 2 7 0)  -- VSCL.BF16 v2, v2, v7
    ∧ decodeWord 0x1C008899 = .ok (.vcvt 0 0 2 2 2 0)  -- VCVT.F32.E4M3 v2, v2
    ∧ decodeWord 0x00110024 = .ok (.hsift 0 17)  -- HSIFT s0, s17
    ∧ decodeWord 0x0106B024 = .ok (.remapwAppend 22 6)  -- REMAPW s22, s6
    ∧ decodeWord 0x0700881B = .ok (.mfmtq 17)  -- MFMTQ s17
    ∧ decodeWord 0x04515B52 = .ok (.waitc 13 2 11 17) := by  -- WAITC s13, sg2:[s11], s17
  decide +kernel

theorem test_decode_specWords_eighth :
    decodeWord 0x010A04D3 = .ok (.cpyg 0 19 0 10)  -- CPYG s19, s0, s10
    ∧ decodeWord 0x021194D3 = .ok (.cpys 0 19 18 17)  -- CPYS s19, s18, s17
    ∧ decodeWord 0x0000941B = .ok (.mma 16 18 0)  -- MMA s16, s18, 0
    ∧ decodeWord 0x08008458 = .ok (.vmul 0 1 1 2 0)  -- VMUL.F32 v1, v1, v2
    ∧ decodeWord 0x30528CD1 = .ok (.amoadd 3 19 17 2 18)  -- AMOADD.AR s19, sg2:[s17], s18
    ∧ decodeWord 0x680609C1 = .ok (.remu 7 1 6)  -- REMU s7, s1, s6
    ∧ decodeWord 0x00135B0E = .ok (.ldw 12 11 3 0)  -- LDW s12, sg3:[s11+0]
    ∧ decodeWord 0x0012424F = .ok (.stw 9 8 2 0)  -- STW s9, sg2:[s8+0]
    ∧ decodeWord 0x08001925 = .ok (.segld 4 3)  -- SEGLD sg4, s3
    ∧ decodeWord 0x0054014E = .ok (.ldw 5 0 4 1)  -- LDW s5, sg4:[s0+4]
    ∧ decodeWord 0x0094014F = .ok (.stw 5 0 4 2)  -- STW s5, sg4:[s0+8]
    ∧ decodeWord 0x080520C8 = .ok (.srai 3 4 5)  -- SRAI s3, s4, 5
    ∧ decodeWord 0x5C0520C1 = .ok (.div 3 4 5)  -- DIV s3, s4, s5
    ∧ decodeWord 0x6C0020C1 = .ok (.clz 3 4)  -- CLZ s3, s4
    ∧ decodeWord 0x05000025 = .ok (.brk)  -- BREAK
    ∧ decodeWord 0x06000025 = .ok (.tret)  -- TRET
    ∧ decodeWord 0x07000025 = .ok (.halt)  -- HALT
    ∧ decodeWord 0x03000023 = .ok (.yield) := by  -- YIELD
  decide +kernel

theorem test_decode_specWords_ninth :
    decodeWord 0x0010A0E5 = .ok (.sysrd 3 532) := by  -- SYSRD s3, c4
  decide +kernel

/-! ### Witnesses: arithmetic and register statements -/

theorem witness_IntegerResults : Ready base [.s 3, .s 4, .d 5] ∧ Ready base [.s 4, .d 0] := by unfold Ready; decide +kernel

theorem witness_ImmediateResults : Ready base [.s 4, .d 0] ∧ Ready base [.d 31] := by unfold Ready; decide +kernel

theorem witness_ControlFlow :
    Ready base [.d 31]
    ∧ (Ready base [.s 1, .d 31] ∧ (((base.consumeAll [.s 1, .d 31]).rS 1) + (4 : BitVec 16).signExtend 32).toNat % 4 = 0)
    ∧ (Ready base [.s 3, .d 31] ∧ (((base.consumeAll [.s 3, .d 31]).rS 3) + (0 : BitVec 16).signExtend 32).toNat % 4 ≠ 0)
    ∧ Ready base [.s 1, .s 2] := by unfold Ready; decide +kernel

/-- A thread whose s4 is empty, and slot 0 with a full send queue. -/
def emptyS4 : State := base.modMe fun t => { t with regs := { t.regs with sFull := setBit t.regs.sFull 4 false } }
def slot0 (c : Core) : State := { inSlot 0 thread with cores := [(0, c)] }

theorem witness_OperandsPark :
    ((emptyS4.thr? emptyS4.cur).isSome = true ∧ emptyS4.blocked [.s 4, .s 2, .d 5] = some (.reg 4)
      ∧ emptyS4.blocked [.s 2, .s 4, .d 5] = some (.reg 4))
    ∧ (slot0 { txReq := List.replicate 64 0 }).blocked [.s 1, .s 2, .d 29] = some (.room 29) := by decide +kernel

theorem witness_ScalarRegisters :
    ((base.thr? base.cur).isSome = true ∧ slotOf base.cur ≠ 0)
    ∧ (let s := slot0 {}
       slotOf s.cur = 0 ∧ ((s.core s.myCore).txReq ++ [0x100]).length < packetWords (((s.core s.myCore).txReq ++ [0x100]).headD 0))
    ∧ (let s := slot0 { rxReq := [7, 8] }
       slotOf s.cur = 0 ∧ (s.core s.myCore).rxReq = 7 :: [8] ∧ s.me.regs.sOwn.getLsbD 28 = true)
    ∧ (let s := base.modMe fun t => { t with fresh := [(9, true)] }
       (s.thr? s.cur).isSome = true ∧ s.me.fresh = [(9, true)] ∧ 8 ≠ 9) := by decide +kernel

theorem witness_AluFrame : aluDest (.add 5 1 2) = some 5 ∧ slotOf base.cur ≠ 0 ∧ isNext (exec (.add 5 1 2) base) = true := by
  decide +kernel

/-! ### Witnesses: memory -/

theorem witness_ScalarLoads :
    let t := base.consumeAll [.s 1, .d 5]
    Ready base [.s 1, .d 5] ∧ OwnTcm t 0 ((t.rS 1).toNat + 0) 1 1 1 [0, 1] 0x3000 ∧ OwnTcm t 0 ((t.rS 1).toNat + 2) 2 1 2 [0, 1] 0x3002
    ∧ OwnTcm t 0 ((t.rS 1).toNat + 4) 4 1 4 [0, 1, 3] 0x3004 := by unfold Ready OwnTcm; decide +kernel

theorem witness_ScalarStores :
    let t := base.consumeAll [.s 1, .s 4]
    Ready base [.s 1, .s 4] ∧ base.cur < 131072 ∧ MemoryOk base ∧ OwnTcm t 0 0x3000 1 2 1 [0, 1] 0x3000
    ∧ OwnTcm t 0 0x6FFFE 2 2 2 [0, 1] 0x6FFFE ∧ OwnTcm t 0 0x6FFFC 4 2 4 [0, 1, 3] 0x6FFFC
    ∧ t.liveCounter t.myCore 0x3000 = none := by
  unfold Ready OwnTcm MemoryOk; decide +kernel

/-- Beyond the limit, without the right, and not aligned. -/
theorem witness_ScalarAccessTraps :
    let s := withS base 1 0x70000
    let u := base.modMe fun t => { t with segs := t.segs.put 0 { segTcm with rights := 0 } }
    let v := withS base 1 0x3002
    let off (t : State) : Int := (t.rS 1).toNat + (0 : BitVec 10).toInt * 4
    let l (s : State) : State := s.consumeAll [.s 1, .d 5]
    let w (s : State) : State := s.consumeAll [.s 1, .s 5]
    Ready s [.s 1, .d 5] ∧ Ready s [.s 1, .s 5] ∧ ((l s).checkAccess 0 (off (l s)) 4 1 4 [0, 1, 3]).map Prod.fst = some 3
    ∧ ((w s).checkAccess 0 (off (w s)) 4 2 4 [0, 1, 3]).map Prod.fst = some 3
    ∧ Ready u [.s 1, .d 5] ∧ ((l u).checkAccess 0 (off (l u)) 4 1 4 [0, 1, 3]).map Prod.fst = some 4
    ∧ Ready v [.s 1, .s 5] ∧ ((w v).checkAccess 0 (off (w v)) 4 2 4 [0, 1, 3]).map Prod.fst = some 5 := by
  unfold Ready; decide +kernel

/-- The word at 0x3000 empty. -/
def emptyWord : State := base.setWordFull 0 0x3000 false

theorem witness_SyncAccesses :
    (let t := base.consumeAll [.s 1, .d 5]
     base.cur < 131072 ∧ Ready base [.s 1, .d 5] ∧ SyncHere t 0 (t.rS 1).toNat 17 0x3000 ∧ t.wordFull t.myCore 0x3000 = true)
    ∧ (let t := emptyWord.consumeAll [.s 1, .s 4]
       Ready emptyWord [.s 1, .s 4] ∧ SyncHere t 0 (t.rS 1).toNat 18 0x3000 ∧ t.relWait = none ∧ t.wordFull t.myCore 0x3000 = false)
    ∧ (let t := emptyWord.consumeAll [.s 1, .d 5]
       Ready emptyWord [.s 1, .d 5] ∧ OwnTcm t 0 (t.rS 1).toNat 4 17 4 [1] 0x3000 ∧ t.liveCounter t.myCore 0x3000 = none
       ∧ t.wordFull t.myCore 0x3000 = false)
    ∧ (Ready base [.s 1, .s 0] ∧ (base.consumeAll [.s 1, .s 0]).rS 0 = 0)
    ∧ (let t := base.consumeAll [.s 1, .s 5]
       Ready base [.s 1, .s 5] ∧ t.rS 5 = 1 ∧ SyncHere t 0 (t.rS 1).toNat 18 0x3000) := by
  unfold SyncHere Ready OwnTcm; decide +kernel

theorem witness_AtomicResults :
    base.cur < 131072
    ∧ (let t := base.consumeAll [.s 1, .s 4, .d 5]
       Ready base [.s 1, .s 4, .d 5] ∧ OwnTcm t 0 (t.rS 1).toNat 4 11 4 [0, 1] 0x3000 ∧ t.relWait = none)
    ∧ (let t := base.consumeAll [.s 1, .s 4, .s 5, .d 5]
       Ready base [.s 1, .s 4, .s 5, .d 5] ∧ OwnTcm t 0 (t.rS 1).toNat 4 11 4 [0, 1] 0x3000 ∧ t.relWait = none) := by
  unfold Ready OwnTcm; decide +kernel

theorem witness_FenceResults :
    ((base.thr? base.cur).isSome = true ∧ base.relWait = none)
    ∧ (base.modMe fun t => { t with unack := 1 }).relWait = some .unackZero := by decide +kernel

/-- A load or a store whose pieces lie in the own TCM. -/
def knownHere (s : State) (ps : List Req) : Bool := match s.gather (s.seg 0) .read ps [] true with
  | .known _ _ => true
  | _ => false
def sentHere (s : State) (ps : List Req) : Bool :=
  match s.scatter (s.seg 0) ps [] ((ps.map Req.a).headD 0) with
  | .ok _ => true
  | _ => false

theorem witness_VectorMemory :
    let on := (List.range 16).filter fun e => (base.rK 1).getLsbD (4 * e)
    let strided (e : Nat) : Int := 0x3000 + e * (base.rS 6).toInt
    let indexed (e : Nat) : Int := 0x3000 + sval 32 (lane (base.rV 0) 32 e)
    let words (offs : Nat → Int) (bytes : Nat → List Byte) : List Req := on.map fun e =>
      { a := base.segAddr 0 (offs e), n := 4, start := base.segAddr 0 (offs e), size := 4, bytes := bytes e }
    let runs : List Req := (runsOf (base.rK 1) (vbytes (base.rV 1))).flatMap fun p =>
      splitReq 3 { a := base.segAddr 0 0x3000 + BitVec.ofNat 64 p.1, n := p.2.length, start := base.segAddr 0 0x3000, size := 64, bytes := p.2 }
    let whole : List Req := (loadReqs (base.segAddr 0 0x3000) 64).flatMap fun q =>
      if (runs.filter fun r => r.a.toNat / 256 == q.a.toNat / 256).isEmpty then [q]
      else runs.filter fun r => r.a.toNat / 256 == q.a.toNat / 256
    let bits (e : Nat) : List Byte := leBytes 4 (lane (base.rV 1) 32 e)
    (∀ ops ∈ ([[.s 1], [.s 1, .s 6], [.s 1, .v 0], [.s 1, .v 1], [.s 1, .s 6, .v 1], [.s 1, .v 0, .v 1]] : List (List Opnd)),
      base.consumeAll ops = base ∧ (base.thr? base.cur).isSome = true ∧ base.blocked ops = none)
    ∧ base.checkOffset 0 0x3000 64 1 64 [0, 1] = none ∧ knownHere base (loadReqs (base.segAddr 0 0x3000) 64) = true
    ∧ base.checkWords 0 1 (on.map strided) = none ∧ knownHere base (words strided fun _ => []) = true
    ∧ base.checkWords 0 1 (on.map indexed) = none ∧ knownHere base (words indexed fun _ => []) = true
    ∧ base.checkOffset 0 0x3000 64 2 64 [0, 1] = none
    ∧ sentHere base whole = true
    ∧ base.checkWords 0 2 (on.map strided) = none ∧ sentHere base (words strided bits) = true
    ∧ base.checkWords 0 2 (on.map indexed) = none ∧ sentHere base (words indexed bits) = true := by
  decide +kernel

/-! ### Witnesses: vectors -/

theorem witness_IntegerLanes :
    (tInt 4 = true ∧ tInt 5 = true ∧ Ready base [.v 1, .v 2] ∧ Ready base [.v 15]) ∧ ((3 : Nat) < 8 ∧ 3 ≠ 4 ∧ 3 ≠ 5 ∧ 12 < 64) := by
  unfold Ready; decide +kernel

theorem witness_FloatLanes : tFlt 0 = true ∧ tFlt 1 = true ∧ Ready base [.v 1, .v 2] ∧ Ready base [.v 1, .v 2, .v 3] ∧ Ready base [.v 0] := by
  unfold Ready; decide +kernel

theorem witness_LaneSelection : tAny 0 = true ∧ tAny 5 = true ∧ tArith 4 = true ∧ Ready base [.v 1, .v 2] ∧ Ready base [.v 3] := by
  unfold Ready; decide +kernel

theorem witness_MaskTransfer :
    (base.thr? base.cur).isSome = true ∧ slotOf base.cur ≠ 0 ∧ (2 : BitVec 3).toNat < 3 ∧ (1 : BitVec 3).toNat < 2
    ∧ Ready base [.s 4] ∧ Ready base [.v 1, .s 2] ∧ Ready base [.v 1, .s 4, .s 2] ∧ ((8 : Nat) ≤ 11 ∧ 11 < 12 ∧ 8 ≤ 15 ∧ 15 < 16) := by
  unfold Ready; decide +kernel

theorem witness_VectorWrite : (base.thr? base.cur).isSome = true ∧ (15 : Nat) < 16 ∧ 0 < 7 ∧ 7 < 8 := by decide +kernel

/-! ### Witnesses: tags, copies, the matrix engine -/

/-- Tags 5 and 9: one set, one in flight. -/
def tagged : State := (withS (withS base 10 0x220) 11 0).modMe fun t =>
  { t with tags := [(5, { set := true }), (9, { inflight := 1 })] }

theorem witness_TagInstructions :
    (let t := tagged.consumeAll [.s 10, .s 11, .d 5]
     Ready tagged [.s 10, .s 11, .d 5] ∧ FirstTag (t.rS 11 ++ t.rS 10) (fun j => (t.me.tagOf j).set = true) 5)
    ∧ (let s := withS tagged 10 0x200
       let t := s.consumeAll [.s 10, .s 11, .d 5]
       Ready s [.s 10, .s 11, .d 5] ∧ NoTag (t.rS 11 ++ t.rS 10) (fun j => (t.me.tagOf j).set = true)
       ∧ ¬ NoTag (t.rS 11 ++ t.rS 10) (fun j => (t.me.tagOf j).inflight ≠ 0))
    ∧ (let s := withS tagged 10 0x40
       let t := s.consumeAll [.s 10, .s 11]
       Ready s [.s 10, .s 11] ∧ NoTag (t.rS 11 ++ t.rS 10) (fun j => (t.me.tagOf j).set = true)
       ∧ NoTag (t.rS 11 ++ t.rS 10) (fun j => (t.me.tagOf j).inflight ≠ 0))
    ∧ (let s := withS tagged 10 0x20
       let t := s.consumeAll [.s 10, .s 11]
       Ready s [.s 10, .s 11] ∧ NoTag (t.rS 11 ++ t.rS 10) (fun j => (t.me.tagOf j).inflight ≠ 0)
       ∧ ¬ NoTag (t.rS 11 ++ t.rS 10) (fun j => (t.me.tagOf j).set = true))
    ∧ Ready tagged [.s 5, .d 4] := by
  unfold Ready FirstTag NoTag; decide +kernel

theorem witness_TagCounting :
    (base.thr? base.cur).isSome = true ∧ base.cur < 131072 ∧ ({ err := true } : TagSt).err = true ∧ ({} : TagSt).inflight = 0 := by
  decide +kernel

/-- Records in sg0 at 0x3000 (strided), 0x3040 (shape), 0x3080 (near memory) and 0x30C0 (trigger), and a count of 2. -/
def records : State :=
  let w : State → Nat → List Nat → State := fun s o ws => s.sramWrite 0 o (ws.flatMap (leBytes 4))
  let s := w base 0x3000 [0x5000, 64, 2, 128, 0xFFFFFF80, 0, 0, 0]
  let s := w s 0x3040 [0x5000, 64, 0x3060, 0x40000000, 4, 0, 0, 0]
  let s := w s 0x3060 [2]
  let s := w s 0x3080 [0x105, 0x3064, 7, 0, 0, 0, 0, 0]
  w s 0x30C0 [2, 3, 0x80, 0, 0, 0, 0, 0]

/-- Its registers: a control word of 4 blocks on tag 5 with segments 0, and the places of the records. -/
def copier : State := (List.zip [10, 11, 12, 13, 14, 15] [0x40005, 0x6000, 0x7000, 0x3000, 0x3040, 0x3080]).foldl
  (fun s p => withS s p.1 (BitVec.ofNat 32 p.2)) records

def recordOk (r : RecRes) : Bool := match r with
  | .ok _ => true
  | .stop _ => false
def recordBytes (r : RecRes) : List Byte := match r with
  | .ok bs => bs
  | .stop _ => []
def checkedOk {α : Type} : Checked α → Bool
  | .ok _ => true
  | .stop _ => false

def counted (c : Checked Word) : Word := match c with
  | .ok n => n
  | .stop _ => 0

theorem witness_CopyIssue :
    (let t := copier.consumeAll [.s 10, .s 11, .s 12]
     Ready copier [.s 10, .s 11, .s 12] ∧ t.rS 10 = 0x40005 ∧ t.issueWait 5 = none ∧ t.footprint 0 (t.rS 11).toNat 256 2 = none
      ∧ t.footprint 0 (t.rS 12).toNat 256 1 = none)
    ∧ (let t := copier.consumeAll [.s 10, .s 11, .s 13]
       Ready copier [.s 10, .s 11, .s 13] ∧ recordOk (t.readRecord (t.rS 13).toNat 32) = true
        ∧ checkedOk (t.planStride (t.rS 10) 0 0x6000 0x3000 (recordBytes (t.readRecord 0x3000 32))) = true ∧ t.issueWait 5 = none)
    ∧ (let t := copier.consumeAll [.s 10, .s 11, .s 14]
       let bs := recordBytes (t.readRecord (t.rS 14).toNat 32)
       let ca : Addr := BitVec.ofNat 64 (dwordAt bs 8)
       Ready copier [.s 10, .s 11, .s 14] ∧ recordOk (t.readRecord (t.rS 14).toNat 32) = true ∧ wordAt bs 4 % 64 = 0
       ∧ spaceZeros ca.toNat = true ∧ spaceOf ca < 2 ∧ ca.toNat % 4 = 0
       ∧ t.footprint 0 0x6000 (wordAt bs 16 * wordAt bs 4) 2 = none
       ∧ t.footprint 0 (wordAt bs 0) (wordAt bs 16 * wordAt bs 4) 1 = none
       ∧ checkedOk (t.readCount ca) = true ∧ counted (t.readCount ca) = 2 ∧ 2 ≤ wordAt bs 16 ∧ t.issueWait 5 = none) := by
  unfold Ready; decide +kernel

/-! Tables in stacked DRAM under key slot 1: page 1 of the global space leads to physical page 16. -/

def putQ (s : State) (pa v : Nat) : State := s.writeLoc 0 0 (.phys .stack pa 1) (leBytes 8 v)

/-- A key slot of partition 0, the tables, a descriptor table at 0x10000, the vector entry 0x3F, and TVEC. -/
def mapped : State :=
  let s := { copier with
    pkg := { copier.pkg with keys := [(1, { a := true, part := 0, usable := true })] }
    storeys := [(0, { ptrootL := 0x10000, ptrootH := 0x100000, sdtb := 0x10003 })] }
  let s := putQ (putQ (putQ s 0x10000 0x20001) 0x20000 0x30001) 0x30008 (2 ^ 52 + 0x10000F)
  let s := putQ (putQ s 0x100000 (2 ^ 62)) 0x100008 (0x10000 + 5 * 2 ^ 32 + 2 ^ 55)
  let s := s.sramWrite 0 0x1F8 (leBytes 8 (2 ^ 63 + 2 ^ 56 + 0x4000))
  s.modMe fun t => { t with sys := { t.sys with tvec := 0x4000, sdtL := 0x10003 } }

/-- The same with the page's translation in the TLB. -/
def mappedTlb : State := mapped.fillL1 0 (tlbOf 0 1 (2 ^ 52 + 0x10002F) false)

def vecClass (v : VecRes) : Nat := match v with
  | .usable _ cls _ _ _ => cls
  | _ => 9
def vecUsable (v : VecRes) : Bool := match v with
  | .usable _ _ _ _ _ => true
  | _ => false

def placeOk (c : Checked (State × Loc)) : Bool := match c with
  | .ok (_, l) => l = .sram 0 0x3060
  | .stop _ => false
def placed (c : Checked (State × Loc)) (s : State) : State := match c with
  | .ok (u, _) => u
  | .stop _ => s

/-- The same thread with sg3 over the global space. -/
def globals : State := mappedTlb.modMe fun t =>
  { t with segs := t.segs.put 3 { base := 0, limit := 0x30000, rights := 63, scope := .pkg } }

theorem witness_CountersNearMemory :
    (let s := withS copier 1 0x3060
     let t := s.consumeAll [.s 1, .s 5, .d 4]
     let u := placed (t.counterPlace 0 (t.rS 1).toNat) t
     Ready s [.s 1, .s 5, .d 4] ∧ t.me.ans = none ∧ placeOk (t.counterPlace 0 (t.rS 1).toNat) = true
     ∧ u.counterOwn (.sram 0 0x3060) = 2 ∧ (t.rS 5).toNat ≤ 2)
    ∧ (let s := withS copier 1 0x3060
       let t := s.consumeAll [.s 1, .s 2, .d 4]
       let u := placed (t.counterPlace 0 (t.rS 1).toNat) t
       Ready s [.s 1, .s 2, .d 4] ∧ t.me.ans = none ∧ placeOk (t.counterPlace 0 (t.rS 1).toNat) = true
       ∧ u.counterOwn (.sram 0 0x3060) = 2 ∧ 2 < (t.rS 2).toNat ∧ t.dryWord t.myPart (.sram 0 0x3060) = false
       ∧ u.watchFull (.sram 0 0x3060) = false)
    ∧ (let s := withS (withS copier 1 0x3060) 10 0x30C0
       let t := s.consumeAll [.s 10, .s 1, .s 5]
       let u := placed (t.counterPlace 0 (t.rS 1).toNat) t
       let bs := recordBytes (u.readRecord (t.rS 10).toNat 32)
       Ready s [.s 10, .s 1, .s 5] ∧ placeOk (t.counterPlace 0 (t.rS 1).toNat) = true
       ∧ recordOk (u.readRecord (t.rS 10).toNat 32) = true ∧ wordAt bs 0 = 2 ∧ wordAt bs 24 % 4 ≠ 3
       ∧ u.relWait = none ∧ u.me.armed < 16 ∧ u.watchFull (.sram 0 0x3060) = false)
    ∧ (let s := withS (withS globals 1 0x10000) 2 0x100
       let t := s.consumeAll [.s 15, .s 1, .s 2]
       let bs := recordBytes (t.readRecord (t.rS 15).toNat 32)
       Ready s [.s 15, .s 1, .s 2] ∧ (t.rS 1).toNat % 256 = 0 ∧ (t.rS 2).toNat % 256 = 0
       ∧ t.regionCheck 3 (t.rS 1).toNat (t.rS 2).toNat = none
       ∧ recordOk (t.readRecord (t.rS 15).toNat 32) = true ∧ wordAt bs 0 / 256 % 4 = 1
       ∧ t.checkOffset 0 (wordAt bs 4) 4 2 4 [0, 1] = none ∧ t.issueWait 5 = none) := by
  unfold Ready; decide +kernel

/-- A format word in s10; tiles at 0x10000 and 0x20000 in s11 and s12. -/
def tiles : State := withS (withS (withS base 10 0x11) 11 0x10000) 12 0x20000

/-- An entry of the matrix queue. -/
def mxHead : MxEntry := { slot := 3, op := .mma, latch := 0, fmt := 0x11, super := 0, c := 0x20000, a := some 0x10000 }

theorem witness_MatrixIssue :
    (Ready tiles [.s 10] ∧ fmtLegal ((tiles.consumeAll [.s 10]).rS 10) = true
      ∧ Ready base [.s 4] ∧ fmtLegal ((base.consumeAll [.s 4]).rS 4) = false)
    ∧ (let t := tiles.consumeAll [.s 11]
       Ready tiles [.s 11] ∧ t.tileCheck (t.rS 11).toNat (bBytes t.me.fmt) 1 = none
        ∧ (t.core t.myCore).movingBytes (addrOff (t.segAddr 0 (t.rS 11).toNat)) (bBytes t.me.fmt) = false
        ∧ (t.core t.myCore).mx.latch 1 = .empty)
    ∧ (let t := tiles.consumeAll [.s 12]
       let co := addrOff (t.segAddr 0 (t.rS 12).toNat)
       Ready tiles [.s 12] ∧ t.tileCheck (t.rS 12).toNat 1024 3 = none ∧ (t.core t.myCore).movingBytes co 1024 = false
        ∧ (t.tileOwn (tileParts co 1024)).isSome = true)
    ∧ (let t := tiles.consumeAll [.s 12, .s 11]
       let co := addrOff (t.segAddr 0 (t.rS 12).toNat)
       Ready tiles [.s 12, .s 11] ∧ (5 : BitVec 3).getLsbD 1 = false
        ∧ t.tileCheck (t.rS 12).toNat 1024 3 = none ∧ (t.core t.myCore).movingBytes co 1024 = false
        ∧ t.tileCheck (t.rS 11).toNat (aBytes t.me.fmt) 1 = none
        ∧ (t.core t.myCore).movingBytes (addrOff (t.segAddr 0 (t.rS 11).toNat)) (aBytes t.me.fmt) = false
        ∧ (t.tileOwn (tileParts co 1024)).any (fun u => (u.core u.myCore).mx.queue.length < 2) = true)
    ∧ (let s := tiles.modMx 0 fun x => { x with queue := [mxHead, mxHead] }
       let t := s.consumeAll [.s 12]
       Ready s [.s 12] ∧ (2 : BitVec 3).getLsbD 1 = true ∧ t.tileCheck (t.rS 12).toNat 1024 3 = none
        ∧ (t.tileOwn (tileParts (addrOff (t.segAddr 0 (t.rS 12).toNat)) 1024)).any (fun u => 2 ≤ (u.core u.myCore).mx.queue.length) = true)
    ∧ Ready tiles [] ∧ ((tiles.consumeAll []).core 0).mx.queue.length < 2 := by unfold Ready; decide +kernel

/-- A core whose queue holds one entry and whose latch 0 is full. -/
def mxState (e : MxEntry) (m : Matrix) : State :=
  { inSlot 3 thread with cores := [(0, { mx := { m with queue := [e], latch0 := .full ⟨1, []⟩ } })], cycle := 40 }

def handing (e : MxEntry) : State := (mxState e {}).modCore 1 fun c => { c with mx := { c.mx with latch0 := .full ⟨1, []⟩ } }

theorem witness_MatrixEvents :
    (let s := mxState mxHead {}
     (s.core 0).mx.latch mxHead.latch = .full ⟨1, []⟩ ∧ (s.core 0).mx.queue.find? (fun x => !x.running) = some mxHead
     ∧ mxHead.join ≤ s.cycle ∧ s.mxReady (s.core 0).mx = true ∧ (s.core 0).mx.loaded mxHead.latch ≤ s.cycle
     ∧ mxHead.op ≠ .mbpass ∧ 1 = fmtB mxHead.fmt ∧ mxHead.a = some 0x10000)
    ∧ (let e := { mxHead with fmt := 0x22 }
       let s := mxState e {}
       (s.core 0).mx.latch e.latch = .full ⟨1, []⟩ ∧ (s.core 0).mx.queue.find? (fun x => !x.running) = some e ∧ 1 ≠ fmtB e.fmt)
    ∧ (let e := { mxHead with running := true }
       let s := mxState e {}
       (s.core 0).mx.latch e.latch = .full ⟨1, []⟩ ∧ (s.core 0).mx.queue.find? (fun x => x.running && !x.written) = some e
       ∧ e.start + 17 ≤ s.cycle ∧ e.op = .mma)
    ∧ (let e := { mxHead with running := true, written := true, op := .mmarb }
       let s := { handing e with acts := [(7, { flows := [], kind := .handoff 0 1 3 0 12 ⟨1, []⟩ })] }
       s.ready? 7 = some (.handoff 0 1 3 0 12 ⟨1, []⟩) ∧ 12 ≤ s.cycle ∧ s.coreWiping 1 = false ∧ (s.core 1).mx.buf 0 = none
       ∧ (s.core 0).mx.queue.find? (fun x => x.slot == 3 && x.written) = some e ∧ e.latch < 2 ∧ (s.core 0).mx.buf e.latch = none
       ∧ (s.core 1).mx.latch 0 = .full ⟨1, []⟩) := by decide +kernel

/-! ### Witnesses: privilege, system registers, traps -/

/-- The same thread in user mode. -/
def user : State := base.modMe fun t => { t with sys := { t.sys with tstatus := 0 } }

theorem witness_PrivilegeAndCalls :
    ((user.thr? user.cur).isSome = true ∧ user.me.userMode = true ∧ supervisorOnly .tret = true
      ∧ supervisorOnly (.syswr 3 0x105) = true ∧ supervisorOnly (.segld 1 2) = true ∧ supervisorOnly (.halldefRetire 1 2 3) = true)
    ∧ (base.thr? base.cur).isSome = true ∧ base.me.userMode = false ∧ base.debugOk = true := by decide +kernel

theorem witness_SystemRegisters :
    sysPriv 0x00F = false ∧ user.me.userMode = true ∧ base.me.userMode = false ∧ Ready base [.d 5] ∧ Ready base [.s 4]
    ∧ (0x00F : BitVec 12) ≠ 0x018 ∧ Ready user [.s 4] := by unfold Ready; decide +kernel

/-- A usable vector entry, what it leads to, and its absence. -/
def vecState (v : VecRes) : Option (State × Seg × Word) := match v with
  | .usable s _ _ e g => some (s, g, e)
  | _ => none
def vecUnusable (v : VecRes) : Bool := match v with
  | .unusable _ => true
  | _ => false

theorem witness_TrapEntry :
    ((mapped.thr? 3).isSome = true ∧ (mapped.thr 3).trapActive = false
      ∧ (vecState (mapped.vecEntry (coreOf 3) 0x3F)).isSome = true ∧ 31 < 32)
    ∧ (vecUnusable (base.vecEntry (coreOf 3) 0x3F) = true ∧ (base.thr? 3).isSome = true)
    ∧ ((base.modMe fun t => { t with trapActive := true }).thr 3).trapActive = true := by decide +kernel

theorem witness_TrapThenReturn :
    (mapped.thr? 3).isSome = true ∧ (mapped.thr 3).trapActive = false
    ∧ (vecState (mapped.vecEntry (coreOf 3) 0x3F)).isSome = true := by decide +kernel

/-- The bytes of a valid descriptor. -/
def descBytes : List Byte := leBytes 8 (2 ^ 62) ++ leBytes 8 (0x10000 + 5 * 2 ^ 32 + 2 ^ 55)

/-- The thread that has been answered its record for descriptor `i`, whose number stands in s4. -/
def descRead (i : Nat) (bs : List Byte) : State :=
  let s := withS mappedTlb 4 (BitVec.ofNat 32 i)
  s.modMe fun t => { t with recs := [(BitVec.ofNat 64 (t.sdtBase + 16 * i), bs)] }

theorem witness_SegmentRegisters :
    (let t := mappedTlb.consumeAll [.s 4]
     Ready mappedTlb [.s 4] ∧ mappedTlb.me.userMode = false ∧ t.me.sdtLast < (t.rS 4).toNat)
    ∧ (let s := descRead 0 descBytes
       let t := s.consumeAll [.s 4]
       let va : Addr := BitVec.ofNat 64 (t.me.sdtBase + 16 * (t.rS 4).toNat)
       Ready s [.s 4] ∧ (t.rS 4).toNat ≤ t.me.sdtLast ∧ spaceZeros va.toNat = true ∧ recordOk (t.recordFrom {} va 16) = true
       ∧ recordBytes (t.recordFrom {} va 16) = descBytes ∧ descValid (leNat descBytes) = true ∧ descSup (leNat descBytes) = false)
    ∧ (let s := descRead 3 (List.replicate 16 0)
       let t := s.consumeAll [.s 4]
       let va : Addr := BitVec.ofNat 64 (t.me.sdtBase + 16 * (t.rS 4).toNat)
       Ready s [.s 4] ∧ (t.rS 4).toNat ≤ t.me.sdtLast ∧ spaceZeros va.toNat = true ∧ recordOk (t.recordFrom {} va 16) = true
       ∧ descValid (leNat (recordBytes (t.recordFrom {} va 16))) = false)
    ∧ Ready mappedTlb [.d 5] := by unfold Ready; decide +kernel

/-! ### Witnesses: messages, tasks, formes -/

/-- A message of type 0x40 to core 1 in s10, of type 62 in s11, and to a core of another partition in s12; an exposed
register of slot 4 of core 1 in s13. -/
def sender : State := withS (withS (withS (withS base 10 0x140) 11 0x13E) 12 (0x40 + 256 * 64)) 13 (2 ^ 19 + 4 * 256 + 16 * 4 + 1)

theorem witness_MessagesAndPresence :
    (let t := sender.consumeAll [.s 10, .s 1, .s 2]
     Ready sender [.s 10, .s 1, .s 2] ∧ (t.rS 10).toNat % 256 = 64 ∧ (t.rS 10).toNat / 256 % 8192 = 1 ∧ t.inMyPart 1 = true
      ∧ t.unackWait = none)
    ∧ (Ready sender [.s 11, .s 1, .s 2] ∧ ((sender.consumeAll [.s 11, .s 1, .s 2]).rS 11).toNat % 256 = 62)
    ∧ (let t := sender.consumeAll [.s 12, .s 1, .s 2]
       Ready sender [.s 12, .s 1, .s 2] ∧ (t.rS 12).toNat % 256 = 64 ∧ t.inMyPart ((t.rS 12).toNat / 256 % 8192) = false)
    ∧ (let t := sender.consumeAll [.s 13, .s 2]
       Ready sender [.s 13, .s 2] ∧ t.inMyPart ((t.rS 13).extractLsb' 19 13).toNat = true ∧ t.unackWait = none)
    ∧ (let t := sender.consumeAll [.s 13, .v 1]
       Ready sender [.s 13, .v 1] ∧ t.inMyPart ((t.rS 13).extractLsb' 19 13).toNat = true ∧ t.unackWait = none)
    ∧ (let s := withS sender 13 (64 * 2 ^ 19)
       Ready s [.s 13, .s 2] ∧ (s.consumeAll [.s 13, .s 2]).inMyPart (((s.consumeAll [.s 13, .s 2]).rS 13).extractLsb' 19 13).toNat = false)
    ∧ (slotOf sender.cur ≠ 0 ∧ Ready sender [.d 5] ∧ sender.me.ans = none ∧ sender.exposedEmpty = 0)
    ∧ (let s := sender.emptyS 16
       s.me.ans = none ∧ s.exposedEmpty ≠ 0 ∧ Ready s [.d 5])
    ∧ (sender.modMe fun t => { t with ans := some [1] }).me.ans = some [1] := by unfold Ready; decide +kernel

/-- A launch record with 8 items on core 0, and the header of its kernel. -/
def record0 : Record :=
  { code := 0x20000, args := 0, itemBase := 100, itemCnt := 8, smask := 1, fmask := 15, prio := 3, pg := false, flat := false
    finish := true, succ := [], stages := [], depCnt := 1, wdog := 1, depAddr := localAddr 0 0x800, event := 0, pgt := 0 }
def header0 : Header :=
  { pro := true, codeSz := 0x1000, entry := 0x100, proEnt := 0x200, tplSz := 0x400, tplOff := 0, dataOff := 0, volS := (255, 255)
    volV := (255, 255), shNeed := 0, prio := 3, segs := [(1, segTcm)], halls := [], sketches := [] }
def task0 : Task := { part := 0, hseq := 5, host := false, record := record0, hdr := header0, prio := 3, count := 8 }

/-- An impression of task 0 in slot 3, its forme, and a forme area of 64 granules. -/
def forme0 : Forme := { task := 0, map := (List.range 4).map fun g => (g, 1024 + g), record := [1030, 1031] }
def composed : State :=
  let s := inSlot 3 { thread with kind := .impression 0 0 103 0 0 }
  { s with
    cores := [(0, { shBase := 1024, shSize := 64, formes := [(0, forme0)], taken := [1024, 1025, 1026, 1027, 1030, 1031] })]
    pkg := { s.pkg with tasks := [(0, { task0 with forme := some forme0, compose := .ready })], nextTask := 1 } }

def admitOk (r : Admit) : Bool := match r with
  | .ok _ => true
  | _ => false

/-- A record of a task without a dependence at 0x3000 of the TCM: all zero but one item on no core. -/
theorem witness_TaskInstructions :
    (let t := base.consumeAll [.s 1]
     Ready base [.s 1] ∧ t.relWait = none ∧ t.checkOffset 0 (t.rS 1).toNat 256 1 64 [0, 1] = none
      ∧ t.pkg.tasks.length < 4096 ∧ recordOk (t.sendAll.recordAt (t.rS 1).toNat 256) = true
      ∧ admitOk (t.sendAll.admitRecord t.myPart 0 false (recordBytes (t.sendAll.recordAt (t.rS 1).toNat 256))) = true)
    ∧ (let s := withS base 10 0x80800
       let t := s.consumeAll [.s 10, .s 2]
       Ready s [.s 10, .s 2] ∧ (t.rS 10).toNat % 4 = 0 ∧ (t.rS 10).toNat / 4096 % 128 = 0 ∧ (t.rS 2).toNat % 65536 ≠ 0
       ∧ t.inMyPart ((t.rS 10).toNat / 524288) = true ∧ t.relWait = none)
    ∧ (let s := withS base 10 (64 * 0x80000)
       let t := s.consumeAll [.s 10, .s 2]
       Ready s [.s 10, .s 2] ∧ (t.rS 10).toNat % 4 = 0 ∧ (t.rS 10).toNat / 4096 % 128 = 0
       ∧ t.inMyPart ((t.rS 10).toNat / 524288) = false)
    ∧ (let t := base.consumeAll [.s 4, .s 2]
       Ready base [.s 4, .s 2] ∧ (t.rS 4).toNat % 4 = 0 ∧ (t.rS 4).toNat / 4096 % 128 ≠ 0)
    ∧ (Ready base [.s 2, .s 2] ∧ ((base.consumeAll [.s 2, .s 2]).rS 2).toNat % 4 ≠ 0)
    ∧ (let t := base.consumeAll [.s 1, .s 2]
       base.cur < 131072 ∧ Ready base [.s 1, .s 2] ∧ OwnTcm t 0 (t.rS 1).toNat 4 11 4 [0, 1] 0x3000 ∧ t.relWait = none) := by
  unfold Ready OwnTcm; decide +kernel

theorem witness_FormeInstructions :
    (let s := composed.modMe fun t => { t with kind := .composing 0 }
     Ready s [] ∧ s.me.kind = .composing 0 ∧ s.quiet s.cur s.me = true
     ∧ (s.core s.myCore).formes.look (formeKey 0) = some forme0 ∧ (s.task? 0).isSome = true)
    ∧ (let s := withS composed 10 0x40
       let t := s.consumeAll [.s 2, .s 10]
       let q := s.consumeAll [.v 1, .s 10]
       Ready s [.s 2, .s 10] ∧ t.formeHere = some (forme0, 0x400) ∧ t.relWait = none ∧ (t.rS 10).toNat < 0x400 ∧ (t.rS 10).toNat % 4 = 0
       ∧ Ready s [.v 1, .s 10] ∧ q.formeHere = some (forme0, 0x400) ∧ q.relWait = none ∧ (q.rS 10).toNat < 0x400 ∧ (q.rS 10).toNat % 64 = 0)
    ∧ (let t := composed.consumeAll [.s 2, .s 1]
       Ready composed [.s 2, .s 1] ∧ t.me.kind = .impression 0 0 103 0 0 ∧ (t.rS 1).toNat % 4 = 0 ∧ t.rS 2 ≠ 0 ∧ t.relWait = none
       ∧ (t.sendAll.nestForme 0 103 0 (t.rS 2).toNat (t.rS 1)).isSome = true)
    ∧ (Ready composed [.s 0, .s 1] ∧ (composed.consumeAll [.s 0, .s 1]).rS 0 = 0)
    ∧ (Ready composed [] ∧ composed.me.nested = [] ∧ composed.yields = false ∧ Ready composed [.d 5])
    ∧ (let s := composed.modMe fun t => { t with nested := [3] }
       Ready s [] ∧ s.me.nested ≠ []) := by unfold Ready; decide +kernel

theorem witness_ExitRetires :
    let x := base.modMe fun x => { x with exiting := true }
    let u := (x.withdrawTriggers base.cur).flushWcb base.myCore fun e => e.slot == base.cur
    let v := u.flushWcb base.myCore fun _ => true
    Ready base [] ∧ base.me.nested = [] ∧ x.outstanding base.cur (fun r => r.mode == .wait) = []
    ∧ u.quiet base.cur (u.thr base.cur) = true ∧ (v.thr base.cur).kind = .handler
    ∧ (v.threads.map Prod.fst).Nodup := by unfold Ready; decide +kernel

/-! ### Witnesses: the Gallery, sketches, landings, groups, experts -/

/-- Halls 5 and 7: partition 0's, homed by field 0, and partition 1's; hall 6 is busy with a waiter's tuple. -/
def hall0 : Hall := { part := 0, sys := false, homef := 1, group := 0, heapBase := 0, heapSize := 4 }
def tuple0 : Tuple := { hall := 6, f := [1, 2, 3, 4], len := 0, fmt := 0, seq := 0, payload := .none }
def halls : State :=
  let s := withS (withS (withS base 10 0x50005) 11 0x70005) 12 0x3000
  let s := { s with pkg := { s.pkg with halls := [(5, hall0), (6, hall0), (7, { hall0 with part := 1 })] } }
  let s := s.modSlice 0 fun x => { x with tuples := [tuple0] }
  s.modMe fun t => { t with regs := { t.regs with v := [(1, ofLanes 32 [3, 4, 5, 6, 0x100, 0]), (2, ofLanes 32 [0, 0, 0, 0, 1]),
    (9, ofLanes 32 [3, 0, 0, 0, 0x100, 0, 0, 0, 0xFFFFFFFF, 0, 0, 0]), (4, 0)] } }

theorem witness_PutInstructions :
    (let t := halls.consumeAll [.v 1, .s 12, .s 10]
     let cw := t.rS 10
     Ready halls [.v 1, .s 12, .s 10] ∧ keyBad (t.rV 1) = false ∧ (t.me.tagOf (tagOfCw cw)).inflight < 255
      ∧ t.hallFor t.myPart (hallOf cw) = some hall0 ∧ t.relWait = none
      ∧ t.checkAccess (segOfCw cw) (t.rS 12).toNat (vlane (t.rV 1) 4) 1 1 [1] = none
      ∧ addrCore (t.segAddr (segOfCw cw) (t.rS 12).toNat) = t.myCore ∧ (t.segAddr (segOfCw cw) (t.rS 12).toNat).toNat % 64 = 0)
    ∧ (Ready halls [.v 2, .s 12, .s 10] ∧ keyBad ((halls.consumeAll [.v 2, .s 12, .s 10]).rV 2) = true)
    ∧ (let t := halls.consumeAll [.v 1, .s 12, .s 11]
       Ready halls [.v 1, .s 12, .s 11] ∧ keyBad (t.rV 1) = false ∧ (t.me.tagOf (tagOfCw (t.rS 11))).inflight < 255
       ∧ t.hallFor t.myPart (hallOf (t.rS 11)) = none)
    ∧ (let t := halls.consumeAll [.v 4, .s 12, .s 10]
       Ready halls [.v 4, .s 12, .s 10] ∧ vlane (t.rV 4) 4 = 0 ∧ keyBad (t.rV 4) = false) := by unfold Ready; decide +kernel

theorem witness_PutInstructions_region :
    let s := (withS globals 12 0x10000).modMe fun t => { t with regs := { t.regs with v := [(1, ofLanes 32 [3, 4, 5, 6, 0x100, 0])] } }
    let s := { withS s 10 0x50305 with pkg := { s.pkg with halls := [(5, hall0)] } }
    let t := s.consumeAll [.v 1, .s 12, .s 10]
    let addr := t.segAddr (segOfCw (t.rS 10)) (t.rS 12).toNat
    Ready s [.v 1, .s 12, .s 10] ∧ keyBad (t.rV 1) = false ∧ t.hallFor t.myPart (hallOf (t.rS 10)) = some hall0 ∧ t.relWait = none
    ∧ t.checkAccess (segOfCw (t.rS 10)) (t.rS 12).toNat (vlane (t.rV 1) 4) 1 1 [0] = none ∧ addr.toNat % 256 = 0
    ∧ (t.putgPages addr (fieldOf addr 0 48) (regionPages (fieldOf addr 0 48) (vlane (t.rV 1) 4))).isNone = true := by
  unfold Ready; decide +kernel

/-- The record of the continuation mode at 0x3000: a destination at 0x6000, a mailbox at 0x5000, a zero counter. -/
def continued : State :=
  let s := halls.sramWrite 0 0x3000 (leBytes 8 (localAddr 0 0x6000) ++ leBytes 8 (localAddr 0 0x5000) ++ List.replicate 16 0)
  s

theorem witness_GetInstructions :
    (let t := halls.consumeAll [.v 9, .s 12, .s 10]
     let cw := t.rS 10
     let addr := t.segAddr (segOfCw cw) (t.rS 12).toNat
     Ready halls [.v 9, .s 12, .s 10] ∧ tplBad (t.rV 9) = false ∧ t.hallFor t.myPart (hallOf cw) = some hall0
      ∧ homeExact hall0.homef (t.rV 9) = true ∧ (t.me.tagOf (tagOfCw cw)).inflight < 255 ∧ (1 : BitVec 3).toNat < 2
      ∧ t.checkAccess (segOfCw cw) (t.rS 12).toNat (vlane (t.rV 9) 4) 2 64 [0, 1] = none
      ∧ t.windowHit t.myPart (BitVec.ofNat 64 addr.toNat) (vlane (t.rV 9) 4) = none)
    ∧ (Ready halls [.v 2, .s 12, .s 10] ∧ tplBad ((halls.consumeAll [.v 2, .s 12, .s 10]).rV 2) = true)
    ∧ (let t := halls.consumeAll [.v 9, .s 12, .s 11]
       Ready halls [.v 9, .s 12, .s 11] ∧ tplBad (t.rV 9) = false ∧ t.hallFor t.myPart (hallOf (t.rS 11)) = none
       ∧ (t.me.tagOf (tagOfCw (t.rS 11))).inflight < 255)
    ∧ (let s := { halls with pkg := { halls.pkg with halls := [(5, { hall0 with homef := 2 })] } }
       let t := s.consumeAll [.v 9, .s 12, .s 10]
       Ready s [.v 9, .s 12, .s 10] ∧ tplBad (t.rV 9) = false ∧ t.hallFor t.myPart (hallOf (t.rS 10)) = some { hall0 with homef := 2 }
       ∧ homeExact 2 (t.rV 9) = false)
    ∧ (let t := continued.consumeAll [.v 9, .s 12, .s 10]
       let cw := t.rS 10
       let bs := recordBytes (t.readRecord (t.rS 12).toNat 32)
       Ready continued [.v 9, .s 12, .s 10] ∧ tplBad (t.rV 9) = false ∧ t.hallFor t.myPart (hallOf cw) = some hall0
       ∧ recordOk (t.readRecord (t.rS 12).toNat 32) = true
       ∧ t.contCheck (segOfCw cw) bs (vlane (t.rV 9) 4) (t.segAddr 0 (t.rS 12).toNat) = none
       ∧ t.windowHit t.myPart (BitVec.ofNat 64 (dwordAt bs 0)) (vlane (t.rV 9) 4) = none) := by unfold Ready; decide +kernel

/-- A range hall 8 whose split copies. -/
def split0 : Split := { m := 0, hi := 9, dest := 3, source := 2, isSrc := true, isDst := false, phase := .copy }
def splitting : State := { halls with pkg := { halls.pkg with halls := [(8, { hall0 with sys := true, split := some split0 })] } }

theorem witness_HallInstructions :
    (let t := halls.consumeAll [.s 10, .d 5]
     Ready halls [.s 10, .d 5] ∧ t.me.ans = none
      ∧ t.outstanding t.cur (fun r => r.hall == hallOf (t.rS 10) && r.tag == tagOfCw (t.rS 10)) = [])
    ∧ (let r : GReq := { op := .take, slot := some 3, fabric := Config.fabricId, part := 0, hall := 5, tmpl := 0, tag := 0, mode := .wait }
       let s := { withS halls 10 0x50000 with acts := [(2, { flows := [], kind := .gal r Config.fabricId 0 })] }
       let t := s.consumeAll [.s 10, .d 5]
       Ready s [.s 10, .d 5] ∧ t.me.ans = none
       ∧ t.outstanding t.cur (fun r => r.hall == hallOf (t.rS 10) && r.tag == tagOfCw (t.rS 10)) ≠ [])
    ∧ (let s := halls.modMe fun t => { t with ans := some [2] }
       Ready s [.s 10, .d 5] ∧ (s.consumeAll [.s 10, .d 5]).me.ans = some [2])
    ∧ (let t := halls.consumeAll [.s 12, .s 0, .d 5]
       ReadySup halls [.s 12, .s 0, .d 5] ∧ t.relWait = none ∧ t.rS 0 = 0 ∧ checkedOk (t.sendAll.hallDefine (t.rS 12).toNat) = true)
    ∧ (ReadySup halls [.s 12, .s 5, .d 4] ∧ (halls.consumeAll [.s 12, .s 5, .d 4]).rS 5 = 1
        ∧ (halls.consumeAll [.s 12, .s 5, .d 4]).relWait = none)
    ∧ (ReadySup halls [.s 12, .s 2, .d 5] ∧ (halls.consumeAll [.s 12, .s 2, .d 5]).rS 2 = 7
        ∧ (halls.consumeAll [.s 12, .s 2, .d 5]).relWait = none)
    ∧ (let t := halls.consumeAll [.s 12, .d 5]
       ReadySup halls [.s 12, .d 5] ∧ recordOk (t.readRecord (t.rS 12).toNat 16) = true)
    ∧ (let s := withS splitting 12 8
       let t := s.consumeAll [.s 12, .d 5]
       ReadySup s [.s 12, .d 5] ∧ (t.hallFor t.myPart ((t.rS 12).toNat % 65536)).map (fun h => h.split) = some (some split0))
    ∧ (let s := withS halls 12 5
       let t := s.consumeAll [.s 12, .d 5]
       ReadySup s [.s 12, .d 5] ∧ (t.hallFor t.myPart ((t.rS 12).toNat % 65536)).map (fun h => h.split) = some none)
    ∧ (65504 ≤ 0xFFE0 ∧ halls.hall? 9 = none ∧ (halls.hall? 7).map (fun h => h.part) = some 1 ∧ halls.myPart = 0
        ∧ halls.hall? 5 = some hall0 ∧ halls.hallBusy 6 none = true ∧ halls.hallBusy 5 none = false
        ∧ (halls.pkg.halls.map Prod.fst).Nodup) := by unfold ReadySup Ready; decide +kernel

theorem witness_TemplateMatch : tuple0.f.length = 4 := by decide

/-- A sketch of 3 rows of 2^4 counters in page 1, attached to slot 1, and its descriptor at 0x3000. -/
def sketch0 : Sketch := { base := 0x10000, depth := 3, log2w := 4, scale := 0, salt := 7, stat := 0x10200 }
def sketched : State := (withS mappedTlb 12 0x3000).modMe fun t =>
  { t with sketches := [(1, sketch0), (2, { sketch0 with salt := 8 }), (3, { sketch0 with base := 0x10004 }), (4, { sketch0 with base := 0x20000 })] }
def described (bs : List Byte) : State := (withS base 12 0x3000).sramWrite 0 0x3000 bs

theorem witness_SketchInstructions :
    (let s := described (leBytes 8 0x10000 ++ leBytes 4 (3 + 4 * 256) ++ leBytes 4 7 ++ leBytes 8 0x10200 ++ leBytes 8 0)
     let t := s.consumeAll [.s 12]
     Ready s [.s 12] ∧ recordOk (t.readRecord (t.rS 12).toNat 32) = true
     ∧ sketchDesc (recordBytes (t.readRecord (t.rS 12).toNat 32)) = some (some sketch0))
    ∧ (let s := described (List.replicate 32 0)
       let t := s.consumeAll [.s 12]
       Ready s [.s 12] ∧ recordOk (t.readRecord (t.rS 12).toNat 32) = true
       ∧ sketchDesc (recordBytes (t.readRecord (t.rS 12).toNat 32)) = some none)
    ∧ (let s := described (List.replicate 32 255)
       let t := s.consumeAll [.s 12]
       recordOk (t.readRecord (t.rS 12).toNat 32) = true ∧ sketchDesc (recordBytes (t.readRecord (t.rS 12).toNat 32)) = none)
    ∧ (let t := sketched.consumeAll [.s 5, .v 1, .v 2]
       Ready sketched [.s 5, .v 1, .v 2] ∧ t.me.sketches.look 7 = none ∧ t.me.sketches.look 1 = some sketch0 ∧ t.unackWait = none
        ∧ (t.me.tagOf ((t.rS 5).toNat % 64)).inflight < 255)
    ∧ (let t := sketched.consumeAll [.v 1]
       Ready sketched [.v 1] ∧ t.me.sketches.look 7 = none ∧ t.me.sketches.look 1 = some sketch0)
    ∧ (Ready sketched [] ∧ sketched.me.sketches.look 7 = none ∧ sketched.me.sketches.look 1 = some sketch0 ∧ sketched.relWait = none)
    ∧ (let q (n : Word) : State := withS sketched 4 n
       let t (n : Word) : State := (q n).consumeAll [.s 4, .d 5]
       Ready (q 9) [.s 4, .d 5] ∧ Ready (q 2) [.s 4, .d 5] ∧ Ready (q 3) [.s 4, .d 5] ∧ Ready (q 4) [.s 4, .d 5] ∧ 8 ≤ ((t 9).rS 4).toNat ∧ (t 9).me.sketches.look 1 = some sketch0
       ∧ (t 2).me.sketches.look ((t 2).rS 4).toNat = some { sketch0 with salt := 8 } ∧ ({ sketch0 with salt := 8 } : Sketch).salt ≠ sketch0.salt
       ∧ (t 3).me.sketches.look ((t 3).rS 4).toNat = some { sketch0 with base := 0x10004 } ∧ 0x10000 ≠ 0x10004
       ∧ 0x10000 < 0x10004 + 4 * sketch0.count ∧ 0x10004 < 0x10000 + 4 * sketch0.count
       ∧ (t 4).me.sketches.look ((t 4).rS 4).toNat = some { sketch0 with base := 0x20000 } ∧ ¬ 0x20000 < 0x10000 + 4 * sketch0.count
       ∧ (t 4).relWait = none)
    ∧ sketch0.log2w ≤ 31 := by unfold Ready; decide +kernel

/-- Landing 3 of partition 0 with a count of 2, its number in s10, and 40 in s11. -/
def landed : State :=
  let s := withS (withS base 10 3) 11 40
  s.modLanding 3 fun _ => { v := true, part := 0, count := 2 }
def landedArr (g : Word) : State := landed.modMe fun t => { t with arrivals := [(3, { arr := true, gen := g })] }
def landedAns (g : Word) : State := landed.modMe fun t => { t with ans := some [g] }

theorem witness_LandingInstructions :
    (let t := landed.consumeAll [.s 10]
     Ready landed [.s 10] ∧ (t.rS 10).toNat ≤ 31 ∧ t.landingMine (t.rS 10).toNat = true ∧ (t.landing 3).count ≠ 0
      ∧ t.me.ans = none ∧ t.relWait = none ∧ (t.me.arrivals.lookD 3 {}).arr = false)
    ∧ (let t := (landedArr 1).consumeAll [.s 10]
       Ready (landedArr 1) [.s 10] ∧ (t.me.arrivals.lookD 3 {}).arr = true ∧ (t.landing 3).seenGen ≠ (t.me.arrivals.lookD 3 {}).gen)
    ∧ (let t := (landedArr 0).consumeAll [.s 10]
       Ready (landedArr 0) [.s 10] ∧ (t.me.arrivals.lookD 3 {}).arr = true ∧ (t.landing 3).seenGen = (t.me.arrivals.lookD 3 {}).gen)
    ∧ (let t := (landedAns 9).consumeAll [.s 10]
       Ready (landedAns 9) [.s 10] ∧ t.me.ans = some [9] ∧ (t.landing 3).seenGen ≠ 9)
    ∧ (let t := (landedAns 0).consumeAll [.s 10]
       Ready (landedAns 0) [.s 10] ∧ t.me.ans = some [0] ∧ (t.landing 3).seenGen = 0)
    ∧ (let t := landed.consumeAll [.s 11]
       Ready landed [.s 11] ∧ 31 < (t.rS 11).toNat ∧ t.me.ans = none)
    ∧ Ready landed [.s 10, .d 5]
    ∧ (({ arrived := 1, count := 2 } : Landing).arrived + 1 = 2 ∧ ({ arrived := 0, count := 2 } : Landing).arrived + 1 ≠ 2) := by
  unfold Ready; decide +kernel

/-- A group's entry at storey 0: one local contributor, no child, no parent. -/
def entry0 : CollEntry := { part := 0, en := true, op := 0, parent := 7, child := 0, sys := false, vec := false, lcnt := 1, ncontrib := 1, words := [] }
def collState (e : CollEntry) (cs : List CollRec) : State :=
  ((withS base 10 3).modStorey 0 fun x => { x with nodes := [(3, { entry := some e })] }).modMe fun t => { t with colls := cs }
def rec0 : CollRec := { group := 3, vec := false, sys := false, ready := true, result := 9 }

/-- The record of entry0 at 0x3000, and its selector in s10. -/
def installing : State := (withS (withS base 10 3) 12 0x3000).sramWrite 0 0x3000
  (leBytes 4 (1 + 7 * 32 + 2 ^ 16) ++ leBytes 4 1 ++ List.replicate 24 0)

theorem witness_CollectiveInstructions :
    (let s := collState entry0 []
     let t := s.consumeAll [.s 10, .s 4]
     let g := (t.rS 10).toNat % 64
     Ready s [.s 10, .s 4] ∧ (t.node false (storeyOf t.myCore) g).entry = some entry0 ∧ entry0.en = true ∧ entry0.part = t.myPart
     ∧ entry0.vec = false ∧ entry0.op ≠ 6 ∧ t.me.colls.find? (fun r => r.group == g) = none ∧ t.me.colls.length < 4 ∧ t.relWait = none)
    ∧ (let e := { entry0 with vec := true }
       let s := collState e []
       let t := s.consumeAll [.s 10, .v 1]
       let g := (t.rS 10).toNat % 64
       Ready s [.s 10, .v 1] ∧ (t.node false (storeyOf t.myCore) g).entry = some e ∧ e.part = t.myPart
       ∧ t.me.colls.find? (fun r => r.group == g) = none ∧ t.me.colls.length < 4 ∧ t.relWait = none)
    ∧ (∀ ready, ready ∈ [true, false] →
        let s := collState entry0 [{ rec0 with ready := ready }]
        let t := s.consumeAll [.s 10, .d 5]
        Ready s [.s 10, .d 5] ∧ t.me.colls.find? (fun r => r.group == (t.rS 10).toNat % 64) = some { rec0 with ready := ready })
    ∧ (∀ ready, ready ∈ [true, false] →
        let s := collState entry0 [{ rec0 with vec := true, ready := ready }]
        let t := s.consumeAll [.s 10]
        Ready s [.s 10] ∧ t.me.colls.find? (fun r => r.group == (t.rS 10).toNat % 64) = some { rec0 with vec := true, ready := ready })
    ∧ (let s := installing
       let t := s.consumeAll [.s 10, .s 12]
       let bs := recordBytes (t.readRecord (t.rS 12).toNat 32)
       let x := parseEntry t.myPart bs
       ReadySup s [.s 10, .s 12] ∧ recordOk (t.readRecord (t.rS 12).toNat 32) = true
       ∧ (t.rS 10).toNat / 65536 = 0 ∧ (t.rS 10).toNat / 64 % 4 = 0 ∧ (t.rS 10).getLsbD 15 = false
       ∧ (t.rS 10).toNat / 256 % 128 = 0 ∧ t.partOfStorey 0 = some t.myPart ∧ (t.node false 0 3).entry = none
       ∧ x.en = true ∧ x.invalid false 0 (wordAt bs 0) = false ∧ t.relWait = none ∧ (t.node false 0 3).busy = false)
    ∧ (let s := withS installing 10 0x43
       let t := s.consumeAll [.s 10, .s 12]
       ReadySup s [.s 10, .s 12] ∧ (t.rS 10).toNat / 64 % 4 ≠ 0 ∧ recordOk (t.readRecord (t.rS 12).toNat 32) = true) := by
  unfold ReadySup Ready; decide +kernel

theorem witness_GateHeapOffer :
    ([(0x3F800000, 1)] : List HeapEntry).length ≤ 2 ∧ (f32.val 0x7FC00000).isNan = true ∧ (f32.val 0x40000000).isNan = false
    ∧ HeapEntry.worse (0x3F800000, 1) (0x40000000, 2) = true ∧ HeapEntry.worse (0x3F800000, 1) (0x3F000000, 2) = false := by
  decide +kernel

/-- A gate heap at 0x3000 with room for 2 and one entry, and the record of a pool at 0x3040. -/
def heap : State :=
  let s := (withS (withS base 10 0x3000) 11 0x40000000).sramWrite 0 0x3000 (leBytes 4 (2 + 256) ++ leBytes 4 0 ++ leBytes 4 0x3F800000 ++ leBytes 4 0)
  withS (withS s 12 0x3040) 13 0

theorem witness_ExpertInstructions :
    (let t := heap.consumeAll [.s 10, .s 11]
     let o := addrOff (t.segAddr 0 (t.rS 10).toNat)
     let word (i : Nat) : Nat := leNat (t.ownBytes (o + 4 * i) 4)
     let old : List HeapEntry := [(word 2, word 3)]
     let new := heapOffer 2 old ((t.rS 11).toNat, 0)
     Ready heap [.s 10, .s 11] ∧ t.checkAccess 0 (t.rS 10).toNat 8 3 1 [1] = none ∧ addrCore (t.segAddr 0 (t.rS 10).toNat) = t.myCore
     ∧ (t.rS 10).toNat % 8 = 0 ∧ (t.core t.myCore).movingBytes o 8 = false
     ∧ word 0 % 32 = 2 ∧ word 0 / 256 % 32 = 1 ∧ word 0 / 65536 % 65536 = 0 ∧ word 0 / 32 % 8 = 0 ∧ word 0 / 8192 % 8 = 0
     ∧ t.checkAccess 0 (t.rS 10).toNat 24 3 1 [1] = none ∧ (t.core t.myCore).movingBytes o 24 = false
     ∧ (State.writeRuns ((o, leBytes 4 (65536 + new.length * 256 + 2)) ::
          (new.zipIdx.filter fun p => old[p.2]? != some p.1).map fun p => (o + 8 + 8 * p.2, leBytes 4 p.1.1 ++ leBytes 4 p.1.2)) t).isSome = true)
    ∧ (let t := heap.consumeAll [.s 13, .s 12]
       ReadySup heap [.s 13, .s 12] ∧ t.me.ans = none ∧ t.relWait = none ∧ fieldOf (t.rS 13) 8 2 ≠ 3
       ∧ recordOk (t.readRecord (t.rS 12).toNat 32) = true ∧ fieldOf (t.rS 13) 10 22 = 0 ∧ fieldOf (t.rS 13) 6 2 = 0)
    ∧ (let s := heap.modMe fun t => { t with ans := some [] }
       ReadySup s [.s 13, .s 12] ∧ (s.consumeAll [.s 13, .s 12]).me.ans = some [])
    ∧ (let s := heap.modMe fun t => { t with ans := some [6, 1, 2] }
       ReadySup s [.s 13, .s 12] ∧ (s.consumeAll [.s 13, .s 12]).me.ans = some [6, 1, 2]) := by unfold ReadySup Ready; decide +kernel

/-! ### Witnesses: events of registers and units -/

theorem witness_RegisterEvents :
    ((base.imagesOf 0).isEmpty = true ∧ (0x10000 : Word).toNat % 131072 ≤ 65536
      ∧ (let s := { base with images := [(0, { slot := 3, thread := {}, block := 0, blocks := 1, saved := true })] }
         (s.imagesOf 0).isEmpty = false))
    ∧ (0x80000000 : Word).getLsbD 31 = true ∧ (0x100 : Word).getLsbD 8 = true ∧ (5 : Word).toNat % 4 = 1 ∧ (2 : Word).toNat % 4 = 2
    ∧ (3 : Word).toNat % 4 = 3 ∧ (1 : Word).getLsbD 2 = false ∧ (4 : Word).getLsbD 0 = false ∧ (0x40000000 : Word).getLsbD 30 = true
    ∧ ((base.core 0).formes = [] ∧ 16 ≤ (0x400010 : Word).toNat % 2048
        ∧ ((0x400010 : Word).toNat % 2048 + (0x400010 : Word).toNat / 65536 % 2048) * 256 ≤ (base.core 0).tcmSize)
    ∧ (1 : Word).toNat % 4 ≠ (base.core 0).lcsplit
    ∧ ((base.modCore 0 fun c => { c with moving := [(0, 16, 5)] }).core 0).moving = (0, 16, 5) :: []
        ∧ (((base.sramClear 0 0 16).memory.syncQ.keys).all fun w => decide (w < wordNo 0 0) || decide (wordNo 0 16 ≤ w)) = true
    ∧ ((inSlot 0 thread).thr? (16 * 0)).isSome = true := by decide +kernel

/-- A page that waits in storey 0, a page that migrates, and a leaf of stack class. -/
def pending0 : Pending := { page := 5, acc := .read, flight := 0 }
def units : State := mapped.modStorey 0 fun x => { x with pending := [pending0], buffer := [] }

theorem witness_SystemUnitEvents :
    ((landed.landing 3).v = true ∧ landed.partOfStorey 0 = some (landed.landing 3).part ∧ (landed.landing 3).arrived = 0
      ∧ (5 : Word).toNat % 262144 ≤ 131072)
    ∧ ((base.modSlice 2 fun x => { x with wb := true }).slice 2).wb = true
    ∧ ((base.modSlice 2 fun x => { x with stagedK := 2 }).domainBad = true ∧ base.domainBad = false)
    ∧ ((base.modStorey 0 fun x => { x with buffer := [pending0] }).storey 0).buffer = [pending0]
    ∧ (units.pendingPage 0 5 = some pending0 ∧ pending0.faulted = false
        ∧ units.walk 0 ((units.partOfStorey 0).getD 16) (5 * 65536) = .absent ∧ (units.storey 0).buffer = [])
    ∧ (let s := { base with cycle := 2 ^ 24, pkg := { base.pkg with hot := [(5, [4])] } }
       s.pkg.hotEpoch < s.cycle / 2 ^ 24 ∧ s.pkg.hot.look 5 = some [4])
    ∧ (mapped.walk (mapped.partStorey 0) 0 (1 * 65536) = .leaf 0x30008 (2 ^ 52 + 0x10000F) false
        ∧ pteClass (2 ^ 52 + 0x10000F) = .stack ∧ fld (2 ^ 52 + 0x10000F) 6 1 = 0
        ∧ (mapped.pkg.migrations.any fun m => m.part == 0 && m.page == 1) = false)
    ∧ (let m : Migration := { part := 0, page := 1, src := 16, dest := 32, copied := 64 }
       let s (m : Migration) : State := { base with pkg := { base.pkg with migrations := [m] } }
       (s m).pkg.migrations.find? (fun x => x.part == 0 && x.page == 1) = some m ∧ 64 ≤ m.copied ∧ m.marked = []
       ∧ (s { m with copied := 3 }).pkg.migrations.find? (fun x => x.part == 0 && x.page == 1) = some { m with copied := 3 } ∧ 3 < 64) := by decide +kernel

/-! ### Witnesses: the host link -/

/-- A doorbell of partition 0 on its launch hall, whose heap lies in pages that the tables map. -/
def doorHall : Hall := { part := 0, sys := false, homef := 1, group := 0, heapBase := 0x10000, heapSize := 1 }
def doorState (h : Hall) : State :=
  let s := (List.range 16).foldl (fun s n => putQ s (0x30008 + 8 * n) (2 ^ 52 + 0x10000F + n * 65536)) mapped
  { s with pkg := { s.pkg with halls := [(0xFFE0, h), (0xFFF0, h)] } }
def doorKey : VWord := ofLanes 32 [0, 3, 77, 0, 256, 0]
def doorSlice (s : State) : Nat := s.homeSlice 0xFFF0 doorHall doorKey
def doorPut (s : State) (slice : Nat) (h : Hall) : State × Nat :=
  s.servePut slice h (tupleOf 0xFFF0 doorKey .none) (some ((s.part 0).staging.lookD 0 (List.replicate 256 0), stOK)) none
def doorFull : State :=
  (doorState doorHall).modSlice (doorSlice (doorState doorHall)) fun x => { x with tuples := List.replicate 16793600 tuple0 }

theorem servePut_full (s : State) (slice : Nat) (h : Hall) (t : Tuple) (bs : List Byte)
    (hw : (s.slice slice).waiters = []) (hl : 16793600 ≤ (s.slice slice).tuples.length) :
    (s.servePut slice h t (some (bs, stOK)) none).2 = stINDEXFULL := by
  simp [State.servePut, hw, State.indexTuple, hl, stOK, stINDEXFULL]

/-- The put is answered OK, HEAPFULL in a hall without a heap, INDEXFULL in a full index. -/
theorem witness_HostApertures_put :
    ((doorState doorHall).hall? 0xFFF0 = some doorHall
      ∧ (doorPut (doorState doorHall) (doorSlice (doorState doorHall)) doorHall).2 = stOK)
    ∧ (let h := { doorHall with heapSize := 0 }
       (doorState h).hall? 0xFFF0 = some h ∧ (doorPut (doorState h) (doorSlice (doorState h)) h).2 = stHEAPFULL)
    ∧ (doorPut doorFull (doorSlice (doorState doorHall)) doorHall).2 = stINDEXFULL := by
  refine ⟨by decide +kernel, by decide +kernel, servePut_full _ _ _ _ _ ?_ ?_⟩
  · rw [doorFull, State.modSlice_slice]; decide +kernel
  · rw [doorFull, State.modSlice_slice]; exact le_of_eq (List.length_replicate ..).symm

/-- A completion in the hall of partition 0, its record in the first granule of its heap. -/
def completed : State :=
  let s := doorState doorHall
  s.modSlice (s.homeSlice 0xFFE0 doorHall (ofLanes 32 [0])) fun x =>
    { x with tuples := [{ hall := 0xFFE0, f := [0, 77, 0, 0], len := 256, fmt := 0, seq := 0, payload := .heap 0 1 }] }
def windowed : State := mapped.modPart 0 fun x => { x with wbase := 0x10000 }

/-- How long the payload of a completion is as it is read. -/
def readLength (s : State) (p : Nat) : Nat := match s.oldestCompletion p with
  | some (n, c) => (s.payloadRead p n c).2.1.length
  | none => 0

theorem witness_HostApertures :
    ((base.part 0).tdi = .run ∧ (base.part 0).busy.getLsbD 3 = false ∧ ((base.part 0).staging.lookD 3 (List.replicate 256 0)).length = 256
      ∧ 255 + [(1 : Byte)].length ≤ 256)
    ∧ ((base.modPart 0 fun x => { x with busy := 8 }).part 0).busy.getLsbD ((3 * 2 ^ 40 : BitVec 64).toNat / 2 ^ 40 % 16) = true
    ∧ (let v : BitVec 64 := 24 * 2 ^ 32
       (base.part 0).busy.getLsbD (v.toNat / 2 ^ 40 % 16) = false ∧ 23 < v.toNat / 2 ^ 32 % 32)
    ∧ (let v : BitVec 64 := 3 * 2 ^ 32 + 77
       v.toNat / 2 ^ 32 % 256 ≤ 23 ∧ v.toNat / 2 ^ 44 = 0 ∧ ((doorState doorHall).part 0).busy.getLsbD (v.toNat / 2 ^ 40 % 16) = false
       ∧ ((doorState doorHall).part 0).tdi = .run)
    ∧ ((4 * 2 ^ 37 : BitVec 64).toNat / 2 ^ 37 % 8 ≠ 0 ∧ (base.part 0).busy.getLsbD ((4 * 2 ^ 37 : BitVec 64).toNat / 2 ^ 40 % 16) = false)
    ∧ (base.oldestCompletion 0 = none ∧ (completed.part 0).tdi = .run ∧ (completed.oldestCompletion 0).isSome = true
        ∧ readLength completed 0 = 256 ∧ (completed.part 0).cwin.length ≤ 256)
    ∧ (((windowed.part 0).wbase + 0x40) % 64 + 64 ≤ 64 ∧ (windowed.windowPlace 0 ((windowed.part 0).wbase + 0x40) true).2.isSome = true
        ∧ windowed.remapRead 0 ((windowed.part 0).wbase + 0x40) = some 0x10040
        ∧ (windowed.windowPlace 0 0x10040 false).2.isSome = true)
    ∧ (base.part 1).tdi ≠ .run := by decide +kernel

theorem witness_InterfaceEvents :
    ((base.part 1).tdi = .unlocked ∧ (∀ n, n < 128 → (2 : BitVec 128).getLsbD n = true → base.partOfStorey n = none))
    ∧ ((base.modPart 1 fun x => { x with tdi := .locked }).part 1).tdi = .locked ∧ (base.part 0).tdi = .run
    ∧ ((base.pkg.keys.lookD 5 {}).a = false ∧ (0x81 : Byte).getLsbD 7 = true ∧ (base.part ((0x81 : Byte).toNat % 16)).tdi = .unlocked)
    ∧ ((mapped.pkg.keys.look 1).map fun x => x.a) = some true
    ∧ ((base.modPart 1 fun x => { x with msixPending := 4 }).part 1).msixPending.getLsbD 2 = true
    ∧ (base.part 1).msixPending.getLsbD 2 = false := by decide +kernel

theorem witness_SpdmEvents :
    (let s := { base with pkg := { base.pkg with spdm := { version := true, caps := true, algs := true, exchange := true, session := true } } }
     s.pkg.spdm.version = true ∧ s.pkg.spdm.caps = true ∧ s.pkg.spdm.algs = true ∧ s.pkg.spdm.exchange = true ∧ s.pkg.spdm.session = true)
    ∧ base.pkg.spdm.algs = false ∧ base.pkg.spdm.session = false := by decide +kernel

/-! ### Witnesses: tasks, threads, traffic -/

/-- One pending activity. -/
def withAct (s : State) (k : ActKind) : State := { s with acts := [(7, { flows := [], kind := k })], nextAct := 8 }
/-- The machine with one task. -/
def withTask (s : State) (t : Task) : State := { s with pkg := { s.pkg with tasks := [(0, t)], nextTask := 1 } }

/-- A launch of partition 0 whose record, in the heap, is one that R80 refuses. -/
def launched : State :=
  let s := doorState doorHall
  s.modSlice (doorSlice s) fun x =>
    { x with tuples := [{ hall := 0xFFF0, f := [0, 3, 77, 0], len := 256, fmt := 0, seq := 0, payload := .heap 0 1 }] }

/-- Task 0, whose counter at 0x800 of core 0 holds 2. -/
def dependent : State := withTask (base.sramWrite 0 0x800 (leBytes 4 2)) task0

/-- Task 0 with a composed forme that core 0 does not hold yet. -/
def copying : State :=
  { withTask base { task0 with forme := some { forme0 with map := [], record := [] }, compose := .ready } with
    cores := [(0, { shBase := 1024, shSize := 64 })] }

/-- Task 0 that is ready without items. -/
def emptyTask : Task := { task0 with record := { record0 with itemCnt := 0, depAddr := 0 }, count := 0, ready := true }

theorem witness_TaskEvents :
    (launched.pkg.tasks.length < 4096 ∧ launched.pkg.thr ≠ 3 ∧ launched.nextLaunch = some 0
      ∧ (launched.launchTuple 0).any (fun t =>
          let read := (launched.modPkg fun g => { g with turn := 1 }).payloadRead 0 t.1 t.2
          admitOk (read.1.admitRecord 0 (t.2.f.getD 2 0) true read.2.1)) = true)
    ∧ base.recordBad 0 (List.replicate 256 0) = true
    ∧ (let s := withAct dependent (.dec none 0 0x800 1 false)
       s.ready? 7 = some (.dec none 0 0x800 1 false) ∧ s.coreFenced 0 = false ∧ s.coreWiping 0 = false ∧ s.liveCounter 0 0x800 = some 0
       ∧ (s.tcmWord 0 (0x800 / 4 * 4)).toNat = 2)
    ∧ (withAct dependent (.dec none 0 0x800 2 false)).ready? 7 = some (.dec none 0 0x800 2 false)
    ∧ (withAct dependent (.token 0 0x800)).ready? 7 = some (.token 0 0x800)
    ∧ ((withAct base (.wake task0)).ready? 7 = some (.wake task0) ∧ base.pkg.tasks.length < 4096 ∧ base.pkg.thr ≠ 3 ∧ base.pkg.state = .active)
    ∧ (let s := withAct dependent (.rankReport 0 1 4 6 2 (some ⟨3, 9, 0, 0x100, 4⟩))
       s.ready? 7 = some (.rankReport 0 1 4 6 2 (some ⟨3, 9, 0, 0x100, 4⟩)) ∧ s.task? 0 = some task0)
    ∧ (let k := { task0 with forme := some { forme0 with map := [], record := [] }, compose := .ready }
       copying.task? 0 = some k ∧ record0.has 0 = true ∧ k.gone.contains 0 = false ∧ (copying.core 0).formes.look (formeKey 0) = none
        ∧ copying.coreFenced 0 = false ∧ copying.coreWiping 0 = false
        ∧ (copying.allocForme 0 0 header0 { forme0 with
            map := [], record := [], segs := copying.segsOn record0.home 0 forme0.segs, lent := [], complete := true }).isSome = true)
    ∧ (let k := { task0 with ready := true }
       let s := { withTask base k with cycle := 65536 }
       s.task? 0 = some k ∧ k.status = 0 ∧ k.record.wdog ≠ 0 ∧ k.readyAt + k.record.wdog * 65536 ≤ s.cycle ∧ k.record.finish = true
       ∧ (s.threads.map Prod.fst).Nodup)
    ∧ (let s := withTask base emptyTask
       s.task? 0 = some emptyTask ∧ s.taskDone 0 emptyTask = true ∧ s.writesLeft 0 = false ∧ s.signalAbsent emptyTask = none ∧ s.signalHeld emptyTask = false
       ∧ emptyTask.origin = none ∧ emptyTask.host = false)
    ∧ (let s := withAct (withTask base emptyTask) (.dec (some (deadBase + 131072)) 0 0x800 1 false)
       s.taskDone 0 emptyTask = true ∧ s.writesLeft 0 = true)
    ∧ (let k := { emptyTask with origin := some (5, 9) }
       let s := withTask base k
       s.task? 0 = some k ∧ s.taskDone 0 k = true ∧ s.writesLeft 0 = false ∧ s.signalAbsent k = none ∧ s.signalHeld k = false)
    ∧ (let k := { task0 with compose := .ready, count := 0, forme := some forme0 }
       let s := { withTask base k with cores := composed.cores }
       ((s.core 0).formes.look (formeKey 0)).isSome = true ∧ s.task? 0 = some k ∧ k.nextItem 0 = none ∧ s.coreIdleFor 0 0 = true)
    ∧ (let f := { forme0 with parent := some 3 }
       let s := { base with cores := [(0, { formes := [(9, f)] })] }
       (s.core 0).formes.look 9 = some f ∧ f.parent = some 3 ∧ f.left = 0 ∧ f.lent = []) := by decide +kernel

/-- The completion of a task that a host launched: its tuple has room in the hall. -/
def hosted : Task := { emptyTask with host := true, record := { emptyTask.record with succ := [], event := 0 } }
theorem witness_TaskEvents_hosted :
    let s := withTask (doorState doorHall) hosted
    s.task? 0 = some hosted ∧ s.taskDone 0 hosted = true ∧ s.writesLeft 0 = false ∧ s.signalAbsent hosted = none ∧ s.signalHeld hosted = false ∧ hosted.host = true
    ∧ hosted.origin = none
    ∧ (((hosted.record.succ ++ [hosted.record.event]).foldl (fun s a => s.signal hosted a) s).putCompletion hosted).isSome = true := by
  decide +kernel

/-- Task 0 on core 0's run list. -/
def listed (k : Task) (c : Core) : State :=
  { withTask (inSlot 3 thread) k with cores := [(0, { c with runList := [(3, [.task 0])] })] }
def room : Core := { shBase := 1024, shSize := 64 }
def readyTask : Task := { task0 with ready := true, forme := some forme0, compose := .ready }

/-- Every work slot of core 0 holds an impression, and task 0 of a higher level wants one. -/
def crowded : State :=
  { (listed readyTask { shBase := 1024, shSize := 64, formes := [(0, forme0)], stampSeq := 20 }).modStorey 0 fun x => { x with saveCnt := 4 } with
    threads := ((List.range 13).map fun n => (3 + n, { thread with kind := .impression 1 1 0 0 0, level := 1, stamped := n })) }

/-- What core 0's run list gives from task 0 at level 3: 0 its composing thread, 1 item 0, 2 a sub-item of forme 9, 3 image 0. -/
def serves (s : State) (what : Nat) : Bool := match s.serve? 0 (s.core 0).hold with
  | some (3, 0, .task 0, .compose) => what == 0
  | some (3, 0, .task 0, .item 0) => what == 1
  | some (3, 0, .task 0, .sub w) => what == 2 && w.forme == 9
  | some (3, 0, .task 0, .image 0) => what == 3
  | _ => false

theorem witness_ThreadEvents :
    (let k := { task0 with ready := true }
     let s := listed k room
     s.task? 0 = some k ∧ k.compose = .waiting ∧ k.ready = true ∧ k.status = 0 ∧ k.record.itemCnt ≠ 0
     ∧ k.hdr.formeNeed ≤ (s.core k.record.home).shSize ∧ s.workSlot k.record.home = some 4
     ∧ k.record.home = 0 ∧ serves s 0 = true
     ∧ (s.allocForme k.record.home 0 k.hdr { task := 0, complete := false }).isSome = true)
    ∧ (let s := listed readyTask { room with formes := [(0, forme0)] }
       s.slotFree 0 4 2 = true ∧ serves s 1 = true ∧ s.task? 0 = some readyTask)
    ∧ (let w : SubWork := { forme := 9, task := 0, parent := 3, item := 0, next := 0, count := 2, depth := 1, entry := 0x100 }
       let s := listed readyTask { room with formes := [(0, forme0)], subs := [w] }
       s.slotFree 0 4 2 = true ∧ serves s 2 = true)
    ∧ (let s := { listed readyTask { room with formes := [(0, forme0)] } with
         images := [(0, { slot := 3, thread := { thread with kind := .impression 0 0 0 0 0 }, block := 0, blocks := 1, saved := true })] }
       s.slotFree 0 4 2 = true ∧ serves s 3 = true)
    ∧ (let m : Message := ⟨0x3F, 1, 2, 3⟩
       let s := withAct mapped (.msg none 0 m)
       s.ready? 7 = some (.msg none 0 m) ∧ s.coreFenced 0 = false ∧ s.coreWiping 0 = false ∧ m.type ≠ 0 ∧ m.type ≠ 1 ∧ m.type ≠ 4
       ∧ vecClass (s.vecEntry 0 m.type) = 1 ∧ (s.core 0).msgs.length < 64
       ∧ (let h := { mapped with cores := [(0, { msgs := [m] })], threads := [] }
          h.slotFree 0 1 1 = true ∧ (h.core 0).msgs = [m] ∧ vecUsable (h.vecEntry 0 m.type) = true))
    ∧ (let s := withAct base (.fill none 0 3 false 16 9 true)
       s.ready? 7 = some (.fill none 0 3 false 16 9 true) ∧ s.coreFenced 0 = false ∧ s.coreWiping 0 = false ∧ (s.thr? (slotidOf 0 3)).isSome = true ∧ ¬ (3 = 0 ∧ 28 ≤ 16))
    ∧ (let s := withAct base (.fill none 0 3 true 8 9 true)
       s.ready? 7 = some (.fill none 0 3 true 8 9 true) ∧ (s.thr? (slotidOf 0 3)).isSome = true)
    ∧ ((crowded.core 0).victims = [] ∧ crowded.wantVictim 0 = some 15 ∧ (crowded.thr 15).exiting = false
        ∧ (crowded.thr 15).halted = false ∧ (crowded.thr 15).cancelled = false ∧ crowded.defers 15 = false)
    ∧ (let s := { crowded with threads := crowded.threads.mapVals fun _ (t : Thread) => { t with park := some .answer } }
       (s.core 0).victims = [] ∧ s.wantVictim 0 = some 15 ∧ (s.thr 15).exiting = false ∧ (s.thr 15).halted = false ∧ (s.thr 15).cancelled = false
       ∧ s.defers 15 = true)
    ∧ (let s := withAct base (.packet .request 1 0 [0x100, 5])
       s.ready? 7 = some (.packet .request 1 0 [0x100, 5]) ∧ s.coreWiping 0 = false ∧ s.packetHeld .request 1 0 = false
       ∧ (s.core 0).rxReq.length + 2 ≤ 64)
    ∧ (let s := withAct base (.away .request 0 5 1 [0x100, 5] 2)
       s.ready? 7 = some (.away .request 0 5 1 [0x100, 5] 2) ∧ s.isFenced 4 2 = false) := by decide +kernel

/-- A place in the TCM of core 0 that a thread of core 1 names. -/
def place : Loc := .sram 0 0x3000

/-- The cause with which an engine operation is done, or the page on which it stalls. -/
def doneWith (r : EngDone) : Option Nat := match r with
  | .done _ cause => some cause
  | _ => none
def stallsOn (r : EngDone) : Option Nat := match r with
  | .stall page _ => some page
  | _ => none

theorem witness_TrafficEvents :
    ((∀ k n o, place ≠ .reg k n o) ∧ base.locDenied 19 place = false ∧ base.locFenced place = false)
    ∧ (let k : ActKind := .load 19 0x100 0 0 [{ loc := place, n := 4, foot := 0x3000, size := 4 }] (.scalar 5 4 false)
       let s := withAct base k
       s.ready? 7 = some k ∧ s.locMoving place 4 = false ∧ s.locWiping place = false ∧ s.sketchAhead 7 19 place 4 = false)
    ∧ (let k : ActKind := .store 19 0 0 [{ loc := place, bytes := [1, 2], foot := 0x3000, size := 2 }]
       (withAct base k).ready? 7 = some k ∧ (withAct base k).held 7 19 place 2 = false)
    ∧ (let k : ActKind := .amo 19 0x100 0 place 0 5 0 4 2 .pkg
       let s := withAct base k
       s.ready? 7 = some k ∧ s.held 7 19 place 4 = false ∧ s.locGuarded place 4 = false)
    ∧ (let k : ActKind := .amo 19 0x100 0 place 0 5 0 4 4 .pkg
       (withAct base k).ready? 7 = some k ∧ (withAct base k).held 7 19 place 4 = false)
    ∧ (let k : ActKind := .decEvent (some 19) 0 place 1
       (withAct base k).ready? 7 = some k ∧ (withAct base k).held 7 19 place 4 = false)
    ∧ ((withAct base (.scHold 19 0x100 0 place 0 5 0 4 .pkg false)).acts.look 7 =
          some { flows := [], kind := .scHold 19 0x100 0 place 0 5 0 4 .pkg false }
        ∧ (withAct base (.scHold 19 0x100 0 place 0 5 0 4 .pkg false)).held 7 19 place 4 = false ∧ { base with cycle := 63 }.cycle % 64 = 63)
    ∧ (let k : ActKind := .feclr 19 0 0x3000 2
       let s := withAct base k
       s.ready? 7 = some k ∧ (s.core 0).movingBytes 0x3000 8 = false ∧ s.coreWiping 0 = false ∧ s.coreFenced 0 = false
       ∧ (s.core 0).guarded 0x3000 8 = false)
    ∧ (let r : SyncReq := { slot := 19, op := .ldfe, d := 5, value := 0, remote := true, pc := 0, addr := 0, scope := .pkg }
       let s := withAct base (.sync r 0 0x3000)
       s.ready? 7 = some (.sync r 0 0x3000) ∧ s.coreFenced 0 = false ∧ s.coreWiping 0 = false ∧ (s.core 0).movingBytes 0x3000 4 = false
       ∧ (s.core 0).guarded 0x3000 4 = false ∧ s.syncNow 0 0x3000 r.op = true
       ∧ (withAct emptyWord (.sync r 0 0x3000)).syncNow 0 0x3000 r.op = false) := by
  refine ⟨⟨fun _ _ _ => by simp [place], ?_⟩, ?_⟩ <;> decide +kernel

theorem witness_TrafficEvents_replies :
    (let k : ActKind := .reply 3 0x2000 0 (.scalar 5 4 false) [1, 2, 3, 4] false true none
     (withAct base k).ready? 7 = some k ∧ (base.thr? 3).isSome = true ∧ base.me.filled.look 5 ≠ some base.cycle ∧ slotOf 3 ≠ 0)
    ∧ (let k : ActKind := .reply 3 0x2000 0 (.scalar 5 4 false) [] true false none
       (withAct base k).ready? 7 = some k)
    ∧ (withAct base (.ack 3)).ready? 7 = some (.ack 3)
    ∧ (let s := { withAct base (.scWait 0 3 0x2000 5 9 .pkg true) with cycle := 64 }
       s.acts = [(7, { flows := [], kind := .scWait 0 3 0x2000 5 9 .pkg true })] ∧ 0 < s.cycle / 64 ∧ (s.thr? 3).isSome = true
       ∧ s.me.filled.look 5 ≠ some s.cycle)
    ∧ (let c : CopyOp := { slot := 3, tag := 5, hint := 0, fill := some 7, rows := [(BitVec.ofNat 64 (localAddr 0 0x6000), 0, 1)] }
       let s := withAct base (.copy c)
       s.ready? 7 = some (.copy c) ∧ s.coreOfAny 3 = 0 ∧ (s.partOf 0).getD 16 = 0 ∧ s.inOrder 7 0 0 c.addrs = true
       ∧ doneWith (copyRows 3 0 0 0 (some 7) c.rows (s.dropAct 7)) = some 0)
    ∧ (let c : CopyOp := { slot := 3, tag := 5, hint := 0, fill := some 7, rows := [(0x50000, 0, 1)] }
       let s := withAct mapped (.copy c)
       s.inOrder 7 0 0 c.addrs = true ∧ stallsOn (copyRows 3 0 0 0 (some 7) c.rows (s.dropAct 7)) = some 5)
    ∧ (let n : NearOp := { slot := 3, tag := 5, reduce := true, op := 0, float := false, region := 0x10000, other := 0, pattern := 0, len := 64, res := BitVec.ofNat 64 (localAddr 0 0x6000) }
       let s := withAct mapped (.near n)
       s.ready? 7 = some (.near n) ∧ s.inOrder 7 0 0 n.addrs = true
       ∧ (doneWith (nearRun n 0 0 (s.dropAct 7))).isSome = true)
    ∧ (withAct base (.watch 3 place 0 .pkg (some 4))).ready? 7 = some (.watch 3 place 0 .pkg (some 4))
    ∧ (let c : CopyOp := { slot := 3, tag := 5, hint := 0, fill := some 7, rows := [(0, 0, 1)] }
       (withAct base (.trigger 3 place 0 (.copy c) (some 0))).ready? 7 = some (.trigger 3 place 0 (.copy c) (some 0)) ∧ c.isEmpty = false
       ∧ (base.core (coreOf 3)).copies < 32)
    ∧ (withAct base (.bounced (.ack 3))).acts.look 7 = some { flows := [], kind := .bounced (.ack 3) } := by decide +kernel

/-- A sketch operation of thread 3 that may go on; the outcome of its next access is known. -/
def sketching (op : SkOp) (sat : Bool) (cause : Nat) : State := withAct sketched (.sketch 3 sketch0 op sat cause)
def accessOk (r : SkRes) : Bool := match r with
  | .ok _ _ => true
  | _ => false
def accessRefused (r : SkRes) : Bool := match r with
  | .refused _ _ => true
  | _ => false

theorem witness_TrafficEvents_sketch :
    (let op : SkOp := .upd 5 [(0x10000, 1), (0x10004, 2), (0x10000, 3)]
     let s := sketching op false 0
     let v := { s with draws := s.draws + 1 }
     s.ready? 7 = some (.sketch 3 sketch0 op false 0) ∧ s.coreOfAny 3 = 0 ∧ (s.partOf 0).getD 16 = 0
     ∧ s.skFree 7 3 0x10000 = true ∧ s.skFree 7 3 0x10004 = true
     ∧ accessOk (v.skAccess 0 0 0x10000 (some fun w => skSum w 1)) = true
     ∧ accessOk (v.skAccess 0 0 0x10004 (some fun w => skSum w 2)) = true
     ∧ (let r := { v with pkg := { v.pkg with keys := [] } }
        accessRefused (r.skAccess 0 0 0x10000 (some fun w => skSum w 1)) = true))
    ∧ (let op : SkOp := .upd 5 [(0x10000, 1)]
       let older : ActKind := .store 3 0 0 [{ loc := .phys .stack 0x100000 1, bytes := [1, 2, 3, 4] }]
       let s := { sketching op false 0 with acts := [(2, { flows := [], kind := older }), (7, { flows := [], kind := .sketch 3 sketch0 op false 0 })] }
       s.ready? 7 = some (.sketch 3 sketch0 op false 0) ∧ s.skFree 7 3 0x10000 = false)
    ∧ (let s := sketching (.upd 5 []) false 0
       s.ready? 7 = some (.sketch 3 sketch0 (.upd 5 []) false 0) ∧ s.skFree 7 3 sketch0.stat = true)
    ∧ (let s := sketching (.upd 5 []) true 0
       s.skFree 7 3 sketch0.stat = true ∧ accessOk (s.skAccess 0 0 sketch0.stat (some fun w => w ||| ((1 : Word) ||| 0))) = true)
    ∧ (let op : SkOp := .qry 4 [(0x10000, true)] []
       let s := sketching op false 0
       s.ready? 7 = some (.sketch 3 sketch0 op false 0) ∧ s.skFree 7 3 0x10000 = true ∧ accessOk (s.skAccess 0 0 0x10000 none) = true)
    ∧ (let s := sketching (.qry 4 [] []) false 0
       s.ready? 7 = some (.sketch 3 sketch0 (.qry 4 [] []) false 0) ∧ s.skFree 7 3 sketch0.stat = true)
    ∧ (let src := { sketch0 with base := 0x10100 }
       (let s := sketching (.add 5 src 47 none) false 0
        s.skFree 7 3 (src.base + 4 * 47) = true ∧ 47 < sketch0.count ∧ accessOk (s.skAccess 0 0 (src.base + 4 * 47) none) = true)
       ∧ (let s := sketching (.add 5 src 47 (some 9)) false 0
          s.skFree 7 3 (sketch0.base + 4 * 47) = true
          ∧ accessOk (s.skAccess 0 0 (sketch0.base + 4 * 47) (some fun w => skSum w (9 : Word).toInt)) = true)
       ∧ (sketching (.add 5 src 48 none) false 0).skFree 7 3 sketch0.stat = true ∧ sketch0.count ≤ 48)
    ∧ (let s := sketching (.clr 47) false 0
       s.skFree 7 3 (sketch0.base + 188) = true ∧ 47 < sketch0.count
       ∧ accessOk (s.skAccess 0 0 (sketch0.base + 188) (some fun _ => 0)) = true)
    ∧ (let s := sketching (.clr 48) false 0
       s.skFree 7 3 sketch0.stat = true ∧ sketch0.count ≤ 48
       ∧ accessOk (s.skAccess 0 0 sketch0.stat (some fun w => (w &&& ~~~3) ||| 0)) = true) := by decide +kernel

/-- A request of the thread for hall 5, and the same put there. -/
def wanting (tmpl : VWord) : GReq :=
  { op := .take, slot := some 3, fabric := Config.fabricId, part := 0, hall := 5, tmpl := tmpl, vd := 9, tag := 5, mode := .wait, addr := 0x3000 }
def putting : GReq :=
  { op := .put, slot := some 3, fabric := Config.fabricId, part := 0, hall := 5, tmpl := halls.rV 1, vd := 1, tag := 5
    bytes := some (List.replicate 256 0) }
def cancelling : GReq := { op := .cancel, slot := some 3, fabric := Config.fabricId, part := 0, hall := 5, tmpl := halls.rV 9, nos := [2] }

/-- The request at slice 0 of this package, where it has come in the request class. -/
def arriving (s : State) (r : GReq) (home : Nat) : State :=
  { s with acts := [(7, { flows := [(0, 0, 16384)], kind := .gal r home 0 })], nextAct := 8 }
def atHome (r : GReq) : State := arriving halls r Config.fabricId

/-- Nothing before the home holds the request back. -/
def comes (s : State) (r : GReq) : Bool :=
  !s.isHeld 7 && !s.heldBack 7 r Config.fabricId && !s.atInterface 7 r && !s.sourceBlocked r

/-- Hall 5 splits, with its source here. -/
def splitOf (p : Phase) : Hall := { hall0 with sys := true, split := some { split0 with phase := p } }
def splitAt (p : Phase) : State := { base with pkg := { base.pkg with halls := [(5, splitOf p)] } }
def dstOf (p : Phase) : Hall := { hall0 with sys := true, split := some { split0 with phase := p, isSrc := false, isDst := true } }
def dstAt (p mark : Phase) : State :=
  withAct { base with pkg := { base.pkg with halls := [(5, dstOf p)] } } (.splitMsg 5 mark 0 9 2)

theorem witness_GalleryEvents_put :
    ((atHome putting).ready? 7 = some (.gal putting Config.fabricId 0) ∧ putting.slot = some 3 ∧ comes (atHome putting) putting = true
      ∧ (atHome putting).moveState putting = .serve ∧ ((atHome putting).slice 0).retry = [] ∧ (atHome putting).storeFull putting 0 = false
      ∧ putting.bytes ≠ none ∧ (atHome putting).hallAt putting = some hall0 ∧ (atHome putting).heapHeld putting 0 = false ∧ (atHome putting).isFenced 2 0 = false)
    ∧ (let r := { putting with hall := 7 }
       (atHome r).moveState r = .serve ∧ (atHome r).storeFull r 0 = false ∧ (atHome r).hallAt r = none)
    ∧ (let s := arriving halls putting (Config.fabricId + 1)
       s.ready? 7 = some (.gal putting (Config.fabricId + 1) 0) ∧ Config.fabricId + 1 ≠ Config.fabricId ∧ comes s putting = true)
    ∧ (let h (p : Phase) : Hall := { splitOf p with split := some { split0 with phase := p, hi := 2 ^ 32 } }
       let s (p : Phase) : State := arriving { base with pkg := { base.pkg with halls := [(5, h p)] } } putting Config.fabricId
       (s .flip).moveState putting = .hold ∧ (s .drain).moveState putting = .redirect 3) := by
  refine ⟨⟨rfl, rfl, by decide +kernel, by decide +kernel, rfl, rfl, by decide, ?_, ?_, by decide +kernel⟩,
    ⟨by decide +kernel, rfl, ?_⟩, ⟨rfl, by omega, by decide +kernel⟩, by decide +kernel, by decide +kernel⟩
  · exact (if_pos rfl).trans (by decide +kernel)
  · rw [State.heapHeld, show (atHome putting).hallAt putting = some hall0 from (if_pos rfl).trans (by decide +kernel)]; decide +kernel
  · exact (if_pos rfl).trans (by decide +kernel)

/-- Requests that wait before their home: behind an older one at the interface, at the interface itself, with payload bytes that
move, and before a heap place whose page a migration holds; a hall whose fenced slice, and an operation that comes again. -/
theorem witness_GalleryEvents_waits :
    (let old : GReq := { putting with no := 1, fabric := 7 }
     let r := { putting with no := 2, fabric := 7 }
     let s := { arriving halls r 9 with acts := [(6, { flows := [], kind := .gal old 9 0 }), (7, { flows := [(0, 0, 16384)], kind := .gal r 9 0 })] }
     s.ready? 7 = some (.gal r 9 0) ∧ s.isHeld 7 = false ∧ s.heldBack 7 r 9 = true)
    ∧ (let r := { putting with fabric := 7 }
       let s := withAct halls (.gal r 9 0)
       s.ready? 7 = some (.gal r 9 0) ∧ s.isHeld 7 = false ∧ s.heldBack 7 r 9 = false ∧ s.atInterface 7 r = true)
    ∧ (let r := { putting with bytes := none, addr := localAddr 0 0x3000 }
       let s := (atHome r).modCore 0 fun c => { c with moving := [(0x3000, 0x4000, 9)] }
       s.isHeld 7 = false ∧ s.heldBack 7 r Config.fabricId = false ∧ s.atInterface 7 r = false ∧ s.sourceBlocked r = true)
    ∧ ((atHome putting).modPkg fun g => { g with fences := [{ kind := 2, unit := 0 }] }).isFenced 2 0 = true := by
  decide +kernel

theorem witness_GalleryEvents_match :
    (let r := wanting (halls.rV 9)
     (atHome r).ready? 7 = some (.gal r Config.fabricId 0) ∧ comes (atHome r) r = true
      ∧ (atHome r).moveState r = .serve ∧ ((atHome r).slice 0).retry = [] ∧ (atHome r).storeFull r 0 = false
      ∧ (atHome r).hallAt r = some hall0 ∧ (atHome r).hall? 5 = some hall0 ∧ hall0.split = none ∧ (atHome r).isFenced 2 0 = false
      ∧ (((atHome r).slice 0).tuples.any fun t => t.hall == r.hall && t.matchesT r.tmpl) = false)
    ∧ (let r := wanting (halls.rV 9)
       let s := (atHome r).modSlice 0 fun x => { x with waiters := List.replicate 65536 (wanting 0), tuples := [] }
       s.storeFull r 0 = true)
    ∧ (let r := wanting (halls.rV 9)
       let s := (atHome r).modSlice 0 fun x => { x with retry := [r.who] }
       (s.slice 0).retry.contains r.who = true)
    ∧ ((atHome cancelling).ready? 7 = some (.gal cancelling Config.fabricId 0) ∧ comes (atHome cancelling) cancelling = true
      ∧ (atHome cancelling).moveState cancelling = .serve
      ∧ (atHome cancelling).storeFull cancelling 0 = false ∧ (atHome cancelling).hallAt cancelling = some hall0) := by
  refine ⟨⟨rfl, by decide +kernel, by decide +kernel, rfl, by decide +kernel, ?_, by decide +kernel, rfl, by decide +kernel,
    by decide +kernel⟩, ?_, ?_, ⟨rfl, by decide +kernel, by decide +kernel, rfl, ?_⟩⟩
  · exact (if_pos rfl).trans (by decide +kernel)
  · simp only [State.storeFull, State.modSlice_slice, List.length_replicate, List.any_nil]; decide
  · simp [State.modSlice_slice]
  · exact (if_pos rfl).trans (by decide +kernel)

theorem witness_GalleryEvents :
    (let r := { cancelling with fabric := 7 }
     let s := withAct halls (.galAnswer r 0 4)
     s.acts = [(7, { flows := [], kind := .galAnswer r 0 4 })] ∧ s.pkg.away = [] ∧ cancelling.op = .cancel
     ∧ cancelling.slot = some 3 ∧ cancelling.ends = false ∧ (s.thr? 3).isSome = true)
    ∧ (withAct halls (.putAnswer 3 1 5 0 0)).ready? 7 = some (.putAnswer 3 1 5 0 0)
    ∧ (let x : Sent := { req := { putting with fabric := 7 }, home := 9 }
       let s (a : PeerAns) : State := { withAct halls (.peerAnswer 1 a) with pkg := { halls.pkg with away := [(1, x)] } }
       (s .accepted).pkg.away.look 1 = some x ∧ x.req.slot = some 3 ∧ x.req.op.puts = true
       ∧ (s .accepted).ready? 7 = some (.peerAnswer 1 .accepted) ∧ (s .retry).ready? 7 = some (.peerAnswer 1 .retry)
       ∧ (s (.redirect 5)).ready? 7 = some (.peerAnswer 1 (.redirect 5)) ∧ (s (.status 0 0)).ready? 7 = some (.peerAnswer 1 (.status 0 0)))
    ∧ (withAct halls (.srcNotice 5 0 0)).ready? 7 = some (.srcNotice 5 0 0)
    ∧ ((withAct halls (.mirrorPut 5 tuple0)).ready? 7 = some (.mirrorPut 5 tuple0) ∧ halls.hall? 5 = some hall0)
    ∧ (let r := { wanting 0 with fabric := 7 }
       (withAct halls (.mirrorWait 5 r)).ready? 7 = some (.mirrorWait 5 r))
    ∧ (withAct halls (.splitMsg 5 .copy 0 9 2)).ready? 7 = some (.splitMsg 5 .copy 0 9 2)
    ∧ (withAct halls (.rangeEntry 5 0 9 3 2)).acts = [(7, { flows := [], kind := .rangeEntry 5 0 9 3 2 })]
    ∧ ((splitAt .copy).hall? 5 = some (splitOf .copy) ∧ (splitAt .flip).hall? 5 = some (splitOf .flip)
        ∧ (splitAt .copy).ackedChanges 5 split0.changes = false
        ∧ (withAct (splitAt .copy) (.splitAck 5 0)).ackedChanges 5 split0.changes = true
        ∧ (splitAt .drain).hall? 5 = some (splitOf .drain) ∧ (splitAt .flip).peers = [] ∧ (splitAt .drain).acts = []
        ∧ { splitAt .flip with peers := [⟨4, [0], [], [], [], []⟩] }.peers = [⟨4, [0], [], [], [], []⟩])
    ∧ ((dstAt .copy .flip).hall? 5 = some (dstOf .copy) ∧ (dstAt .copy .flip).splitMark 5 .flip = some 7 ∧ (dstAt .copy .flip).mirroring 5 = false
        ∧ (dstAt .flip .drain).hall? 5 = some (dstOf .flip) ∧ (dstAt .flip .drain).splitMark 5 .drain = some 7
        ∧ (dstAt .drain .done).hall? 5 = some (dstOf .drain) ∧ (dstAt .drain .done).splitMark 5 .done = some 7) := by decide +kernel

theorem witness_GalleryEvents_retry :
    (let r := wanting (halls.rV 9)
     let s := withAct halls (.retry r Config.fabricId 0)
     s.acts = [(7, { flows := [], kind := .retry r Config.fabricId 0 })] ∧ s.pkg.away = [] ∧ s.storeFull r 0 = false)
    ∧ (let r := wanting (halls.rV 9)
       let s := withAct halls (.redirect r 5)
       s.acts = [(7, { flows := [], kind := .redirect r 5 })] ∧ s.hall? 5 = some hall0) :=
  ⟨⟨rfl, rfl, by decide +kernel⟩, rfl, by decide +kernel⟩

/-- An arrival at landing 3, and a contribution to group 3 from the thread. -/
def contrib : Contrib := { slot := some 3, lanes := [sval 32 9] }

theorem witness_LandingGroupEvents :
    (let s := withAct landed (.arrival 3 3 0)
     s.ready? 7 = some (.arrival 3 3 0) ∧ 0 ≤ s.cycle ∧ (∀ k ∈ s.arrivalKeys, 0 < k.1 ∨ (k.1 = 0 ∧ 3 ≤ k.2)))
    ∧ (withAct landed (.landAck 3 3 0 0)).ready? 7 = some (.landAck 3 3 0 0)
    ∧ (withAct landed (.flip 3 1 0 0)).nextFlip 3 = some (7, 1, 0, 0)
    ∧ (let e := { entry0 with lcnt := 3 }
       let s := withAct (collState e []) (.collIn false 0 3 0 contrib)
       s.ready? 7 = some (.collIn false 0 3 0 contrib) ∧ (s.node false 0 3).entry = some e ∧ (s.node false 0 3).locals.length + 1 < e.lcnt
       ∧ s.linkHeld false 0 0 contrib = false)
    ∧ (let s := withAct (collState entry0 []) (.collIn false 0 3 0 contrib)
       s.ready? 7 = some (.collIn false 0 3 0 { slot := some 3, lanes := [sval 32 (9 : Word).toNat] })
       ∧ s.node false 0 3 = { entry := some entry0 } ∧ entry0.en = true ∧ entry0.op = 0 ∧ entry0.lcnt = 1 ∧ entry0.child = 0 ∧ s.coreHeld 0 (s.coreOfAny 3) = false
       ∧ entry0.parent = 7)
    ∧ (withAct base (.collResult 3 3 9)).ready? 7 = some (.collResult 3 3 9) := by decide +kernel

/-! ### Witnesses: faults, power, the whole machine -/

def fencing : State := mapped.modMe fun t => { t with fencedTrap := some 0x3000 }

theorem witness_FaultPowerEvents :
    (2 < fenceUnits 3 ∧ base.isFenced 3 2 = false ∧ base.isFenced 0 5 = false ∧ (base.fence 3 1 2).isFenced 3 2 = true)
    ∧ ((fencing.thr 3).fencedTrap = some 0x3000 ∧ fencing.canRaise 3 = true ∧ fencing.syncPending 3 = none
        ∧ ((((fencing.withdrawWatch 3).modThr 3 fun t => { t with park := none, ans := none }).takeTrap 3 7 0x3000 (fencing.thr 3).pc).thr 3).trapActive
          = true)
    ∧ (let s := base.modMe fun t => { t with halted := true }
       s.pkg.life ≠ .production ∧ (s.thr? 3).isSome = true ∧ s.me.halted = true)
    ∧ ({ base.pkg with life := .production } : Pkg).life = .production
    ∧ base.memory.dirty = [] ∧ mapped.pkg.keys.look 1 = some { a := true, part := 0, usable := true }
    ∧ ((base.modStorey 2 fun x => { x with wiping := true }).storey 2).wiping = true
    ∧ (base.pkg.power ≤ 2100 ∧ base.pkg.temp ≤ 90 ∧ { base with cycle := 9 }.pkg.flogCycle ≠ 9)
    ∧ (base.pkg.offAt = none ∧ base.pkg.tasks = [] ∧ base.pkg.pfMasked.getLsbD 2 = false)
    ∧ (let s := { base with cycle := 2 ^ 20, pkg := { base.pkg with offAt := some (2 ^ 20) } }
       s.pkg.offAt = some (2 ^ 20) ∧ 2 ^ 20 ≤ s.cycle ∧ { s with cycle := 0 }.cycle < 2 ^ 20)
    ∧ (let a : Sent := { req := { op := .take, slot := some 3, fabric := 7, part := 0, hall := 5, tmpl := 0 }, home := 13 }
       let s := { base with pkg := { base.pkg with away := [(9, a)] } }
       s.isFenced 4 5 = false ∧ (9, a) ∈ s.pkg.away ∧ flowPort a.home = 5 ∧ s.ready? 9 = none ∧ s.pkg.away.look 9 = some a)
    ∧ (base.isFenced 5 0 = false ∧ base.pkg.life ≠ .production
        ∧ (let u := (base.stopCore 1 1).modCore 1 fun c => { c with resetting := true }
           ∀ x ∈ u.threads, coreOf x.1 ≠ 1)
        ∧ (let s := base.modMe fun t => { t with park := some .answer }
           let u := (s.stopCore 0 1).modCore 0 fun c => { c with resetting := true }
           u.threads.any (fun x => coreOf x.1 == 0) = true)) := by decide +kernel

theorem witness_DecodeEncode :
    (Instr.add 3 4 5).illFormed = none ∧ Sys2Proof.encode (.add 3 4 5) = some (1 + 64 * 3 + 2048 * 4 + 65536 * 5) := by decide +kernel

/-- Core 0's turn, with a word at the pc of its thread. -/
def turning (w : Nat) : State := { (inSlot 3 thread).sramWrite 0 0x2000 (leBytes 4 w) with agenda := [.issue 0] }
/-- The state in which the word issues. -/
def issuing (s : State) : State :=
  ({ s with agenda := [] }.modCore 0 fun c => { c with turned := s.cycle + 1 }).beginIssue 3

def ownTcm (p : Target) : Bool := match p with
  | .own o => o == 0x2000
  | _ => false

theorem witness_StepRunsDecoded :
    (let s := turning (1 + 64 * 3 + 2048 * 4 + 65536 * 5)
     let u := issuing s
     s.agenda = [.issue 0] ∧ s.pkg.state ≠ .off ∧ { s with agenda := [] }.pickSlot 0 = some 3 ∧ (s.thr 3).cancelled = false
     ∧ (s.thr 3).exiting = false ∧ ({ s with agenda := [] }.modCore 0 fun c => { c with turned := s.cycle + 1 }).canRaise 3 = false
     ∧ u.me.pc.toNat + 4 ≤ (u.seg 1).limit.toNat ∧ spaceZeros (u.segAddr 1 u.me.pc.toNat).toNat = true ∧ (u.seg 1).has rgtX = true
     ∧ u.guardedHere (u.segAddr 1 u.me.pc.toNat) 4 = false ∧ ownTcm (u.target (u.segAddr 1 u.me.pc.toNat)) = true
     ∧ (u.core u.myCore).movingBytes 0x2000 4 = false
     ∧ Sys2Proof.decode (u.readLoc u.myPart (.sram u.myCore (u.tcmRead u.cur 0x2000)) 4) = .ok (.add 3 4 5, []))
    ∧ (let u := issuing (turning 0)
       Sys2Proof.decode (u.readLoc u.myPart (.sram u.myCore (u.tcmRead u.cur 0x2000)) 4) = .error .zeroWord) := by decide +kernel

/-- A page of the tables gives the word there, of a place that is not fenced. -/
def fetchesAt (u : State) (va : Nat) : Bool := match u.translate u.myCore u.myPart va .fetch with
  | .ok w e => !w.locFenced (.phys e.cls (e.phys va) e.key)
  | _ => false

/-- Another core's memory, a page, the two fetch traps, and a core that has issued or has an issue due. -/
theorem witness_StepRunsDecoded_other :
    (let far := fun (s : State) => s.modMe fun t => { t with segs := t.segs.put 1 { segTcm with base := BitVec.ofNat 64 (localAddr 1 0) } }
     let s := (far (turning 0)).sramWrite 1 0x2000 (leBytes 4 (2 + 64 * 3 + 2048 * 4 + 65536 * 7))
     let u := issuing s
     s.agenda = [.issue 0] ∧ { s with agenda := [] }.pickSlot 0 = some 3 ∧ u.target (u.segAddr 1 u.me.pc.toNat) = .core 1 0x2000
     ∧ u.coreFenced 1 = false ∧ u.coreWiping 1 = false ∧ (u.core 1).movingBytes 0x2000 4 = false ∧ (u.core 1).guarded 0x2000 4 = false
     ∧ Sys2Proof.decode (u.readLoc u.myPart (.sram 1 0x2000) 4) = .ok (.addi 3 4 7, []))
    ∧ (let s := { mappedTlb.modMe (fun t => { t with segs := t.segs.put 1 { base := 0x10000, limit := 0x10000, rights := 63, scope := .pkg } }) with agenda := [.issue 0] }
       let u := issuing s
       { s with agenda := [] }.pickSlot 0 = some 3 ∧ u.target (u.segAddr 1 u.me.pc.toNat) = .global 0x12000
       ∧ u.windowAt u.myPart 0x12000 = none ∧ fetchesAt u 0x12000 = true)
    ∧ (let s := (turning 0).modMe fun t => { t with segs := t.segs.put 1 { segTcm with limit := 0x2003 } }
       { s with agenda := [] }.pickSlot 0 = some 3 ∧ ((issuing s).seg 1).limit.toNat < (issuing s).me.pc.toNat + 4)
    ∧ (let s := (turning 0).modMe fun t => { t with segs := t.segs.put 1 { segTcm with rights := 3 } }
       { s with agenda := [] }.pickSlot 0 = some 3 ∧ ((issuing s).seg 1).has rgtX = false
       ∧ (issuing s).me.pc.toNat + 4 ≤ ((issuing s).seg 1).limit.toNat
       ∧ spaceZeros ((issuing s).segAddr 1 (issuing s).me.pc.toNat).toNat = true)
    ∧ ((turning 0).settled = false ∧ ((turning 0).core 0).turned ≤ (turning 0).cycle)
    ∧ (let s := (turning 0).modCore 0 fun c => { c with turned := 99 }
       s.cycle < (s.core 0).turned)
    ∧ (let s := { turning 0 with agenda := [.event .hotnessHalving] }
       (Turn.event .hotnessHalving).isIssue = false ∧ s.dueCores ≠ [] ∧ { s with threads := [] }.dueCores = []) := by decide +kernel

theorem witness_MemoryForm : MemoryOk base ∧ MemoryOk mapped := by unfold MemoryOk; decide +kernel

theorem witness_MemoryFrame : silent (.add 5 1 2) = true ∧ isNext (exec (.add 5 1 2) base) = true := by decide +kernel

theorem witness_OffStays :
    (let s := { base with pkg := { base.pkg with state := .off } }
     NoPowerOn s ∧ isNext (step s) = true) := by unfold NoPowerOn; decide +kernel

/-- An impression whose core has work at its level, in a storey with a save area. -/
theorem witness_FormeInstructions_yield :
    let s := { (listed readyTask { room with formes := [(0, forme0)] }).modStorey 0 (fun x => { x with saveCnt := 4 }) with
      threads := [(3, { thread with kind := .impression 0 0 0 0 0, level := 3 })] }
    s.yields = true ∧ Ready s [] := by unfold Ready; decide +kernel

/-! ### Witnesses of further clauses: forms, boundaries and waits -/

/-- The first operand that is not ready, after others that are; and all ready. -/
theorem witness_OperandsPark_forms :
    (operandsOf (.add 5 2 4) = some ([.s 2] ++ .s 4 :: [.d 5]) ∧ opndReady emptyS4 (.s 2) ∧ ¬ opndReady emptyS4 (.s 4))
    ∧ (operandsOf (.vfma 0 3 1 2 0) = some ([.v 1, .v 2] ++ .v 3 :: []) ∧ opndReady base (.v 1) ∧ opndReady base (.v 2)
      ∧ ¬ opndReady (base.modMe fun t => { t with regs := { t.regs with vFull := 0 } }) (.v 3))
    ∧ (operandsOf (.sextb 29 1) = some ([.s 1] ++ .d 29 :: []) ∧ ¬ opndReady (slot0 { txReq := List.replicate 64 0 }) (.d 29)
      ∧ opndReady (slot0 { txReq := List.replicate 63 0 }) (.d 29))
    ∧ (operandsOf (.beq 4 2 8) = some ([] ++ .s 4 :: [.s 2]) ∧ operandsOf (.jalr 31 4 0) = some ([] ++ .s 4 :: [.d 31]))
    ∧ (operandsOf (.div 5 1 2) = some [.s 1, .s 2, .d 5] ∧ aluDest (.div 5 1 2) = some 5
      ∧ opndReady base (.s 1) ∧ opndReady base (.s 2) ∧ opndReady base (.d 5)) := by
  simp only [opndReady]; decide +kernel

/-- The same thread with sg3 over the local memory of another core. -/
def facing (c : Nat) : State := base.modMe fun t => { t with segs := t.segs.put 3 { segTcm with base := BitVec.ofNat 64 (localAddr c 0) } }

/-- The machine with the translation of page 1 in the TLB, and a line of it in the core's cache. -/
def globalS (s : State) : State := withS s 1 0x10000
def lined : State := (globalS globals).modCore 0 fun c =>
  { c with cache := [{ line := 256, part := 0, cls := .stack, phys := 4096, w := false, i := false, bytes := List.replicate 256 7 }] }

/-- What a translation answers. -/
def xlateOk (r : TransRes) (p : TlbEntry → Bool) : Bool := match r with
  | .ok _ e => p e
  | .wait _ => false
def xlateWaits (r : TransRes) : Bool := match r with
  | .ok _ _ => false
  | .wait _ => true
def xlated (r : TransRes) (s : State) : State := match r with
  | .ok v _ => v
  | .wait _ => s

/-- Another core of the storey, fenced, with moving bytes and guarded; one of another storey; a page, and a cached line. -/
theorem witness_ScalarLoads_far :
    let at_ (s : State) : State := s.consumeAll [.s 1, .d 5]
    let passes (s : State) : Prop := Ready s [.s 1, .d 5] ∧ (at_ s).checkAccess 3 ((at_ s).rS 1).toNat 4 1 4 [0, 1, 3] = none
    let goes (s : State) (c : Nat) : Prop := (at_ s).target ((at_ s).segAddr 3 ((at_ s).rS 1).toNat) = .core c 0x3000
    (passes (facing 1) ∧ goes (facing 1) 1 ∧ storeyOf 1 = storeyOf (at_ (facing 1)).myCore ∧ (at_ (facing 1)).coreFenced 1 = false
      ∧ ((at_ (facing 1)).core 1).movingBytes 0x3000 4 = false ∧ ((at_ (facing 1)).core 1).guarded 0x3000 4 = false)
    ∧ (let s := (facing 1).modCore 1 fun c => { c with shBase := 32, shSize := 32 }
       passes s ∧ goes s 1 ∧ ((at_ s).core 1).guarded 0x3000 4 = true)
    ∧ (let s := (facing 1).modCore 1 fun c => { c with moving := [(0x3000, 0x4000, 9)] }
       passes s ∧ goes s 1 ∧ ((at_ s).core 1).movingBytes 0x3000 4 = true)
    ∧ (let s := (facing 1).modPkg fun g => { g with fences := [{ kind := 0, unit := 1 }] }
       passes s ∧ goes s 1 ∧ (at_ s).coreFenced 1 = true)
    ∧ (passes (facing 64) ∧ goes (facing 64) 64 ∧ storeyOf 64 ≠ storeyOf (at_ (facing 64)).myCore)
    ∧ (let s := lined
       let v := xlated ((at_ s).translate (at_ s).myCore (at_ s).myPart 0x10000 .read) (at_ s)
       passes s ∧ (at_ s).target ((at_ s).segAddr 3 ((at_ s).rS 1).toNat) = .global 0x10000
       ∧ (at_ s).windowAt (at_ s).myPart 0x10000 = none ∧ (at_ s).windowAt (at_ s).myPart 0x10003 = none
       ∧ xlateOk ((at_ s).translate (at_ s).myCore (at_ s).myPart 0x10000 .read) (fun e => e.c && e.cls == .stack && e.phys 0x10000 == 0x100000) = true
       ∧ ((at_ s).seg 3).rights.getLsbD 5 = true ∧ (at_ s).sketching = false
       ∧ (v.cachedLine 0 0 (0x10000 / 256) .stack (0x100000 / 256)).isSome = true)
    ∧ (let s := (globalS globals).modMe fun t => { t with segs := t.segs.put 3 { base := 0, limit := 0x30000, rights := 31, scope := .pkg } }
       passes s ∧ ((at_ s).seg 3).rights.getLsbD 5 = false)
    ∧ (let s := withS globals 1 0x20000
       passes s ∧ xlateWaits ((at_ s).translate (at_ s).myCore (at_ s).myPart 0x20000 .read) = true) := by
  unfold Ready; decide +kernel

/-- The impression of task 0 with s1 at its template window: granule 0 owned or not, and an area without a free granule. -/
def shadowing : State := withS composed 1 0x1000
def shadowed : State := shadowing.modMe fun t => { t with own := [(0, .owned 1040)] }
def shadowFull : State := shadowing.modCore 0 fun c => { c with taken := (List.range 64).map (1024 + ·) }

/-- Where a write of the window goes: the place and whether it took a granule. -/
def written (s : State) (o : Nat) : Option (Nat × Bool) := (s.tcmWrite s.cur o).map Prod.snd

/-- A template granule, owned, free to take and without one; the last byte of the window; other cores; a page with and without
the cache, and a remap window; UNACK at its limit. -/
theorem witness_ScalarStores_far :
    let at_ (s : State) : State := s.consumeAll [.s 1, .s 4]
    let passes (s : State) (seg : Nat) : Prop := Ready s [.s 1, .s 4] ∧ (at_ s).checkAccess seg ((at_ s).rS 1).toNat 4 2 4 [0, 1, 3] = none
    let goes (s : State) (c : Nat) : Prop := (at_ s).target ((at_ s).segAddr 3 ((at_ s).rS 1).toNat) = .core c 0x3000
    (∀ s ∈ [shadowing, shadowed, shadowFull],
      passes s 0 ∧ AtTcm (at_ s) 0 0x1000 4 2 4 [0, 1, 3] 0x1000 ∧ (at_ s).granuleAt (at_ s).cur 0x1000 = some 0
      ∧ (at_ s).window (at_ s).cur = some (0, 0, 0x400) ∧ (at_ s).me.kind = .impression 0 0 103 0 0)
    ∧ (written (at_ shadowing) 0x1000 = some (1028 * 256, true) ∧ ((at_ shadowing).takeGranule 0 0).map Prod.fst = some 1028
      ∧ (at_ shadowing).granuleMap 3 0 = 1024 ∧ written (at_ shadowed) 0x1000 = some (1040 * 256, false)
      ∧ written (at_ shadowFull) 0x1000 = none)
    ∧ ((at_ shadowing).granuleAt 3 0x13FF = some 3 ∧ (at_ shadowing).granuleAt 3 0x1400 = none ∧ (at_ shadowing).granuleAt 3 0xFFF = none)
    ∧ (passes (facing 1) 3 ∧ goes (facing 1) 1 ∧ (at_ (facing 1)).unackWait = none)
    ∧ (let s := (facing 1).modMe fun t => { t with unack := 1023 }
       passes s 3 ∧ goes s 1 ∧ (at_ s).unackWait = some (.unackRoom 1))
    ∧ (let s := globalS globals
       let v := xlated ((at_ s).translate (at_ s).myCore (at_ s).myPart 0x10000 .write) (at_ s)
       passes s 3 ∧ (at_ s).target ((at_ s).segAddr 3 ((at_ s).rS 1).toNat) = .global 0x10000 ∧ (at_ s).windowAt (at_ s).myPart 0x10000 = none
       ∧ xlateOk ((at_ s).translate (at_ s).myCore (at_ s).myPart 0x10000 .write) (fun e => e.c) = true
       ∧ ((at_ s).seg 3).rights.getLsbD 5 = true ∧ (v.combine .stack 4096 0 0x10000 [{ loc := .phys .stack 0x100000 1, bytes := [1, 2, 3, 4] }]).owed 3 ≤ 1023)
    ∧ (let s := (globalS globals).modPart 0 fun x => { x with remap := { windows := [(0, { wbase := 0x10000, src := 0, naddr := 0, rowb := 64, srcRows := 1 })] } }
       passes s 3 ∧ (at_ s).windowAt (at_ s).myPart 0x10000 ≠ none) := by
  unfold AtTcm Ready; decide +kernel

/-- Which of R131's conditions an access of a word meets first: 3 beyond, 4 unfit, 5 not aligned. -/
def offends (s : State) (seg : Nat) (off : Int) (n : Nat) (rights spaces : List Nat) : Nat :=
  let g := s.me.segs.lookD seg {}
  let addr : Addr := g.base + BitVec.ofInt 64 off
  let space := addr.toNat / 2 ^ 62
  let low := addr.toNat % 2 ^ 62
  let unzero : Bool := if space = 0 ∨ space = 3 then low / 2 ^ 48 ≠ 0
    else if space = 1 then low / 2 ^ 45 ≠ 0 ∨ low / 2 ^ 19 % 2 ^ 13 ≠ 0
    else low / 2 ^ 45 ≠ 0 ∨ low / 2 ^ 12 % 2 ^ 20 ≠ 0 ∨ low % 4 ≠ 0
  let c := s.core s.myCore
  let guarded : Bool := space = 1 ∧ low / 2 ^ 32 = s.myCore ∧ c.guarded (low % 2 ^ 19) n = true ∧ c.movingBytes (low % 2 ^ 19) n = false
  if off < 0 || (g.limit.toNat : Int) < off + n || unzero then 3
  else if (rights.any fun r => !g.rights.getLsbD r) || !spaces.contains space || guarded || (space == 3 && addr.toNat % 4 ≠ 0) then 4
  else if addr.toNat % n ≠ 0 then 5 else 0

theorem witness_ScalarAccessTraps_each :
    let s (g : Seg) (o : Word) : State := (withS base 1 o).modMe fun t => { t with segs := t.segs.put 3 g }
    let ld (s : State) (imm : Int) : Nat := offends (s.consumeAll [.s 1, .d 5]) 3 (((s.consumeAll [.s 1, .d 5]).rS 1).toNat + imm * 4) 4 [0] [0, 1, 3]
    let fe (s : State) : Nat := offends (s.consumeAll [.s 1, .s 4]) 3 ((s.consumeAll [.s 1, .s 4]).rS 1).toNat 4 [1, 4] [1]
    let seg (b n : Nat) (r : BitVec 16) : Seg := { base := BitVec.ofNat 64 b, limit := BitVec.ofNat 32 n, rights := r, scope := .pkg }
    Ready base [.s 1, .d 5] ∧ Ready base [.s 1, .s 4]
    ∧ ld (s segTcm 0) (-1) = 3 ∧ ld (s segTcm 0x6FFFC) 0 = 0 ∧ ld (s segTcm 0x6FFFD) 0 = 3
    ∧ ld (s (seg (2 ^ 48) 16 63) 0) 0 = 3 ∧ ld (s (seg (2 ^ 62 + 2 ^ 19) 16 63) 0) 0 = 3 ∧ ld (s (seg (2 ^ 63 + 2 ^ 12) 16 63) 0) 0 = 3
    ∧ ld (s (seg (2 ^ 63 + 8) 16 63) 2) 0 = 3
    ∧ ld (s { segTcm with rights := 62 } 0x3001) 0 = 4 ∧ ld (s (seg (2 ^ 63 + 8) 16 63) 0) 0 = 4 ∧ ld (s (seg (3 * 2 ^ 62) 16 63) 2) 0 = 4
    ∧ ld ((s segTcm 0x3000).modCore 0 fun c => { c with shBase := 48, shSize := 16 }) 0 = 4
    ∧ ld (s segTcm 0x3002) 0 = 5 ∧ fe (s (seg 0 16 63) 0) = 4 ∧ fe (s { segTcm with rights := 47 } 0) = 4 ∧ fe (s segTcm 2) = 5
    ∧ fe (s segTcm 0) = 0 := by
  unfold Ready; decide +kernel

/-- A full word for STFE; template granules; words of other cores. -/
theorem witness_SyncAccesses_far :
    (let t := base.consumeAll [.s 1, .s 4]
     Ready base [.s 1, .s 4] ∧ OwnTcm t 0 ((t.rS 1).toNat + 0) 4 18 4 [1] 0x3000 ∧ t.liveCounter t.myCore 0x3000 = none ∧ t.relWait = none
     ∧ t.wordFull t.myCore 0x3000 = true)
    ∧ (∀ ops ∈ ([[.s 1, .d 5], [.s 1, .s 4]] : List (List Opnd)), ∀ s ∈ [shadowing, shadowFull],
        let t := s.consumeAll ops
        Ready s ops ∧ t.checkAccess 0 (t.rS 1).toNat 4 17 4 [1] = none ∧ t.checkAccess 0 (t.rS 1).toNat 4 18 4 [1] = none ∧ t.relWait = none
        ∧ t.target (t.segAddr 0 (t.rS 1).toNat) = .own 0x1000 ∧ (t.core t.myCore).movingBytes 0x1000 4 = false
        ∧ written t 0x1000 = (if s = shadowing then some (1028 * 256, true) else none))
    ∧ (let u := ((shadowing.tcmWrite 3 0x1000).map Prod.fst).getD shadowing
       (∀ op ∈ [SyncOp.ldfe, .ldff, .stff], u.copyFault.syncNow 0 (1028 * 256) op = true)
       ∧ (claimed shadowing u 0x1000 true).syncNow 0 (1028 * 256) .stfe = false)
    ∧ (let t := (facing 64).consumeAll [.s 1, .d 5]
       Ready (facing 64) [.s 1, .d 5] ∧ t.checkAccess 3 (t.rS 1).toNat 4 17 4 [1] = none
       ∧ t.target (t.segAddr 3 (t.rS 1).toNat) = .core 64 0x3000 ∧ storeyOf 64 ≠ storeyOf t.myCore)
    ∧ (let t := (facing 1).consumeAll [.s 1, .s 4]
       Ready (facing 1) [.s 1, .s 4] ∧ t.checkAccess 3 (t.rS 1).toNat 4 18 4 [1] = none ∧ t.relWait = none
       ∧ t.target (t.segAddr 3 (t.rS 1).toNat) = .core 1 0x3000 ∧ t.sendAll.unackWait = none)
    ∧ (let t := (facing 1).consumeAll [.s 1, .s 5]
       Ready (facing 1) [.s 1, .s 5] ∧ (t.rS 5).toNat = 1 ∧ t.checkAccess 3 (t.rS 1).toNat 4 18 4 [1] = none
       ∧ t.target (t.segAddr 3 (t.rS 1).toNat) = .core 1 0x3000 ∧ t.unackWait = none) := by
  unfold OwnTcm Ready; decide +kernel

/-- Atomics in a template granule, on another core's word and on global memory, of which no atomic may be host memory. -/
theorem witness_AtomicResults_far :
    let at_ (s : State) : State := s.consumeAll [.s 1, .s 4, .d 5]
    let passes (s : State) (seg : Nat) : Prop := Ready s [.s 1, .s 4, .d 5] ∧ (at_ s).checkAccess seg ((at_ s).rS 1).toNat 4 11 4 [0, 1] = none
      ∧ (at_ s).relWait = none
    (∀ s ∈ [shadowing, shadowed], passes s 0 ∧ AtTcm (at_ s) 0 ((at_ s).rS 1).toNat 4 11 4 [0, 1] 0x1000
      ∧ (written (at_ s).sendAll 0x1000).isSome = true)
    ∧ (passes shadowFull 0 ∧ (at_ shadowFull).target ((at_ shadowFull).segAddr 0 ((at_ shadowFull).rS 1).toNat) = .own 0x1000
      ∧ written (at_ shadowFull) 0x1000 = none ∧ written (at_ shadowFull).sendAll 0x1000 = none)
    ∧ (passes (facing 64) 3 ∧ (at_ (facing 64)).target ((at_ (facing 64)).segAddr 3 ((at_ (facing 64)).rS 1).toNat) = .core 64 0x3000
      ∧ (at_ (facing 64)).unackWait = none)
    ∧ (let s := globalS globals
       let v := xlated ((at_ s).translate (at_ s).myCore (at_ s).myPart 0x10000 .atomic) (at_ s)
       passes s 3 ∧ (at_ s).target ((at_ s).segAddr 3 ((at_ s).rS 1).toNat) = .global 0x10000 ∧ (at_ s).windowAt (at_ s).myPart 0x10000 = none
       ∧ xlateOk ((at_ s).translate (at_ s).myCore (at_ s).myPart 0x10000 .atomic) (fun e => e.cls == .stack) = true
       ∧ (v.flushLine (.phys .stack 0x100000 1)).unackWait = none)
    ∧ (let e := { tlbOf 0 1 (2 ^ 52 + 0x10002F) false with cls := .host }
       let s := (globalS globals).modFlight 0 fun f => { f with tlb := [e] }
       passes s 3 ∧ xlateOk ((at_ s).translate (at_ s).myCore (at_ s).myPart 0x10000 .atomic) (fun e => e.cls == .host) = true) := by
  unfold AtTcm Ready; decide +kernel

/-- Vector accesses of the own TCM: whole and word by word, and a store without a granule. -/
theorem witness_VectorMemory_own :
    let on (s : State) : List Nat := (List.range 16).filter fun e => (s.rK 1).getLsbD (4 * e)
    let here (s : State) (off : Int) (o : Nat) : Prop := s.target (s.segAddr 0 off) = .own o ∧ s.granuleAt s.cur o = none
    (∀ ops ∈ ([[.s 1], [.s 1, .s 6], [.s 1, .v 0], [.s 1, .v 1], [.s 1, .s 6, .v 1], [.s 1, .v 0, .v 1]] : List (List Opnd)), Ready base ops)
    ∧ base.checkOffset 0 0x3000 64 1 64 [0, 1] = none ∧ base.checkOffset 0 0x3000 64 2 64 [0, 1] = none
    ∧ (base.core base.myCore).movingBytes 0x3000 64 = false
    ∧ (∀ c < 64, here base ((0x3000 : Int) + (c : Nat)) (0x3000 + c) ∧ base.liveCounter base.myCore (0x3000 + c) = none)
    ∧ on base ≠ []
    ∧ base.checkWords 0 1 ((on base).map fun (e : Nat) => ((0x3000 + e * 8 : Nat) : Int)) = none
    ∧ (∀ e ∈ on base, (base.core base.myCore).movingBytes (0x3000 + e * 8) 4 = false ∧ here base ((0x3000 : Int) + e * (base.rS 6).toInt) (0x3000 + e * 8))
    ∧ (shadowFull.checkOffset 0 0x1000 64 2 64 [0, 1] = none ∧ Ready shadowFull [.s 1, .v 1] ∧ (shadowFull.rK 0).getLsbD 5 = true
        ∧ (shadowFull.core shadowFull.myCore).movingBytes 0x1000 64 = false
        ∧ ∀ c < 64, shadowFull.target (shadowFull.segAddr 0 (0x1000 + (c : Nat))) = .own (0x1000 + c) ∧ written shadowFull (0x1000 + c) = none) := by
  unfold Ready; decide +kernel

/-- A core without room in the matrix queue or with a latch that cannot take a tile; a C tile in the template window whose
copies delay the entry. -/
theorem witness_MatrixIssue_waits :
    (∀ m ∈ [{ latch1 := .outgoing ⟨1, []⟩ }, { latch1 := .full ⟨1, []⟩, queue := [{ mxHead with latch := 1 }] },
        { latch1 := .full ⟨1, []⟩ }, ({} : Matrix)],
      let s := tiles.modMx 0 fun _ => m
      let t := s.consumeAll [.s 11]
      Ready s [.s 11] ∧ t.tileCheck (t.rS 11).toNat (bBytes t.me.fmt) 1 = none
      ∧ (t.core t.myCore).movingBytes (addrOff (t.segAddr 0 (t.rS 11).toNat)) (bBytes t.me.fmt) = false)
    ∧ (({ latch1 := .full ⟨1, []⟩, queue := [{ mxHead with latch := 1 }] } : Matrix).inUse 1 = true
      ∧ ({ latch1 := .full ⟨1, []⟩ } : Matrix).inUse 1 = false)
    ∧ (let s := tiles.modMx 0 fun x => { x with queue := [mxHead, mxHead] }
       Ready s [] ∧ 2 ≤ ((s.consumeAll []).core 0).mx.queue.length)
    ∧ (let s := withS shadowing 12 0x1000
       let t := s.consumeAll [.s 12, .s 1]
       let co := addrOff (t.segAddr 0 (t.rS 12).toNat)
       Ready s [.s 12, .s 1] ∧ t.tileCheck (t.rS 12).toNat 1024 3 = none ∧ (t.core t.myCore).movingBytes co 1024 = false
       ∧ t.tileCheck (t.rS 1).toNat (aBytes t.me.fmt) 1 = none
       ∧ (t.tileOwn (tileParts co 1024)).any (fun u => decide (t.me.early < u.me.early)) = true) := by unfold Ready; decide +kernel

/-- An MBPASS, an entry whose A tile is in the buffer, tiles of other formats, and no tile there; hand-offs to a free buffer and to
one that is taken; tiles of the lengths of their formats. -/
theorem witness_MatrixEvents_more :
    (let e := { mxHead with op := .mbpass }
     let s := mxState e {}
     (s.core 0).mx.latch e.latch = .full ⟨1, []⟩ ∧ (s.core 0).mx.queue.find? (fun x => !x.running) = some e ∧ e.join ≤ s.cycle
     ∧ s.mxReady (s.core 0).mx = true ∧ (s.core 0).mx.loaded e.latch ≤ s.cycle)
    ∧ (let e := { mxHead with a := none }
       (∀ b ∈ [none, some (⟨1, []⟩ : Tile), some ⟨2, []⟩],
          let s := mxState e { bufA := b }
          (s.core 0).mx.bufA = b ∧ (s.core 0).mx.queue.find? (fun x => !x.running) = some e ∧ s.mxReady (s.core 0).mx = true)
       ∧ fmtA e.fmt = 1 ∧ fmtB e.fmt = 1 ∧ fmtB { mxHead with fmt := 0x72 }.fmt ≠ 1)
    ∧ (∀ op ∈ [MxOp.mma, .mmarb, .mmacn, .mbpass],
        let e := { mxHead with op := op, running := true, bTile := some ⟨1, []⟩ }
        let q := [{ mxHead with slot := 4, running := true, start := 30 }, e]
        let s := { inSlot 3 thread with cores := [(0, { mx := { queue := q } })], cycle := 40 }
        (s.core 0).mx.queue = q ∧ q.filter MxEntry.written = [] ∧ (q.map MxEntry.slot).Nodup
        ∧ (q.filter fun (x : MxEntry) => x.running && !x.written && decide (x.start + (if x.op = .mbpass then (0 : Nat) else 17) ≤ s.cycle)) = [e])
    ∧ (let e := { mxHead with running := true, written := true, op := .mmarb, legs := 1, wrote := 39 }
       let s := mxState e {}
       (s.core 0).mx.queue = [e] ∧ (s.core 0).mx.latch e.latch = .full ⟨1, []⟩ ∧ e.wrote < s.cycle
       ∧ s.handFree (ringNext 0) e.latch = true
       ∧ (s.modMx (ringNext 0) fun x => { x with buf0 := some ⟨1, []⟩ }).handFree (ringNext 0) e.latch = false)
    ∧ (({ latch0 := .empty, buf0 := some ⟨1, []⟩ } : Matrix).latch 0 = .empty
      ∧ ({ latch1 := .full ⟨2, []⟩, buf1 := some ⟨1, []⟩ } : Matrix).latch 1 ≠ .empty
      ∧ ({ latch1 := .full ⟨2, []⟩, buf1 := some ⟨1, []⟩ } : Matrix).buf 1 = some ⟨1, []⟩)
    ∧ (([0x11, 0x32, 0x155, 0x355, 0x72] : List Word).all fmtLegal = true
      ∧ ∀ w : Word, (List.replicate (aBytes w) (0 : Byte)).length = aBytes w ∧ (List.replicate (bBytes w) (0 : Byte)).length = bBytes w)
    ∧ (List.replicate 256 (0 : Nat)).length = 256 :=
  ⟨by decide +kernel, by decide +kernel, by decide +kernel, by decide +kernel, by decide +kernel,
    ⟨by decide +kernel, fun _ => ⟨List.length_replicate, List.length_replicate⟩⟩, List.length_replicate⟩

/-- HALT where the life-cycle state disables debug. -/
theorem witness_PrivilegeAndCalls_production :
    let s := base.modPkg fun g => { g with life := .production }
    (s.thr? s.cur).isSome = true ∧ s.me.userMode = false ∧ s.debugOk = false := by decide +kernel

/-- A thread that is trap-active, and one whose vector entry is not usable after a table read. -/
def vecAfter (v : VecRes) : State := match v with
  | .unusable u => u
  | .usable u _ _ _ _ => u
  | .absent _ _ _ => base
theorem witness_TrapEntry_dies :
    (let s := base.modMe fun t => { t with trapActive := true }
     (s.thr? 3).isSome = true ∧ (s.thr 3).trapActive = true)
    ∧ (let s := mapped.sramWrite 0 0x1F8 (leBytes 8 (2 ^ 63 + 2 ^ 56 + 2 ^ 32 + 0x4000))
       (s.thr? 3).isSome = true ∧ (s.thr 3).trapActive = false ∧ vecUnusable (s.vecEntry (coreOf 3) 0x3F) = true) := by decide +kernel

/-- The room of the task unit, and an event word of another core. -/
theorem witness_TaskInstructions_more :
    base.pkg.thr ≠ 3
    ∧ (let t := (facing 1).consumeAll [.s 1, .s 2]
       Ready (facing 1) [.s 1, .s 2] ∧ t.checkAccess 3 (t.rS 1).toNat 4 11 4 [0, 1] = none ∧ t.relWait = none
       ∧ t.target (t.segAddr 3 (t.rS 1).toNat) = .core 1 0x3000)
    ∧ (∀ sel ∈ ([1, 3, 0x1000, 0x40000, 0x7F000] : List Word), sel.toNat % 4 ≠ 0 ∨ sel.toNat / 4096 % 128 ≠ 0)
    ∧ ((0x7F000 : Word).toNat % 4 = 0 ∧ (0x80FFC : Word).toNat / 4096 % 128 = 0 ∧ (0x80FFC : Word).toNat % 4 = 0) := by
  unfold Ready; exact ⟨by decide +kernel, by decide +kernel, by simp, by simp⟩

theorem witness_FormeInstructions_more :
    (base.threads.map Prod.fst).Pairwise (· < ·)
    ∧ (let s := composed.modMe fun t => { t with kind := .impression 0 0 103 0 3 }
       let t := s.consumeAll [.s 2, .s 1]
       Ready s [.s 2, .s 1] ∧ t.me.kind = .impression 0 0 103 0 3 ∧ (t.rS 1).toNat % 4 = 0)
    ∧ (let s := withS composed 10 0x3FC
       let t := s.consumeAll [.s 2, .s 10]
       Ready s [.s 2, .s 10] ∧ (t.rS 10).toNat < 0x400 ∧ (t.rS 10).toNat % 4 = 0)
    ∧ (let s := withS composed 10 0x3C0
       let t := s.consumeAll [.v 1, .s 10]
       Ready s [.v 1, .s 10] ∧ (t.rS 10).toNat < 0x400 ∧ (t.rS 10).toNat % 64 = 0) := by unfold Ready; decide +kernel

/-- A full heap of 16 whose order holds, and the cases in which an entry is worse. -/
theorem witness_GateHeapOffer_order :
    (let l : List HeapEntry := (List.range 16).map fun i => (0x3F800000 + i, i)
     l.length = 16 ∧ (∀ i < 16, ∀ c ∈ [2 * i + 1, 2 * i + 2], c < l.length →
       HeapEntry.worse (l.getD c (0, 0)) (l.getD i (0, 0)) = false))
    ∧ HeapEntry.worse (0x7FC00000, 0) (0x3F800000, 0) = true ∧ HeapEntry.worse (0x7FC00000, 3) (0x7FC00000, 2) = true
    ∧ HeapEntry.worse (0x3F800000, 3) (0x3F800000, 2) = true ∧ HeapEntry.worse (0x3F800000, 2) (0x3F800000, 2) = false
    ∧ HeapEntry.worse (0xBF800000, 0) (0x3F800000, 0) = true := by decide +kernel

/-- Threads that a REPLAY_ALL frees: parked on a FAULTED page, at a descriptor and at an access; and none. -/
theorem witness_SystemUnitEvents_replay :
    (let p := { pending0 with faulted := true }
     let s := (mapped.modStorey 0 fun x => { x with pending := [p] }).modMe fun t => { t with park := some (.descPage 0 5) }
     p ∈ (s.storey 0).pending ∧ p.faulted = true ∧ (s.threads.map fun x => (x.1, x.2.park)) = [(3, some (.descPage 0 5))] ∧ coreOf 3 = 0)
    ∧ (let p := { pending0 with faulted := true }
       let s := (mapped.modStorey 0 fun x => { x with pending := [p] }).modMe fun t => { t with park := some (.page 0 5 .read 0x50000) }
       p ∈ (s.storey 0).pending ∧ (s.threads.map fun x => x.2.park) = [some (.page 0 5 .read 0x50000)])
    ∧ (units.storey 0).pending = [pending0] ∧ (units.threads.map fun x => x.2.park) = [none] := by decide +kernel

/-- A block that the tables refuse, and a partition without a storey. -/
theorem witness_HostApertures_refused :
    (let s := windowed.modPart 0 fun x => { x with wbase := 0x50000 }
     (s.windowPlace 0 ((s.part 0).wbase + 0) true).2 = none ∧ (s.windowPlace 0 ((s.part 0).wbase + 0) false).2 = none
     ∧ s.remapRead 0 ((s.part 0).wbase + 0) = some 0x50000)
    ∧ (base.part 1).smask = 0
    ∧ (((windowed.part 0).wbase + (2 ^ 36 - 1)) % 64 + 1 ≤ 64 ∧ (2 ^ 36 - 1) + [(1 : Byte)].length ≤ 2 ^ 36) := by decide +kernel

/-- A put whose heap place lies in a page whose writes a migration holds, and operations that take no place. -/
def heaped : GReq := { putting with hall := 0xFFF0 }
def heaping : State :=
  let s := arriving (doorState doorHall) heaped Config.fabricId
  { s with pkg := { s.pkg with migrations := [{ part := 0, page := 1, src := 16, dest := 32, recopies := 64 }] } }

theorem heapHeld_of_ne_put (s : State) (r : GReq) (hp : r.op ≠ .put) : s.heapHeld r 0 = false := by
  simp only [State.heapHeld]
  split
  · rfl
  · simp [hp]

theorem heaping_hallAt : heaping.hallAt heaped = some doorHall := (if_pos rfl).trans (by decide +kernel)

theorem witness_GalleryEvents_heap :
    heaping.heapHeld heaped 0 = true ∧ (atHome (wanting (halls.rV 9))).heapHeld (wanting (halls.rV 9)) 0 = false
    ∧ (atHome cancelling).heapHeld cancelling 0 = false := by
  refine ⟨?_, heapHeld_of_ne_put _ _ (by decide), heapHeld_of_ne_put _ _ (by decide)⟩
  rw [State.heapHeld, heaping_hallAt]
  decide +kernel

/-- A decrement that may start a system delivery's task, the last one, the wake while the module throttles, and completions that
wait for an event word: an absent page, and one whose writes a migration holds. -/
def evented (a : Nat) : Task := { emptyTask with record := { emptyTask.record with event := a } }
theorem witness_TaskEvents_waits :
    (let s := withAct dependent (.dec none 0 0x802 2 true)
     s.ready? 7 = some (.dec none 0 0x802 2 true) ∧ s.liveCounter 0 0x802 = some 0 ∧ 2 = (s.tcmWord 0 (0x802 / 4 * 4)).toNat)
    ∧ (withAct dependent (.dec none 0 0xFFF 1 false)).ready? 7 = some (.dec none 0 0xFFF 1 false)
    ∧ (let s := (withAct base (.wake task0)).modPkg fun g => { g with thr := 3 }
       s.pkg.thr = 3 ∧ s.pkg.tasks.length < 4096)
    ∧ ((withAct base (.wake task0)).modPkg fun g => { g with state := .standby }).pkg.state ≠ .active
    ∧ (let k := evented 0x50000
       let s := withTask mapped k
       s.task? 0 = some k ∧ s.taskDone 0 k = true ∧ s.writesLeft 0 = false ∧ s.signalAbsent k = some 0x50000)
    ∧ (let k := evented 0x10000
       let s := withTask mapped k
       let s := { s with pkg := { s.pkg with migrations := [{ part := 0, page := 1, src := 16, dest := 32, recopies := 64 }] } }
       s.task? 0 = some k ∧ s.taskDone 0 k = true ∧ s.writesLeft 0 = false ∧ s.signalAbsent k = none ∧ s.signalHeld k = true) := by
  decide +kernel

/-- A kept victim, a message whose descriptor's page is absent, packets of both classes, and packets for another package. -/
def vecAbsent (v : VecRes) : Option (Nat × Nat) := match v with
  | .absent page cls _ => some (page, cls)
  | _ => none
theorem witness_ThreadEvents_more :
    (let s := crowded.modCore 0 fun c => { c with victims := [(4, false)] }
     (s.core 0).victims = [(4, false)] ∧ (s.thr? 4).isSome = true ∧ (s.thr 4).exiting = false ∧ (s.thr 4).halted = false
     ∧ (s.thr 4).cancelled = false ∧ s.defers 4 = false)
    ∧ ((base.core 0).victims = [] ∧ base.wantVictim 0 = none)
    ∧ (let m : Message := ⟨0x3F, 1, 2, 3⟩
       let s := withAct ((mapped.modStorey 0 fun x => { x with sdtb := 0x50003 })) (.msg none 0 m)
       s.ready? 7 = some (.msg none 0 m) ∧ s.coreFenced 0 = false ∧ s.coreWiping 0 = false ∧ vecAbsent (s.vecEntry 0 m.type) = some (5, 1)
       ∧ (s.core 0).msgs.length < 64)
    ∧ (let k : ActKind := .packet .collective 1 0 [0x100, 5]
       let s := withAct (base.modCore 0 fun c => { c with rxColl := List.replicate 62 0 }) k
       s.ready? 7 = some k ∧ s.coreWiping 0 = false ∧ s.packetHeld .collective 1 0 = false ∧ (s.core 0).rxColl.length + 2 ≤ 64)
    ∧ (let k : ActKind := .away .collective 0 5 1 [0x100, 5] 2
       let s := withAct base k
       s.ready? 7 = some k ∧ s.isFenced 4 2 = false ∧ s.coreHeld (storeyOf 0) 0 = false ∧ s.pathHeld (rowLinks (storeyOf 0) (portDie 2)) = false
       ∧ (s.modPkg fun g => { g with fences := [{ kind := 4, unit := 2 }] }).isFenced 4 2 = true) := by decide +kernel

/-- A synchronising store of a cancelled thread, a load in a guarded region, an atomic of the core itself, a near-memory operation,
and a copy whose page is held. -/
theorem witness_TrafficEvents_more :
    (let k : ActKind := .load 19 0x100 0 0 [{ loc := place, n := 4, foot := 0x3000, size := 4, addr := 0x3000 }] (.scalar 5 4 false)
     let s := withAct (base.modCore 0 fun c => { c with shBase := 32, shSize := 32 }) k
     s.ready? 7 = some k ∧ s.footGuarded place 0x3000 4 = true ∧ base.footGuarded place 0x3000 4 = false)
    ∧ (base.coreOfAny 3 = base.unitOf place)
    ∧ ((withAct emptyWord (.sync { slot := 19, op := .stfe, d := 0, value := 7, remote := true, pc := 0, addr := 0, scope := .pkg } 0 0x3000)).syncNow
          0 0x3000 .stfe = true)
    ∧ base.scHeld = [] := by decide +kernel

/-- A result that comes down to a router with a round waiting, on a link that is held or not; a collective message at a port that is
fenced, or not; a contribution on a held link. -/
theorem witness_LandingGroupEvents_links :
    (let e := { entry0 with parent := 1 }
     let x : CollNode := { entry := some e, waiting := [([3], [])] }
     let s := (withAct base (.collDown 0 3 9)).modStorey 0 fun y => { y with nodes := [(3, x)] }
     s.ready? 7 = some (.collDown 0 3 9) ∧ (s.node false 0 3).entry = some e ∧ (s.node false 0 3).waiting = [([3], [])]
     ∧ s.downHeld 0 3 = false ∧ e.op ≠ 6)
    ∧ (let e := { entry0 with parent := 1 }
       let off : CollNode := { partials := [(1, contrib)] }
       let s := (withAct base (.collDown 0 3 9)).modStorey 0 fun y => { y with nodes := [(3, { entry := some e }), (4, off)] }
       s.downHeld 0 3 = true)
    ∧ (let k : ActKind := .collOut 0 5 3 1 (.partial_ contrib)
       let s := withAct base k
       s.ready? 7 = some k ∧ s.isFenced 4 (5 % 8) = false ∧ s.pathHeld (dieLinks 0 5) = false
       ∧ (s.modPkg fun g => { g with fences := [{ kind := 4, unit := 5 }] }).isFenced 4 (5 % 8) = true)
    ∧ (let off : CollNode := { locals := [contrib] }
       let s := (withAct (collState { entry0 with lcnt := 3 } []) (.collIn false 0 3 0 contrib)).modStorey 0 fun y =>
         { y with nodes := y.nodes ++ [(4, off)] }
       s.linkHeld false 0 0 contrib = true) := by decide +kernel

/-- Readings above and below the limits, at their boundaries, and fences of one cycle in order. -/
theorem witness_FaultPowerEvents_readings :
    (∀ p ∈ [(2201, 0), (4095, 104), (0, 96), (0, 104)], p.1 < 4096 ∧ p.2 < 256 ∧ (2200 < p.1 ∨ 95 < p.2) ∧ p.2 < 105)
    ∧ ({ base.pkg with offAt := some 9 } : Pkg).offAt ≠ none
    ∧ ((2100 : Nat) ≤ 2100 ∧ (90 : Nat) ≤ 90 ∧ base.pkg.power ≤ 2100 ∧ base.pkg.temp ≤ 90)
    ∧ (105 ≤ (255 : Nat) ∧ (255 : Nat) < 256 ∧ base.pkg.offAt = none ∧ base.pkg.tasks = [] ∧ base.pkg.pfMasked.getLsbD 2 = false)
    ∧ ([(0, 5, 1), (0, 6, 2), (3, 2, 1)] : List (Nat × Nat × Nat)).Pairwise (fun x y => x.1 < y.1 ∨ (x.1 = y.1 ∧ x.2.1 ≤ y.2.1))
    ∧ (base.isFenced 0 8191 = false ∧ base.isFenced 4 7 = false ∧ (base.modPkg fun g => { g with fences := [{ kind := 2, unit := 3 }] }).isFenced 2 3 = true)
    ∧ (mapped.pkg.keys.look 1).isSome = true := by decide +kernel

/-- A descriptor's write while the TDI is locked or runs, of one byte or several fields. -/
theorem witness_InterfaceEvents_locked :
    (base.part 0).tdi = .run ∧ ((base.modPart 0 fun x => { x with tdi := .locked }).part 0).tdi = .locked
    ∧ ((0x1F : Nat) < 0x20 ∧ ([0] : List Byte) ≠ []) := by decide +kernel

/-! ### Results worked by hand from the rules, and the spec's worked examples -/

def withV (s : State) (n : Nat) (v : VWord) : State := s.modMe fun t => { t with regs := t.regs.putV n v }
def withK (s : State) (n : Nat) (v : Mask) : State := s.modMe fun t => { t with regs := t.regs.putK n v }
/-- The next state holds a value in a scalar register, or in lanes of a vector register. -/
def givesS (o : Host.Outcome State Fault Refusal) (d : Nat) (v : Word) : Bool := after o fun t => t.rS d == v
def givesV (o : Host.Outcome State Fault Refusal) (d w : Nat) (ls : List Nat) : Bool :=
  after o fun t => (List.range ls.length).map (lane (t.rV d) w) == ls
def flags (o : Host.Outcome State Fault Refusal) (v : Word) : Bool := after o fun t => t.me.sys.astat == v

/-- s2 = 7, s3 = -2, s4 = 0x12345678. -/
theorem test_add_wraps : givesS (exec (.add 5 3 2) base) 5 5 = true := by decide +kernel
theorem test_mulh_signs :
    givesS (exec (.mulh 5 3 2) base) 5 0xFFFFFFFF = true ∧ givesS (exec (.mulhu 5 3 2) base) 5 6 = true
    ∧ givesS (exec (.mulhsu 5 2 3) base) 5 6 = true := by decide +kernel
/-- R141: division by zero, and the most negative number by -1. -/
theorem test_div_corners :
    givesS (exec (.div 5 4 0) base) 5 0xFFFFFFFF = true ∧ givesS (exec (.rem 5 4 0) base) 5 0x12345678 = true
    ∧ givesS (exec (.div 5 10 11) (withS (withS base 10 0x80000000) 11 0xFFFFFFFF)) 5 0x80000000 = true
    ∧ givesS (exec (.rem 5 10 11) (withS (withS base 10 0x80000000) 11 0xFFFFFFFF)) 5 0 = true := by decide +kernel
theorem test_clz_zero : givesS (exec (.clz 5 0) base) 5 32 = true ∧ givesS (exec (.ctz 5 0) base) 5 32 = true := by decide +kernel
theorem test_bswap : givesS (exec (.bswap 5 4) base) 5 0x78563412 = true := by decide +kernel
theorem test_source_is_destination : givesS (exec (.sub 2 2 2) base) 2 0 = true := by decide +kernel
theorem test_branch_back : after (exec (.bne 2 0 0x1FFE) base) (fun t => t.me.pc == 0x1FF8) = true := by decide +kernel
theorem test_jalr_links : after (exec (.jalr 31 1 4) base) (fun t => t.me.pc == 0x3004 && t.rS 31 == 0x2004) = true := by decide +kernel
/-- The bytes at 0x3000 are 0x81, 0x92, 0x83, 0x74, then 5, 6, 7, 8. -/
theorem test_ldb_extends : givesS (exec (.ldb 5 1 0 0) base) 5 0xFFFFFF81 = true ∧ givesS (exec (.ldbu 5 1 0 0) base) 5 0x81 = true := by
  decide +kernel
theorem test_ldw_little_endian : givesS (exec (.ldw 5 1 0 1) base) 5 0x08070605 = true := by decide +kernel
theorem test_stw_then_bytes :
    after (exec (.stw 4 1 0 0x3FF) base) (fun t => t.sramRead 0 0x2FFC 4 == [0x78, 0x56, 0x34, 0x12]) = true := by decide +kernel
theorem test_ldw_misaligned_traps :
    after (exec (.ldw 5 1 0 0) (withS mapped 1 0x3002)) (fun t => t.me.sys.tcause == 5 && t.me.pc == 0x4000 && t.me.sys.tpc == 0x2000)
      = true := by decide +kernel
theorem test_amoadd_old_value :
    after (exec (.amoadd 0 5 1 0 2) base) (fun t => t.rS 5 == 0x74839281 && t.sramRead 0 0x3000 4 == [0x88, 0x92, 0x83, 0x74]) = true := by
  decide +kernel
theorem test_ldfe_empties :
    after (exec (.ldfe 5 1 0 0) base) (fun t => t.rS 5 == 0x74839281 && !t.wordFull 0 0x3000) = true := by decide +kernel

/-- 12 R230: the masks and lanes of the spec's examples. -/
theorem test_viadd_wraps :
    givesV (exec (.viadd 5 3 1 2 0) (withV (withV base 1 0x7F) 2 1)) 3 8 [0x80, 0] = true
    ∧ givesV (exec (.viabs 5 3 1 0) (withV base 1 0x80)) 3 8 [0x80] = true := by decide +kernel
theorem test_vfma_rounds_once :
    let s := withV (withV base 1 0x3F81) 2 0x3F81
    givesV (exec (.vfma 1 3 1 2 0) (withV s 3 0xBF80)) 3 16 [0x3C80] = true ∧ flags (exec (.vfma 1 3 1 2 0) (withV s 3 0xBF80)) 1 = true
    ∧ givesV (exec (.vfma 1 3 1 2 0) (withV s 3 0xBF82)) 3 16 [0x3880] = true ∧ flags (exec (.vfma 1 3 1 2 0) (withV s 3 0xBF82)) 0 = true := by
  decide +kernel
theorem test_vcmp_mask :
    after (exec (.vcmp 1 0 2 1 3 0) (withV (withV base 1 (ofLanes 32 [0, 0, 0xBF800000, 0])) 3 0)) (fun t => t.rK 2 == 0xF00) = true := by
  decide +kernel
theorem test_vredsum_exact :
    givesV (exec (.vredsum 0 3 1 0) (withV base 1 (ofLanes 32 [0x3F800000, 0x33800000, 0x33800000]))) 3 32 [0x3F800001, 0] = true
    ∧ flags (exec (.vredsum 0 3 1 0) (withV base 1 (ofLanes 32 [0x3F800000, 0x33800000, 0x33800000]))) 0 = true := by decide +kernel
/-- 12 R242: VCVT.E4M3.F32.RNES of 1.0, 470.0, 0.001 and a NaN under k1 = 0xFFF7. -/
theorem test_vcvt_worked :
    let s := withK (withV (withV base 1 (ofLanes 32 [0x3F800000, 0x43EB0000, 0x3A83126F, 0x7FC00000])) 2 (ofLanes 8 (List.replicate 64 0xAA))) 1 0xFFF7
    givesV (exec (.vcvt 2 2 0 2 1 1) s) 2 8 ([0x38, 0x7E, 0x01, 0xAA] ++ List.replicate 60 0) = true
    ∧ flags (exec (.vcvt 2 2 0 2 1 1) s) 0x13 = true := by decide +kernel
theorem test_e4m3_value : givesV (exec (.vcvt 0 0 2 3 1 0) (withV base 1 0xC2)) 3 32 [0xC0200000] = true := by decide +kernel
theorem test_vput_wraps_lane :
    givesV (exec (.vput 1 4 5 1) (withS (withV base 1 0) 5 33)) 1 16 [0, 0x5678, 0] = true := by decide +kernel

/-- 13 R253: one product 1.0 and fifteen of 2^-24 in chunk 0. -/
theorem test_matrix_chunk_sum :
    (let one : MxElem := ⟨bf16.val 0x3F80, 0⟩
     let x : MxElem := ⟨bf16.val 0x3980, 0⟩
     let z : MxElem := ⟨bf16.val 0, 0⟩
     (sumBf16 0 (one :: (List.replicate 15 x ++ List.replicate 48 z)) (one :: (List.replicate 15 x ++ List.replicate 48 z))).1)
      = 0x3F800008 := by decide +kernel

/-- 14 R273: hall 12, HOMEF 1, f0 = 5. -/
theorem test_home_hash : homeHash 12 1 (fun _ => 5) = 0xFBC91FE2 ∧ State.reset.homeSlice 12 { hall0 with homef := 1 } (ofLanes 32 [5]) = 15 := by
  decide +kernel
/-- 09 R175: physical address 0x10_0000_0C00 under the reset fold, alone and in a domain of four slices. -/
theorem test_slice_select :
    State.reset.sliceOf 0x1000000C00 = 7 ∧ (State.reset.modSlice 1 fun x => { x with k := 2 }).sliceOf 0x1000000C00 = 3 := by decide +kernel
/-- 17 R317: d = 3, b = 6, salt 1, index 3. -/
theorem test_sketch_hash :
    let k : Sketch := { base := 0, depth := 3, log2w := 6, scale := -8, salt := 1, stat := 0 }
    (List.range 3).map (fun j => ((k.hash j 3), k.counter j (k.hash j 3).1)) = [((26, true), 0x68), ((62, false), 0x1F8), ((41, false), 0x2A4)]
    ∧ [0x3F000000, 0xBE800000, 0x3DCCCCCD, 0x3D800000].map k.fixed = [some (128, false), some (-64, false), some (26, false), some (16, false)] := by
  decide +kernel
/-- 01 R20: core 8191 at stage 5. -/
theorem test_coord : coreOf 131071 = 8191 ∧ storeyOf 8191 = 127 := by decide
/-- 05 R94: NRANKS 2, 16 cores: item 37 of ITEMBASE 0 is rank 0's sixth core's second. -/
theorem test_flat_items :
    let k : Task := { task0 with record := { record0 with flat := true, smask := 1, fmask := 1, itemBase := 0, itemCnt := 40 }, nranks := 2, ready := true }
    k.nextItem 5 = some 5 ∧ { k with perCore := [(5, 1)] }.nextItem 5 = some 37 := by decide +kernel
/-- 09 R179: the entry of a stack page at 0x1_2345_0000 under key 5. -/
theorem test_pte : pteClass 0x005000012345000F = .stack ∧ pteTable 0x005000012345000F = 0x123450000 := by decide +kernel
/-- 20 R361: the worked offers of scores 0.125, 0.375, 0.25, 0.375, -0.5, 0.75, 0.375, 0.0625 for experts 0-7. -/
theorem test_hsift_offers :
    ([0x3E000000, 0x3EC00000, 0x3E800000, 0x3EC00000, 0xBF000000, 0x3F400000, 0x3EC00000, 0x3D800000] : List Nat).zipIdx.foldl
      (fun l p => heapOffer 2 l p) [] = [(0x3EC00000, 1), (0x3F400000, 5)] := by decide +kernel
/-- 10 R193: requests A to E at a full word that holds 5. -/
def arrives (s : State) (op : SyncOp) (slot : Nat) (v : Word) : State :=
  let r : SyncReq := { slot := slot, op := op, d := 5, value := v, remote := true, pc := 0, addr := 0, scope := .pkg }
  match execSyncRequestArrival 7 { s with acts := s.acts.put 7 { flows := [], kind := .sync r 0 0x3000 } } with
  | .next t => t
  | _ => s
theorem test_sync_queues :
    let a := arrives (base.sramWrite 0 0x3000 [5, 0, 0, 0]) .ldfe 17 0
    let c := arrives (arrives a .ldfe 18 0) .stfe 19 7
    let e := arrives (arrives c .ldff 20 0) .stff 21 9
    (a.wordFull 0 0x3000, a.tcmWord 0 0x3000) = (false, 5)
    ∧ (c.wordFull 0 0x3000, c.tcmWord 0 0x3000, (c.syncQueues 0 0x3000).full.length) = (false, 7, 0)
    ∧ (e.wordFull 0 0x3000, e.tcmWord 0 0x3000, (e.syncQueues 0 0x3000).full.length) = (true, 9, 0) := by decide +kernel
/-- 08 R140: rows of the worked table. -/
theorem test_alu_table :
    let s := withS (withS base 10 0x80000000) 11 35
    givesS (exec (.sra 5 10 11) s) 5 0xF0000000 = true ∧ givesS (exec (.mulh 5 10 10) s) 5 0x40000000 = true
    ∧ givesS (exec (.div 5 10 11) (withS (withS s 10 0xFFFFFFF9) 11 2)) 5 0xFFFFFFFD = true
    ∧ givesS (exec (.rem 5 10 11) (withS (withS s 10 0xFFFFFFF9) 11 2)) 5 0xFFFFFFFF = true
    ∧ givesS (exec (.sexth 5 10) (withS s 10 0x8001)) 5 0xFFFF8001 = true
    ∧ givesS (exec (.lui 5 0x1FFFFF) s) 5 0xFFFFF800 = true := by decide +kernel

end Sys2Proof.Tests
end

section
/-!
PROOFS. Encoding: decoding gives back every encoded instruction, and answers only what it has checked (02 R32-R37).
-/

namespace Sys2Proof.Proofs

open Sys2Proof Sys2Proof.Cert Sys2Proof.Laws.Encoding

/-! ### Fields of a word (02 R32) -/

/-- The `k` bits of `w` from `lo` hold `x`; an operand may be read from fewer of them. -/
abbrev Holds (w lo k x : Nat) : Prop := ∀ n ≤ k, bits w lo n = BitVec.ofNat n x

theorem Holds.of_fld {w lo k x : Nat} (h : fld w lo k = x) : Holds w lo k x := by
  intro n hn
  have hmod : fld w lo n = x % 2 ^ n := by
    rw [← h]
    exact (Nat.mod_mod_of_dvd _ (Nat.pow_dvd_pow 2 hn)).symm
  apply BitVec.eq_of_toNat_eq
  simp [bits, hmod]

/-! ### From a word's fields to its instruction, format by format (02 R32)

For a word whose fields are in range (`hr`) and whose opcode leads to `g` (`hg`), it is enough that `g` answers the
instruction from the values of the fields (`hp`). -/

/-- The word of an instruction is one word of 32 bits, and names the instruction that decoding answers for it. -/
def Decodes (i : Instr) : Prop := ∀ w, encode i = some w → w < 2 ^ 32 ∧ parse w = .ok (coreOfWord i)

/-- It is enough to look at the one word that the encoder answers. -/
theorem decodes_of_word {i : Instr} {w : Nat} (he : encode i = some w) (hw : w < 2 ^ 32)
    (hp : parse w = .ok (coreOfWord i)) : Decodes i := by
  intro v hv
  obtain rfl : w = v := Option.some.inj (he.symm.trans hv)
  exact ⟨hw, hp⟩

section Formats

variable {i : Instr} {g : Nat → Except Reject Instr}
variable {op d a b f imm cond off seg sz u aop order vd va vb k t x2 mode m n : Nat}

theorem decodes_wordRR (hg : ∀ {w}, fld w 0 6 = op → parse w = g w) (he : encode i = some (wordRR op d a b f))
    (hr : op < 64 ∧ d < 32 ∧ a < 32 ∧ b < 32 ∧ f < 64)
    (hp : ∀ w, Holds w 6 5 d ∧ Holds w 11 5 a ∧ Holds w 16 5 b ∧ fld w 26 6 = f →
      g w = .ok (coreOfWord i)) :
    Decodes i := by
  obtain ⟨h0, h1, h2, h3, h4⟩ := hr
  refine decodes_of_word he (wordRR_lt h0 h1 h2 h3 h4)
    ((hg ?_).trans (hp _ ⟨.of_fld ?_, .of_fld ?_, .of_fld ?_, ?_⟩))
  all_goals unfold fld wordRR; omega

theorem decodes_wordRI (he : encode i = some (wordRI op d a imm))
    (hr : op < 64 ∧ d < 32 ∧ a < 32 ∧ imm < 65536)
    (hp : ∀ w, fld w 0 6 = op ∧ Holds w 6 5 d ∧ Holds w 11 5 a ∧ Holds w 16 16 imm →
      parse w = .ok (coreOfWord i)) :
    Decodes i := by
  obtain ⟨h0, h1, h2, h3⟩ := hr
  refine decodes_of_word he (wordRI_lt h0 h1 h2 h3)
    (hp _ ⟨?_, .of_fld ?_, .of_fld ?_, .of_fld ?_⟩)
  all_goals unfold fld wordRI; omega

theorem decodes_wordU (he : encode i = some (wordU op d imm))
    (hr : op < 64 ∧ d < 32 ∧ imm < 2097152)
    (hp : ∀ w, fld w 0 6 = op ∧ Holds w 6 5 d ∧ Holds w 11 21 imm →
      parse w = .ok (coreOfWord i)) :
    Decodes i := by
  obtain ⟨h0, h1, h2⟩ := hr
  refine decodes_of_word he (wordU_lt h0 h1 h2)
    (hp _ ⟨?_, .of_fld ?_, .of_fld ?_⟩)
  all_goals unfold fld wordU; omega

theorem decodes_wordB (hg : ∀ {w}, fld w 0 6 = op → parse w = g w) (he : encode i = some (wordB op a b cond off))
    (hr : op < 64 ∧ a < 32 ∧ b < 32 ∧ cond < 8 ∧ off < 8192)
    (hp : ∀ w, Holds w 6 5 a ∧ Holds w 11 5 b ∧ Holds w 19 13 off ∧ fld w 16 3 = cond →
      g w = .ok (coreOfWord i)) :
    Decodes i := by
  obtain ⟨h0, h1, h2, h3, h4⟩ := hr
  refine decodes_of_word he (wordB_lt h0 h1 h2 h3 h4)
    ((hg ?_).trans (hp _ ⟨.of_fld ?_, .of_fld ?_, .of_fld ?_, ?_⟩))
  all_goals unfold fld wordB; omega

theorem decodes_wordM (hg : ∀ {w}, fld w 0 6 = op → parse w = g w) (he : encode i = some (wordM op d a seg sz u imm))
    (hr : op < 64 ∧ d < 32 ∧ a < 32 ∧ seg < 8 ∧ sz < 4 ∧ u < 2 ∧ imm < 1024)
    (hp : ∀ w, Holds w 6 5 d ∧ Holds w 11 5 a ∧ Holds w 16 3 seg ∧ Holds w 22 10 imm ∧ fld w 19 3 = sz + 4 * u →
      g w = .ok (coreOfWord i)) :
    Decodes i := by
  obtain ⟨h0, h1, h2, h3, h4, h5, h6⟩ := hr
  refine decodes_of_word he (wordM_lt h0 h1 h2 h3 h4 h5 h6)
    ((hg ?_).trans (hp _ ⟨.of_fld ?_, .of_fld ?_, .of_fld ?_, .of_fld ?_, ?_⟩))
  all_goals unfold fld wordM; omega

theorem decodes_wordA (hg : ∀ {w}, fld w 0 6 = op → parse w = g w) (he : encode i = some (wordA op d a b seg aop order))
    (hr : op < 64 ∧ d < 32 ∧ a < 32 ∧ b < 32 ∧ seg < 8 ∧ aop < 16 ∧ order < 8)
    (hp : ∀ w, Holds w 6 5 d ∧ Holds w 11 5 a ∧ Holds w 16 5 b ∧ Holds w 21 3 seg ∧ Holds w 28 3 order
      ∧ fld w 24 4 = aop →
      g w = .ok (coreOfWord i)) :
    Decodes i := by
  obtain ⟨h0, h1, h2, h3, h4, h5, h6⟩ := hr
  refine decodes_of_word he (wordA_lt h0 h1 h2 h3 h4 h5 (by omega))
    ((hg ?_).trans (hp _ ⟨.of_fld ?_, .of_fld ?_, .of_fld ?_, .of_fld ?_, .of_fld ?_, ?_⟩))
  all_goals unfold fld wordA; omega

theorem decodes_wordV (hg : ∀ {w}, fld w 0 6 = op → parse w = g w) (he : encode i = some (wordV op vd va vb k t x2 f))
    (hr : op < 64 ∧ vd < 16 ∧ va < 16 ∧ vb < 16 ∧ k < 8 ∧ t < 8 ∧ x2 < 4 ∧ f < 64)
    (hp : ∀ w, Holds w 6 4 vd ∧ Holds w 10 4 va ∧ Holds w 14 4 vb ∧ Holds w 18 3 k ∧ Holds w 21 3 t ∧ Holds w 24 2 x2
      ∧ fld w 26 6 = f →
      g w = .ok (coreOfWord i)) :
    Decodes i := by
  obtain ⟨h0, h1, h2, h3, h4, h5, h6, h7⟩ := hr
  refine decodes_of_word he (wordV_lt h0 h1 h2 h3 h4 h5 h6 h7)
    ((hg ?_).trans (hp _ ⟨.of_fld ?_, .of_fld ?_, .of_fld ?_, .of_fld ?_, .of_fld ?_, .of_fld ?_, ?_⟩))
  all_goals unfold fld wordV; omega

theorem decodes_wordVM (hg : ∀ {w}, fld w 0 6 = op → parse w = g w) (he : encode i = some (wordVM op vd a seg k b mode imm))
    (hr : op < 64 ∧ vd < 16 ∧ a < 32 ∧ seg < 8 ∧ k < 8 ∧ b < 32 ∧ mode < 4 ∧ imm < 16)
    (hp : ∀ w, Holds w 6 4 vd ∧ Holds w 10 5 a ∧ Holds w 15 3 seg ∧ Holds w 18 3 k ∧ Holds w 21 5 b ∧ Holds w 28 4 imm
      ∧ fld w 26 2 = mode →
      g w = .ok (coreOfWord i)) :
    Decodes i := by
  obtain ⟨h0, h1, h2, h3, h4, h5, h6, h7⟩ := hr
  refine decodes_of_word he (wordVM_lt h0 h1 h2 h3 h4 h5 h6 h7)
    ((hg ?_).trans (hp _ ⟨.of_fld ?_, .of_fld ?_, .of_fld ?_, .of_fld ?_, .of_fld ?_, .of_fld ?_, ?_⟩))
  all_goals unfold fld wordVM; omega

theorem decodes_wordE (hg : ∀ {w}, fld w 0 6 = op → parse w = g w) (he : encode i = some (wordE op d a b m f))
    (hr : op < 64 ∧ d < 32 ∧ a < 32 ∧ b < 32 ∧ m < 8 ∧ f < 256)
    (hp : ∀ w, Holds w 6 5 d ∧ Holds w 11 5 a ∧ Holds w 16 5 b ∧ Holds w 21 3 m ∧ fld w 21 3 = m ∧ fld w 24 8 = f →
      g w = .ok (coreOfWord i)) :
    Decodes i := by
  obtain ⟨h0, h1, h2, h3, h4, h5⟩ := hr
  refine decodes_of_word he (wordE_lt h0 h1 h2 h3 h4 h5)
    ((hg ?_).trans (hp _ ⟨.of_fld ?_, .of_fld ?_, .of_fld ?_, .of_fld ?_, ?_, ?_⟩))
  all_goals unfold fld wordE; omega

theorem decodes_wordN (hg : ∀ {w}, fld w 0 6 = op → parse w = g w) (he : encode i = some (wordN op d n f))
    (hr : op < 64 ∧ d < 32 ∧ n < 4096 ∧ f < 256)
    (hp : ∀ w, Holds w 6 5 d ∧ Holds w 11 12 n ∧ fld w 24 8 = f →
      g w = .ok (coreOfWord i)) :
    Decodes i := by
  obtain ⟨h0, h1, h2, h3⟩ := hr
  refine decodes_of_word he (wordN_lt h0 h1 h2 h3)
    ((hg ?_).trans (hp _ ⟨.of_fld ?_, .of_fld ?_, ?_⟩))
  all_goals unfold fld wordN; omega

end Formats

/-! ### What each major opcode with a function field leads to (02 R33) -/

theorem parse_op01 {w : Nat} (h : fld w 0 6 = 0x01) : parse w = parse01 w := by simp only [parse, h]
theorem parse_op08 {w : Nat} (h : fld w 0 6 = 0x08) : parse w = parse08 w := by simp only [parse, h]
theorem parse_op0D {w : Nat} (h : fld w 0 6 = 0x0D) : parse w = parse0D w := by simp only [parse, h]
theorem parse_op0E {w : Nat} (h : fld w 0 6 = 0x0E) : parse w = parse0E w := by simp only [parse, h]
theorem parse_op0F {w : Nat} (h : fld w 0 6 = 0x0F) : parse w = parse0F w := by simp only [parse, h]
theorem parse_op10 {w : Nat} (h : fld w 0 6 = 0x10) : parse w = parse10 w := by simp only [parse, h]
theorem parse_op11 {w : Nat} (h : fld w 0 6 = 0x11) : parse w = parse11 w := by simp only [parse, h]
theorem parse_op12 {w : Nat} (h : fld w 0 6 = 0x12) : parse w = parse12 w := by simp only [parse, h]
theorem parse_op13 {w : Nat} (h : fld w 0 6 = 0x13) : parse w = parse13 w := by simp only [parse, h]
theorem parse_op14 {w : Nat} (h : fld w 0 6 = 0x14) : parse w = parse14 w := by simp only [parse, h]
theorem parse_op15 {w : Nat} (h : fld w 0 6 = 0x15) : parse w = parse15 w := by simp only [parse, h]
theorem parse_op16 {w : Nat} (h : fld w 0 6 = 0x16) : parse w = parse16 w := by simp only [parse, h]
theorem parse_op17 {w : Nat} (h : fld w 0 6 = 0x17) : parse w = parse17 w := by simp only [parse, h]
theorem parse_op18 {w : Nat} (h : fld w 0 6 = 0x18) : parse w = parse18 w := by simp only [parse, h]
theorem parse_op19 {w : Nat} (h : fld w 0 6 = 0x19) : parse w = parse19 w := by simp only [parse, h]
theorem parse_op1A {w : Nat} (h : fld w 0 6 = 0x1A) : parse w = parse1A w := by simp only [parse, h]
theorem parse_op1B {w : Nat} (h : fld w 0 6 = 0x1B) : parse w = parse1B w := by simp only [parse, h]
theorem parse_op1C {w : Nat} (h : fld w 0 6 = 0x1C) : parse w = parse1C w := by simp only [parse, h]
theorem parse_op1D {w : Nat} (h : fld w 0 6 = 0x1D) : parse w = parse1D w := by simp only [parse, h]
theorem parse_op1E {w : Nat} (h : fld w 0 6 = 0x1E) : parse w = parse1E w := by simp only [parse, h]
theorem parse_op1F {w : Nat} (h : fld w 0 6 = 0x1F) : parse w = parse1F w := by simp only [parse, h]
theorem parse_op20 {w : Nat} (h : fld w 0 6 = 0x20) : parse w = parse20 w := by simp only [parse, h]
theorem parse_op21 {w : Nat} (h : fld w 0 6 = 0x21) : parse w = parse21 w := by simp only [parse, h]
theorem parse_op22 {w : Nat} (h : fld w 0 6 = 0x22) : parse w = parse22 w := by simp only [parse, h]
theorem parse_op23 {w : Nat} (h : fld w 0 6 = 0x23) : parse w = parse23 w := by simp only [parse, h]
theorem parse_op24 {w : Nat} (h : fld w 0 6 = 0x24) : parse w = parse24 w := by simp only [parse, h]
theorem parse_op25 {w : Nat} (h : fld w 0 6 = 0x25) : parse w = parse25 w := by simp only [parse, h]

/-! ### Every instruction decodes (02 R33-R36) -/

/-- DEC with an event names a segment other than sg0, which tells its word from plain DEC (02 R36). -/
theorem decEvent_seg_ne_zero {seg : BitVec 3} {a b : BitVec 5} (h : (Instr.decEvent seg a b).illFormed = none) :
    seg.toNat ≠ 0 := by
  intro h0
  obtain rfl : seg = 0 := BitVec.eq_of_toNat_eq h0
  simp [Instr.illFormed, need] at h

/-- The instructions of one major opcode share a format; an event has no word. -/
theorem decodes_of_wellFormed (i : Instr) (hwf : i.illFormed = none) : Decodes i := by
  cases i with
  | add | sub | and | or | xor | andn | orn | xnor | sll | srl | sra | rol | ror | slt | sltu | min | max | minu | maxu
  | mul | mulh | mulhu | mulhsu | div | divu | rem | remu | clz | ctz | popc | sextb | sexth | zexth | bswap =>
    exact decodes_wordRR parse_op01 rfl (by omega) fun _ hw => by simp [parse01, hw, coreOfWord]
  | addi | andi | ori | xori | slti | sltiu | jalr =>
    exact decodes_wordRI rfl (by omega) fun _ hw => by simp [parse, hw, coreOfWord]
  | slli | srli | srai =>
    exact decodes_wordRR parse_op08 rfl (by omega) fun _ hw => by simp [parse08, hw, coreOfWord]
  | lui | adpc | jal =>
    exact decodes_wordU rfl (by omega) fun _ hw => by simp [parse, hw, coreOfWord]
  | beq | bne | blt | bge | bltu | bgeu =>
    exact decodes_wordB parse_op0D rfl (by omega) fun _ hw => by simp [parse0D, hw, coreOfWord]
  | ldb | ldbu | ldh | ldhu | ldw =>
    exact decodes_wordM parse_op0E rfl (by omega) fun _ hw => by simp [parse0E, hw, coreOfWord]
  | stb | sth | stw =>
    exact decodes_wordM parse_op0F rfl (by omega) fun _ hw => by simp [parse0F, hw, coreOfWord]
  | ldfe | ldff | stfe | stff =>
    exact decodes_wordM parse_op10 rfl (by omega) fun _ hw => by simp [parse10, hw, coreOfWord]
  | amoadd | amoswap | amocas | amoand | amoor | amoxor | amomin | amomax | amominu | amomaxu =>
    exact decodes_wordA parse_op11 rfl (by omega) fun _ hw => by simp [parse11, hw, coreOfWord]
  | fence | drain | feclr | trig | waitc | ncmp | nred =>
    exact decodes_wordE parse_op12 rfl (by omega) fun _ hw => by simp [parse12, hw, coreOfWord]
  | cpy | cpyg | cpys | cpyf =>
    exact decodes_wordE parse_op13 rfl (by omega) fun _ hw => by simp [parse13, hw, coreOfWord]
  | wtany | wtall | tfirst | tclr | tstat =>
    exact decodes_wordE parse_op14 rfl (by omega) fun _ hw => by simp [parse14, hw, coreOfWord]
  | vld | vlds | vldx =>
    exact decodes_wordVM parse_op15 rfl (by omega) fun _ hw => by simp [parse15, hw, coreOfWord]
  | vst | vsts | vstx =>
    exact decodes_wordVM parse_op16 rfl (by omega) fun _ hw => by simp [parse16, hw, coreOfWord]
  | viadd | visub | vimul | vimin | vimax | viand | vior | vixor | visll | visrl | visra | viabs =>
    exact decodes_wordV parse_op17 rfl (by omega) fun _ hw => by simp [parse17, hw, coreOfWord]
  | vadd | vsub | vmul | vfma | vfms | vmin | vmax | vabs | vneg | vsqrt | vrcp | vrsq | vexp2 | vscl =>
    exact decodes_wordV parse_op18 rfl (by omega) fun _ hw => by simp [parse18, hw, coreOfWord]
  | vcmp | vsel | vshuf | vslide | vredsum | vredmax | vredmin | vcvt | kand | kor | knot | kmov =>
    exact decodes_wordV parse_op19 rfl (by omega) fun _ hw => by simp [parse19, hw, coreOfWord]
  | vbcast | vget | vput | kget | kset =>
    exact decodes_wordE parse_op1A rfl (by omega) fun _ hw => by simp [parse1A, hw, coreOfWord]
  | mma | mmarb | mmacn | mbld | mbpass | mzero | mfmt | mfmtq =>
    exact decodes_wordE parse_op1B rfl (by omega) fun _ hw => by simp [parse1B, hw, coreOfWord]
  | put | putg | read | take | tcancel =>
    exact decodes_wordE parse_op1C rfl (by omega) fun _ hw => by simp [parse1C, hw, coreOfWord]
  | halldefDefine | halldefRetire | hallq | split | splst =>
    exact decodes_wordE parse_op1D rfl (by omega) fun _ hw => by simp [parse1D, hw, coreOfWord]
  | skset | skupd | skqry | skadd | skclr =>
    exact decodes_wordE parse_op1E rfl (by omega) fun _ hw => by simp [parse1E, hw, coreOfWord]
  | freeze | nest | njoin | tstw | tstv | finfo =>
    exact decodes_wordE parse_op1F rfl (by omega) fun _ hw => by simp [parse1F, hw, coreOfWord]
  | msg | rput | rputv | empty | emptyv | testp | testpVector | wfm =>
    exact decodes_wordE parse_op20 rfl (by omega) fun _ hw => by simp [parse20, hw, coreOfWord]
  | landa | landw | landaw | landq =>
    exact decodes_wordE parse_op21 rfl (by omega) fun _ hw => by simp [parse21, hw, coreOfWord]
  | cgput | cgputv | cgget | cggetv | cgset =>
    exact decodes_wordE parse_op22 rfl (by omega) fun _ hw => by simp [parse22, hw, coreOfWord]
  | decEvent =>
    have hseg := decEvent_seg_ne_zero hwf
    exact decodes_wordE parse_op23 rfl (by omega) fun _ hw => by simp [parse23, hw, hseg, coreOfWord]
  | spawn | dec | exit | yield =>
    exact decodes_wordE parse_op23 rfl (by omega) fun _ hw => by simp [parse23, hw, coreOfWord]
  | hsift | remapwAppend | remapwRelease | remapwClose | remapcPool | remapcDefine | remapcReset =>
    exact decodes_wordE parse_op24 rfl (by omega) fun _ hw => by simp [parse24, hw, coreOfWord]
  | sysrd | syswr | sysset | sysclr =>
    exact decodes_wordN parse_op25 rfl (by omega) fun _ hw => by simp [parse25, hw, coreOfWord]
  | ecall | brk | tret | halt | segld | segrd =>
    exact decodes_wordE parse_op25 rfl (by omega) fun _ hw => by simp [parse25, hw, coreOfWord]
  | _ => exact fun _ he => nomatch he

/-! ### Decoding (02 R37) -/

/-- Decoding answers what parsing names, when that is well formed and has this very word. -/
theorem decodeWord_of_parse {w : Nat} {i : Instr} (hp : parse w = .ok i) (hwf : i.illFormed = none)
    (he : encode i = some w) : decodeWord w = .ok i := by
  have h0 : w ≠ 0 := by
    rintro rfl
    cases hp
  simp [decodeWord, h0, hp, hwf, he]

/-- What decoding answers is well formed, and its word is the one decoded. -/
theorem decodeWord_ok {w : Nat} {i : Instr} (h : decodeWord w = .ok i) : i.illFormed = none ∧ encode i = some w := by
  unfold decodeWord at h
  split at h
  · cases h
  · split at h
    · cases h
    · split at h
      · cases h
      · rename_i hwf
        split at h
        · rename_i he
          cases h
          exact ⟨hwf, he⟩
        · cases h

/-- No instruction has an opcode outside 0x01-0x25. -/
theorem parse_unlisted_opcode {w : Nat} (h : w % 64 = 0 ∨ 38 ≤ w % 64) : parse w = .error .opcode := by
  have hop : fld w 0 6 = w % 64 := by simp [fld]
  unfold parse
  split
  case h_38 => rfl
  all_goals omega

theorem decodeWord_unlisted_opcode {w : Nat} (h : w % 64 = 0 ∨ 38 ≤ w % 64) : ∃ r, decodeWord w = .error r := by
  by_cases h0 : w = 0
  · exact ⟨.zeroWord, by simp [decodeWord, h0]⟩
  · exact ⟨.opcode, by simp [decodeWord, h0, parse_unlisted_opcode h]⟩

/-- Rows that share a word have the same value limits and the same word. -/
theorem coreOfWord_illFormed (i : Instr) (h : i.illFormed = none) : (coreOfWord i).illFormed = none := by
  unfold coreOfWord
  split
  case h_6 => exact h
  all_goals rfl

theorem encode_coreOfWord (i : Instr) : encode (coreOfWord i) = encode i := by
  unfold coreOfWord
  split <;> rfl

/-- Settles O54: the fields of each format are read back from its word, so that parsing names the instruction of the
word, and decoding confirms it. -/
theorem decodeEncode : Obligations.DecodeEncode := by
  intro i w hwf he
  obtain ⟨hw, hp⟩ := decodes_of_wellFormed i hwf w he
  exact ⟨hw, decodeWord_of_parse hp (coreOfWord_illFormed i hwf) ((encode_coreOfWord i).trans he)⟩

/-- Settles O55: the words written out are decoded; an opcode that R37 lists is refused whatever the rest of its word; and
what decoding answers is what it has checked. -/
theorem decodeWords : Obligations.DecodeWords := by
  unfold Obligations.DecodeWords
  refine ⟨?_, ?_, ?_, ?_, ?_, ?_, ?_, ?_, ?_, fun _ => decodeWord_unlisted_opcode, fun _ _ => decodeWord_ok⟩
  all_goals decide +kernel

end Sys2Proof.Proofs
end

section
/-!
PROOFS. Privilege: supervisor-only instructions in user mode, and ECALL, BREAK, TRET and HALT (R38, R154, R160).
-/

namespace Sys2Proof.Proofs

open Sys2Proof Sys2Proof.Machine Sys2Proof.Cert

/-- An access to a system register that user mode may not name is performed under the check of the mode (R154). -/
theorem sysAccess_priv {s : State} {n : Nat} (i : Instr) (ops : List Opnd) (body : State → Res) (h : sysPriv n = true) :
    s.sysAccess i n ops body = s.performPriv i ops body := by
  simp [State.sysAccess, h]

/-- R38: every supervisor-only instruction is performed under the check of the mode. -/
theorem exec_supervisorOnly {i : Instr} (s : State) (h : supervisorOnly i = true) :
    ∃ ops body, exec i s = s.performPriv i ops body := by
  cases i with
  | halldefDefine | halldefRetire | hallq | split | splst | cgset | remapcPool | remapcDefine | remapcReset | tret | halt =>
    exact ⟨_, _, rfl⟩
  | segld sg a =>
    obtain rfl : sg = 1 := eq_of_beq h
    exact ⟨_, _, rfl⟩
  | sysrd d n =>
    have hn : BitVec.ofNat 12 n.toNat = n := by simp
    exact ⟨_, _, (sysAccess_priv _ _ _ h).trans (by rw [hn])⟩
  | syswr | sysset | sysclr => exact ⟨_, _, sysAccess_priv _ _ _ h⟩
  | _ => cases h

theorem consumeAll_nil (s : State) : s.consumeAll [] = s := by
  have hc : s.consume [] = s := by unfold State.consume; split <;> rfl
  unfold State.consumeAll
  rw [hc, State.observe_none (.inr fun _ => List.not_mem_nil)]

/-- An instruction without operands does what its body says. -/
theorem perform_nil {s : State} (body : State → Res) (h : (s.thr? s.cur).isSome = true) :
    s.perform [] body = .next (s.finish (body s)) := by
  rw [State.perform_ready body h rfl, consumeAll_nil]

/-- A supervisor-only instruction without operands, in supervisor mode. -/
theorem performPriv_nil {s : State} (i : Instr) (body : State → Res) (h : (s.thr? s.cur).isSome = true)
    (hm : s.me.userMode = false) : s.performPriv i [] body = .next (s.finish (body s)) := by
  rw [State.performPriv_super i [] body h hm, perform_nil body h]

/-- Settles O25: a supervisor-only instruction is performed under the check of the mode, which comes first; the four
others have no operands. -/
theorem privilegeAndCalls : Obligations.PrivilegeAndCalls := by
  unfold Obligations.PrivilegeAndCalls
  refine ⟨?_, fun s h => ⟨?_, ?_, ?_, ?_, ?_⟩⟩
  · intro i s h hm hi
    obtain ⟨ops, body, he⟩ := exec_supervisorOnly s hi
    rw [he]
    exact State.performPriv_user i ops body h hm
  · rw [exec_ecall, execEcall, perform_nil _ h, State.finish_trapNext]
  · rw [exec_brk, execBrk, perform_nil _ h, State.finish_trapNext]
  · intro hm
    rw [exec_tret, execTret, performPriv_nil _ _ h hm, State.finish_gone]
  · intro hm hd
    rw [exec_halt, execHalt, performPriv_nil _ _ h hm, if_pos hd, State.finish_gone]
  · intro hm hd
    rw [exec_halt, execHalt, performPriv_nil _ _ h hm, if_neg (by simp [hd]), State.finish_gone]

end Sys2Proof.Proofs
end

section
/-!
PROOFS. Issue: a step in which a core takes its position runs what the slot's thread fetches (R32, R38, R121-R124).
-/

namespace Sys2Proof.Proofs

open Sys2Proof Sys2Proof.Machine Sys2Proof.Cert

/-! ### The fetch (R32, R38) -/

theorem fetchWord_ok {s : State} {bs rest : List Byte} {i : Instr} (h : decode bs = .ok (i, rest)) :
    fetchWord s bs = .run s i := by
  simp [fetchWord, h]

theorem fetchWord_error {s : State} {bs : List Byte} {e : Reject} (h : decode bs = .error e) :
    fetchWord s bs = .trap s 1 (BitVec.ofNat 64 (leNat (bs.take 4))) := by
  simp [fetchWord, h]

/-- A core whose storey is not being wiped wipes nothing of another partition. -/
theorem wipesForeign_of_not_wiping {s : State} {c : Nat} (part : Nat) (h : s.coreWiping c = false) :
    s.wipesForeign part c = false := by
  simp [State.wipesForeign, h]

section Fetch

variable {u : State}

theorem fetch_past_limit (h : (u.seg 1).limit.toNat < u.me.pc.toNat + 4) : u.fetch = .trap u 3 (u.me.pc.zeroExtend 64) := by
  simp [State.fetch, h]

theorem fetch_no_right (hl : u.me.pc.toNat + 4 ≤ (u.seg 1).limit.toNat) (hz : spaceZeros (u.segAddr 1 u.me.pc.toNat).toNat = true)
    (hx : (u.seg 1).has rgtX = false) : u.fetch = .trap u 4 (u.me.pc.zeroExtend 64) := by
  simp [State.fetch, Nat.not_lt.2 hl, hz, hx]

/-- The fetch passes the checks of limit, zero fields and right (R38). -/
def FetchAllowed (u : State) : Prop :=
  u.me.pc.toNat + 4 ≤ (u.seg 1).limit.toNat ∧ spaceZeros (u.segAddr 1 u.me.pc.toNat).toNat = true ∧ (u.seg 1).has rgtX = true
  ∧ u.guardedHere (u.segAddr 1 u.me.pc.toNat) 4 = false

theorem fetch_own (h : FetchAllowed u) {off : Nat} (ht : u.target (u.segAddr 1 u.me.pc.toNat) = .own off)
    (hm : (u.core u.myCore).movingBytes off 4 = false) :
    u.fetch = fetchWord u (u.readLoc u.myPart (.sram u.myCore (u.tcmRead u.cur off)) 4) := by
  obtain ⟨hl, hz, hx, hg⟩ := h
  simp [State.fetch, Nat.not_lt.2 hl, hz, hx, hg, ht, hm]

theorem fetch_core (h : FetchAllowed u) {c off : Nat} (ht : u.target (u.segAddr 1 u.me.pc.toNat) = .core c off)
    (hf : u.coreFenced c = false) (hw : u.coreWiping c = false) (hm : (u.core c).movingBytes off 4 = false)
    (hc : (u.core c).guarded off 4 = false) : u.fetch = fetchWord u (u.readLoc u.myPart (.sram c off) 4) := by
  obtain ⟨hl, hz, hx, hg⟩ := h
  simp [State.fetch, Nat.not_lt.2 hl, hz, hx, hg, ht, hf, hw, wipesForeign_of_not_wiping _ hw, hm, hc]

theorem fetch_global (h : FetchAllowed u) {va : Nat} {w : State} {e : TlbEntry}
    (ht : u.target (u.segAddr 1 u.me.pc.toNat) = .global va)
    (hv : u.windowAt u.myPart va = none) (hw : u.translate u.myCore u.myPart va .fetch = .ok w e)
    (hf : w.locFenced (.phys e.cls (e.phys va) e.key) = false) :
    u.fetch = fetchWord (w.reach (storeyOf w.myCore) w.myPart 0 (.phys e.cls (e.phys va) e.key))
      (w.readOwn w.cur w.myPart (.phys e.cls (e.phys va) e.key) 4) := by
  obtain ⟨hl, hz, hx, hg⟩ := h
  simp [State.fetch, Nat.not_lt.2 hl, hz, hx, hg, ht, hv, hw, hf]

end Fetch

/-! ### One issue (R121-R124, R387) -/

section Issue

variable {s v : State} {id : Nat} (hx : (s.thr id).exiting = false) (hr : s.canRaise id = false)
include hx hr

theorem issueSlot_run {i : Instr} (hf : (s.beginIssue id).fetch = .run v i) : s.issueSlot id = exec i v := by
  simp [State.issueSlot, hx, hr, hf]

theorem issueSlot_trap {cause : Nat} {val : Addr} (hf : (s.beginIssue id).fetch = .trap v cause val) :
    s.issueSlot id = .next (v.takeTrap id cause val v.me.pc) := by
  simp [State.issueSlot, hx, hr, hf]

/-- A fetch that reads a word: one that decodes is performed, and one that does not traps ILLEGAL_INSN. -/
theorem issueSlot_fetchWord {bs : List Byte} (hf : (s.beginIssue id).fetch = fetchWord v bs) :
    (∀ i rest, decode bs = .ok (i, rest) → s.issueSlot id = exec i v)
    ∧ (∀ e, decode bs = .error e → s.issueSlot id = .next (v.takeTrap id 1 (BitVec.ofNat 64 (leNat (bs.take 4))) v.me.pc)) :=
  ⟨fun _ _ hd => issueSlot_run hx hr (hf.trans (fetchWord_ok hd)),
    fun _ hd => issueSlot_trap hx hr (hf.trans (fetchWord_error hd))⟩

end Issue

/-! ### Turns (R121-R122) -/

section Turn

variable {s : State} {core slot : Nat} (hon : s.pkg.state ≠ .off)
include hon

/-- A core takes its position: the slot that the rotation picks issues, and the core issues once in the cycle. -/
theorem turn_issue (hs : s.settled = false) (ht : (s.core core).turned ≤ s.cycle) (hp : s.pickSlot core = some slot) :
    s.turn (.issue core) = (s.modCore core fun c => { c with turned := s.cycle + 1 }).issueSlot (slotidOf core slot) := by
  simp [State.turn, hon, State.isDue, hs, ht, hp, State.issueTurn]

/-- A core that has issued in this cycle, or whose cycle's issues are over, has no turn. -/
theorem turn_issue_over (h : s.cycle < (s.core core).turned ∨ s.settled = true) : s.turn (.issue core) = .next s := by
  have hdue : s.isDue core = false := by
    rcases h with h | h
    · simp [State.isDue, Nat.not_le.2 h]
    · simp [State.isDue, h]
  simp [State.turn, hon, hdue]

end Turn

section Step

variable {s : State} {t : Turn} {r : List Turn} (hag : s.agenda = t :: r)
include hag

/-- An issue, and any turn that no issue is due before, is taken. -/
theorem step_turn (h : t.isIssue = true ∨ s.dueCores = []) : step s = ({ s with agenda := r }).turn t := by
  rcases h with h | h <;> simp [step, hag, h]

/-- Another turn waits for the issues that are due. -/
theorem step_due_first (hon : s.pkg.state ≠ .off) (ht : t.isIssue = false) (hd : s.dueCores ≠ []) : step s = s.issueDue := by
  simp [step, hag, hon, ht, hd]

end Step

/-- Settles O56: a step in which a core takes its position is the issue of the slot that the rotation picks, and its fetch
is one of those that the lemmas on `State.fetch` give; the other turns are the agenda's. -/
theorem stepRunsDecoded : Obligations.StepRunsDecoded := by
  unfold Obligations.StepRunsDecoded
  refine ⟨?_, ?_, ?_⟩
  · intro s core slot r hag hon hs ht s0 s1 id u a hp _ hexit hr hl hz hright hg
    have hstep : step s = s1.issueSlot id := (step_turn hag (.inl rfl)).trans (turn_issue (s := s0) hon hs ht hp)
    have hx : (s1.thr id).exiting = false := hexit
    have hok : FetchAllowed u := ⟨hl, hz, hright, hg⟩
    rw [hstep]
    refine ⟨fun off ho hm => ?_, fun va w e hv hwin htr hf => ?_, fun c off i rest hc hf hw hm hgd hd => ?_⟩
    · exact issueSlot_fetchWord hx hr (fetch_own hok ho hm)
    · exact issueSlot_fetchWord hx hr (fetch_global hok hv hwin htr hf)
    · exact (issueSlot_fetchWord hx hr (fetch_core hok hc hf hw hm hgd)).1 i rest hd
  · intro s core slot r hag hon hs ht s0 s1 id u hp _ hexit hr
    have hstep : step s = s1.issueSlot id := (step_turn hag (.inl rfl)).trans (turn_issue (s := s0) hon hs ht hp)
    have hx : (s1.thr id).exiting = false := hexit
    rw [hstep]
    exact ⟨fun hl => issueSlot_trap hx hr (fetch_past_limit hl),
      fun hl hz hright => issueSlot_trap hx hr (fetch_no_right hl hz hright)⟩
  · intro s t r hag hon
    refine ⟨?_, step_due_first hag hon, fun _ hd => step_turn hag (.inr hd)⟩
    rintro core rfl hover
    exact (step_turn hag (.inl rfl)).trans (turn_issue_over (s := { s with agenda := r }) hon hover)

end Sys2Proof.Proofs
end

section
/-!
PROOFS. Fields: reading a field or a bit after one is replaced, and the bytes of a number.
-/

namespace Sys2Proof.Proofs

open Sys2Proof Sys2Proof.Machine Sys2Proof.Cert

/-! ### Fields -/

@[simp] theorem fieldOf_zero {n : Nat} (w : BitVec n) (len : Nat) : fieldOf w 0 len = w.toNat % 2 ^ len := by
  simp [fieldOf, fld]

theorem fieldOf_pair {n : Nat} (w : BitVec n) (i : Nat) : fieldOf w (2 * i) 2 = w.toNat / 4 ^ i % 4 := by
  simp [fieldOf, fld, Nat.pow_mul]

/-- The bits of `x` from `lo` on, `len` of them, replaced by the low bits of `v`. -/
def replaceBits (x lo len v : Nat) : Nat := x - fld x lo len * 2 ^ lo + v % 2 ^ len * 2 ^ lo

/-- What stands above the field, in it and below it. -/
theorem replaceBits_eq (x lo len v : Nat) :
    replaceBits x lo len v = (x / 2 ^ (lo + len) * 2 ^ len + v % 2 ^ len) * 2 ^ lo + x % 2 ^ lo := by
  have hx : (x / 2 ^ (lo + len) * 2 ^ len + fld x lo len) * 2 ^ lo + x % 2 ^ lo = x := by
    rw [Nat.pow_add, ← Nat.div_div_eq_div_mul, fld, Nat.div_add_mod', Nat.div_add_mod']
  unfold replaceBits
  rw [Nat.add_mul] at hx ⊢
  omega

theorem replaceBits_mod (x lo len v : Nat) : replaceBits x lo len v % 2 ^ lo = x % 2 ^ lo := by
  rw [replaceBits_eq, Nat.mul_add_mod_self_right, Nat.mod_mod]

theorem replaceBits_div (x lo len v : Nat) :
    replaceBits x lo len v / 2 ^ lo = x / 2 ^ (lo + len) * 2 ^ len + v % 2 ^ len := by
  rw [replaceBits_eq, Nat.mul_comm, Nat.mul_add_div (Nat.two_pow_pos lo),
    Nat.div_eq_of_lt (Nat.mod_lt _ (Nat.two_pow_pos lo)), Nat.add_zero]

theorem replaceBits_above (x lo len v : Nat) : replaceBits x lo len v / 2 ^ (lo + len) = x / 2 ^ (lo + len) := by
  rw [Nat.pow_add, ← Nat.div_div_eq_div_mul, replaceBits_div, Nat.mul_comm, Nat.mul_add_div (Nat.two_pow_pos len),
    Nat.div_eq_of_lt (Nat.mod_lt _ (Nat.two_pow_pos len)), Nat.add_zero, Nat.pow_add]

theorem fld_replaceBits_self (x lo len v : Nat) : fld (replaceBits x lo len v) lo len = v % 2 ^ len := by
  rw [fld, replaceBits_div, Nat.mul_add_mod_self_right, Nat.mod_mod]

/-- A field above or below the one that is replaced stays. -/
theorem fld_replaceBits_ne (x v : Nat) {lo len lo' len' : Nat} (h : lo' + len' ≤ lo ∨ lo + len ≤ lo') :
    fld (replaceBits x lo len v) lo' len' = fld x lo' len' := by
  rcases h with h | h
  · have low (y : Nat) : fld y lo' len' = y % 2 ^ lo % 2 ^ (lo' + len') / 2 ^ lo' := by
      rw [Nat.mod_mod_of_dvd _ (Nat.pow_dvd_pow 2 h), Nat.pow_add, Nat.mod_mul_right_div_self, fld]
    rw [low, low, replaceBits_mod]
  · have high (y : Nat) : y / 2 ^ lo' = y / 2 ^ (lo + len) / 2 ^ (lo' - (lo + len)) := by
      rw [Nat.div_div_eq_div_mul, ← Nat.pow_add, Nat.add_sub_cancel' h]
    rw [fld, high, replaceBits_above, ← high, fld]

/-- Replacing bits of a number of `n` bits leaves `n` bits. -/
theorem replaceBits_lt {n x lo len : Nat} (v : Nat) (h : lo + len ≤ n) (hx : x < 2 ^ n) :
    replaceBits x lo len v < 2 ^ n := by
  have hn : 2 ^ n = 2 ^ (n - (lo + len)) * 2 ^ (lo + len) := by rw [← Nat.pow_add, Nat.sub_add_cancel h]
  rw [hn, ← Nat.div_lt_iff_lt_mul (Nat.two_pow_pos _)] at hx ⊢
  rwa [replaceBits_above]

theorem setField_toNat {n : Nat} (w : BitVec n) {lo len : Nat} (v : Nat) (h : lo + len ≤ n) :
    (setField w lo len v).toNat = replaceBits w.toNat lo len v := by
  rw [setField, BitVec.toNat_ofNat]
  exact Nat.mod_eq_of_lt (replaceBits_lt v h w.isLt)

theorem fieldOf_setField_self {n : Nat} (w : BitVec n) {lo len : Nat} (v : Nat) (h : lo + len ≤ n) :
    fieldOf (setField w lo len v) lo len = v % 2 ^ len := by
  rw [fieldOf, setField_toNat w v h, fld_replaceBits_self]

theorem fieldOf_setField_ne {n : Nat} (w : BitVec n) {lo len lo' len' : Nat} (v : Nat) (h : lo + len ≤ n)
    (hne : lo' + len' ≤ lo ∨ lo + len ≤ lo') : fieldOf (setField w lo len v) lo' len' = fieldOf w lo' len' := by
  rw [fieldOf, setField_toNat w v h, fld_replaceBits_ne _ _ hne, fieldOf]

/-! ### Bytes of a number, and bits -/

@[simp] theorem leBytes_length (n w : Nat) : (leBytes n w).length = n := by
  induction n generalizing w with
  | zero => rfl
  | succ n ih => rw [leBytes, List.length_cons, ih]

theorem leNat_leBytes (n w : Nat) : leNat (leBytes n w) = w % 256 ^ n := by
  induction n generalizing w with
  | zero => simp [leBytes, leNat, Nat.mod_one]
  | succ n ih =>
    rw [leBytes, leNat, ih, BitVec.toNat_ofNat, Nat.pow_succ' (m := 256), Nat.mod_mul (a := 256)]

/-- A 64-bit word is what its eight bytes give. -/
theorem leNat_leBytes_word (v : BitVec 64) : leNat (leBytes 8 v.toNat) = v.toNat := by
  rw [leNat_leBytes]
  exact Nat.mod_eq_of_lt v.isLt

theorem setBit_false_getLsbD {n : Nat} (w : BitVec n) (i : Nat) : (setBit w i false).getLsbD i = false := by
  rw [setBit, if_neg Bool.false_ne_true, BitVec.getLsbD_and, BitVec.getLsbD_not, BitVec.getLsbD_ofNat,
    Nat.testBit_two_pow_self]
  by_cases h : i < n <;> simp [h]

end Sys2Proof.Proofs
end

section
/-!
PROOFS. Registers: what a write of a register of a unit, a core or a flight does (R97, R119-R120, R165-R183, R331, R396).
-/

namespace Sys2Proof.Proofs

open Sys2Proof Sys2Proof.Machine Sys2Proof.Cert

/-! ### The system window (R165) -/

/-- Written by the configuration path, an aligned register of a unit that the part has is written by its unit. -/
theorem registerWrite_package (s : State) {off : Nat} (v : Word) (h : off % 4 = 0) :
    exec (.registerWrite 0 0 off v) s = .next (s.writePackage off v) := by
  simp [execRegisterWrite, State.writeReg, h]

theorem registerWrite_storey (s : State) {n off : Nat} (v : Word) (hn : n < 128) (h : off % 4 = 0) :
    exec (.registerWrite 1 n off v) s = .next (s.writeStorey n off v) := by
  simp [execRegisterWrite, State.writeReg, State.reaches, h, hn]

theorem registerWrite_slice (s : State) {m off : Nat} (v : Word) (hm : m < 16) (h : off % 4 = 0) :
    exec (.registerWrite 2 m off v) s = .next (s.writeSlice m off v) := by
  simp [execRegisterWrite, State.writeReg, h, hm]

theorem registerWrite_vpool (s : State) {f : Nat} (v : Word) (hf : f < 512) :
    exec (.registerWrite 3 f 0x300 v) s = .next (s.commitFlight f 0 v) := by
  have hs : f / 4 < 128 := by omega
  simp [execRegisterWrite, State.writeReg, State.reaches, hs]

/-- A write of APSTAT clears the W1C bits that it names, in every TDI state (R64, R68). -/
theorem registerWrite_apstat (s : State) {p : Nat} (v : Word) (hp : p < 16) :
    exec (.registerWrite 16 p 0x1008 v) s =
      .next (s.modPart p fun x => { x with apstat := x.apstat &&& ~~~(v &&& 0x7E0000) }) := by
  simp [execRegisterWrite, State.apWrite, hp]

section Storey

variable (s : State) {n : Nat} (v : Word)

/-- SAVE registers change while the storey holds no image, and SAVECNT only to a count of at most 65,536 (R396). -/
theorem writeStorey_save_idle (h : (s.imagesOf n).isEmpty = true) :
    s.writeStorey n 0x020 v = s.modStorey n (fun x => { x with saveL := v &&& 0xFFFFF000 })
    ∧ s.writeStorey n 0x024 v = s.modStorey n (fun x => { x with saveH := v &&& 0xFFFF })
    ∧ (v.toNat % 131072 ≤ 65536 →
        s.writeStorey n 0x028 v = s.modStorey n fun x => { x with saveCnt := v.toNat % 131072 }) := by
  refine ⟨if_pos h, if_pos h, fun hc => ?_⟩
  have hw : ((s.imagesOf n).isEmpty && decide (fieldOf v 0 17 ≤ 65536)) = true := by simp [h, hc]
  have hv : fieldOf v 0 17 = v.toNat % 131072 := fieldOf_zero v 17
  exact (if_pos hw).trans (by rw [hv])

theorem writeStorey_save_kept (h : (s.imagesOf n).isEmpty = false) :
    s.writeStorey n 0x020 v = s ∧ s.writeStorey n 0x024 v = s ∧ s.writeStorey n 0x028 v = s := by
  simp [State.writeStorey, h]

/-- LCFG of a landing stands at 0x100 + 8 · landing (R332). -/
theorem writeStorey_lcfg {l : Nat} (h : l < 32) : s.writeStorey n (0x100 + 8 * l) v = s.lcfg n l v := by
  have hl : (0x100 + 8 * l - 0x100) / 8 = l := by omega
  have hin : (decide (0x100 ≤ 0x100 + 8 * l) && decide (0x100 + 8 * l < 0x200)
      && decide ((0x100 + 8 * l) % 8 = 0)) = true := by simp; omega
  have hne (k : Nat) (hk : k < 0x100) : ¬ 0x100 + 8 * l = k := by omega
  rw [State.writeStorey]
  simp only [hne, hin, hl, if_true, if_false, Nat.reduceLT]

end Storey

theorem writePackage_domsw (s : State) (v : Word) : s.writePackage 0x100 v =
    (let s1 := if v.getLsbD 2 then s.modPkg (fun g => { g with domErr := false }) else s
    if v.getLsbD 0 then s1.domainGo else s1) := rfl

theorem writePackage_rstctl (s : State) (v : Word) : s.writePackage 0x500 v = s.rstctl v := rfl

/-- LOWN of a landing stands at 0x300 + 4 · landing (R331). -/
theorem writePackage_lown (s : State) {l : Nat} (v : Word) (h : l < 32) : s.writePackage (0x300 + 4 * l) v = s.lown l v := by
  have hl : (0x300 + 4 * l - 0x300) / 4 = l := by omega
  have hin : (decide (0x300 ≤ 0x300 + 4 * l) && decide (0x300 + 4 * l < 0x380)) = true := by simp; omega
  have hne : ¬ 0x300 + 4 * l = 0x100 := by omega
  rw [State.writePackage, if_neg hne, if_pos hin, hl]

/-! ### Core registers (R86, R97, R119-R120, R168) -/

/-- A core register of the part is written as its commit says. -/
theorem coreWrite_of_lt (s : State) {c : Nat} (n : Nat) (v : Word) (h : c < 8192) :
    s.coreWrite c n v = s.commitCore c n 0 v := if_pos h

section Commit

variable (s : State) (c : Nat) (v : Word)

theorem commitCore_lcsplit : s.commitCore c 0x200 0 v = s.setLcsplit c v := rfl
theorem commitCore_slotcls :
    s.commitCore c 0x201 0 v = s.modCore c fun x => { x with slotcls := slotclsAfter x.slotcls v } := rfl
theorem commitCore_mvtbase :
    s.commitCore c 0x202 0 v = (s.modCore c fun x => { x with mvt := v.toNat / 2048 % 256 * 2048 }).startComm c := rfl
theorem commitCore_runctl :
    s.commitCore c 0x203 0 v = s.modCore c fun x => { x with hold := v.getLsbD 5, margin := v.toNat % 32 } := by
  have hv : fieldOf v 0 5 = v.toNat % 32 := fieldOf_zero v 5
  rw [← hv]; rfl
theorem commitCore_shpool : s.commitCore c 0x204 0 v = s.modCore c fun x => x.setShpool v := rfl

end Commit

/-- Only what a change makes of the core as it stands counts. -/
theorem modCore_congr {s : State} {c : Nat} {f g : Core → Core} (h : f (s.core c) = g (s.core c)) :
    s.modCore c f = s.modCore c g := by
  rw [State.modCore, State.modCore, h]

/-- One field of a write of SLOTCLS: CLS of slot `i` + 1. -/
def slotclsField (v w : Word) (i : Nat) : Word :=
  if fieldOf v (2 * (i + 1)) 2 = 0 then w else setField w (2 * (i + 1)) 2 (fieldOf v (2 * (i + 1)) 2)

theorem slotclsField_self (v w : Word) {i : Nat} (h : i < 15) : fieldOf (slotclsField v w i) (2 * (i + 1)) 2 =
    if fieldOf v (2 * (i + 1)) 2 = 0 then fieldOf w (2 * (i + 1)) 2 else fieldOf v (2 * (i + 1)) 2 := by
  unfold slotclsField
  split
  · rfl
  · rw [fieldOf_setField_self w _ (by omega), fieldOf, fld, Nat.mod_mod]

theorem slotclsField_ne (v w : Word) {i j : Nat} (h : i < 15) (hj : j ≠ i + 1) :
    fieldOf (slotclsField v w i) (2 * j) 2 = fieldOf w (2 * j) 2 := by
  unfold slotclsField
  split
  · rfl
  · exact fieldOf_setField_ne w _ (by omega) (by omega)

/-- The fields that have been written, and those that have not. -/
theorem slotclsFields (old v : Word) {k j : Nat} (hk : k ≤ 15) (hj : 0 < j) :
    fieldOf ((List.range k).foldl (slotclsField v) old) (2 * j) 2 =
      if k < j ∨ fieldOf v (2 * j) 2 = 0 then fieldOf old (2 * j) 2 else fieldOf v (2 * j) 2 := by
  induction k with
  | zero => simp [hj]
  | succ k ih =>
    rw [List.range_succ, List.foldl_concat]
    by_cases hjk : j = k + 1
    · subst hjk
      rw [slotclsField_self v _ (by omega), ih (by omega)]
      simp
    · rw [slotclsField_ne v _ (by omega) hjk, ih (by omega)]
      have : k < j ↔ k + 1 < j := by omega
      simp only [this]

/-- SLOTCLS after a write: a field of code 0 keeps its class (R119). -/
theorem slotclsAfter_field (old v : Word) {i : Nat} (h0 : 0 < i) (hi : i < 16) :
    (slotclsAfter old v).toNat / 4 ^ i % 4 = if v.toNat / 4 ^ i % 4 = 0 then old.toNat / 4 ^ i % 4 else v.toNat / 4 ^ i % 4 := by
  have h : fieldOf (slotclsAfter old v) (2 * i) 2 = _ := slotclsFields old v (k := 15) le_rfl h0
  rw [fieldOf_pair, fieldOf_pair, fieldOf_pair] at h
  simpa [Nat.not_lt.2 (Nat.le_of_lt_succ hi)] using h

/-- A forme area of no bytes, or one past the handler region and within the TCM, is taken while no forme is held (R97). -/
theorem setShpool_free (c : Core) (v : Word) (hf : c.formes = [])
    (h : v.toNat / 65536 % 2048 = 0 ∨ (16 ≤ v.toNat % 2048 ∧ (v.toNat % 2048 + v.toNat / 65536 % 2048) * 256 ≤ c.tcmSize)) :
    c.setShpool v = { c with shBase := v.toNat % 2048, shSize := v.toNat / 65536 % 2048 } := by
  have hsize : fieldOf v 16 11 = v.toNat / 65536 % 2048 := rfl
  have hfits : v.toNat / 65536 % 2048 = 0
      ∨ 0x1000 ≤ v.toNat % 2048 * 256 ∧ (v.toNat % 2048 + v.toNat / 65536 % 2048) * 256 ≤ c.tcmSize := by omega
  simp [Core.setShpool, hsize, hfits, hf]

/-- A change of LCSPLIT while no forme is held; one that overlaps an earlier change is log 51's reading (R168, R171). -/
theorem setLcsplit_free (s : State) (c : Nat) (v : Word) (hn : v.toNat % 4 ≠ (s.core c).lcsplit) (hf : (s.core c).formes = []) :
    let old := 0x80000 - cacheBytes (s.core c).lcsplit
    let new := 0x80000 - cacheBytes (v.toNat % 4)
    s.setLcsplit c v = (s.modCore c fun x => { x with
      lcsplit := v.toNat % 4, cache := []
      moving := x.moving ++ [(min old new, max old new, s.cycle + 1024)] }).dropPooled (c / 16) := by
  simp [State.setLcsplit, hn, hf, flightOf]

/-- The end of the oldest change, when no request waits on the words that moved (R168). -/
theorem lcsplitDone_unwaited (s : State) {c lo hi due : Nat} {r : List (Nat × Nat × Nat)}
    (hm : (s.core c).moving = (lo, hi, due) :: r) :
    let t := (s.sramClear c lo hi).modCore c fun x => { x with moving := r }
    (t.memory.syncQ.keys.all fun w => decide (w < wordNo c lo) || decide (wordNo c hi ≤ w)) = true →
      s.lcsplitDone c = t := by
  intro t hq
  have hnone : (t.memory.syncQ.keys.filter fun w => decide (wordNo c lo ≤ w) && decide (w < wordNo c hi)) = [] := by
    rw [List.filter_eq_nil_iff]
    intro w hw
    have hout := List.all_eq_true.1 hq w hw
    simp at hout ⊢
    omega
  simp only [State.lcsplitDone, hm]
  rw [hnone]
  rfl

/-- A communication thread that runs is left by a write of MVTBASE (R120). -/
theorem startComm_running (s : State) {c : Nat} (h : (s.thr? (16 * c)).isSome = true) : s.startComm c = s := by
  have hid : slotidOf c 0 = 16 * c := by simp [slotidOf, Nat.mul_comm]
  simp [State.startComm, hid, h]

/-- VPOOL after a plain write: clearing EN drops the pool (R171). -/
theorem commitFlight_write (s : State) (f : Nat) (v : Word) : s.commitFlight f 0 v =
    (if v.getLsbD 0 then s else s.dropPooled f).modFlight f fun x => { x with vpool := v.getLsbD 0 } := rfl

/-- Settles O43: a register of the window is written by its unit's function, and what that does, and what the commits of core
and flight registers do, the lemmas above say. -/
theorem registerEvents : Obligations.RegisterEvents := by
  unfold Obligations.RegisterEvents
  refine ⟨?window, ?cores⟩
  case window =>
    intro s n l m v hn hl hm
    have storey {off : Nat} (h : off % 4 = 0) := registerWrite_storey s v hn h
    have package {off : Nat} (h : off % 4 = 0) := registerWrite_package s (off := off) v h
    have slice {off : Nat} (h : off % 4 = 0) := registerWrite_slice s v hm h
    have hlcfg : (0x100 + 8 * l) % 4 = 0 := by omega
    have hlown : (0x300 + 4 * l) % 4 = 0 := by omega
    refine ⟨storey rfl, ?fsdest, storey rfl, storey rfl, ?idle, ?kept, ?flt, ?drop, ?replay, ?va, ?all, ?lcfg, ?lown,
      ?go, ?domErr, ?reset, ?debug, ?k, ?mask, ?wb, registerWrite_apstat s v hm⟩
    case fsdest =>
      have hv : fieldOf v 0 13 = v.toNat % 8192 := fieldOf_zero v 13
      rw [storey rfl, ← hv]; rfl
    case idle =>
      intro h
      obtain ⟨hL, hH, hC⟩ := writeStorey_save_idle s v h
      rw [storey rfl, storey rfl, storey rfl, hL, hH]
      exact ⟨rfl, rfl, fun hc => by rw [hC hc]⟩
    case kept =>
      intro h
      obtain ⟨hL, hH, hC⟩ := writeStorey_save_kept s v h
      rw [storey rfl, storey rfl, storey rfl, hL, hH, hC]
      exact ⟨rfl, rfl, rfl⟩
    case flt => intro h; rw [storey rfl]; simp [State.writeStorey, h]
    case drop => intro h; rw [storey rfl]; simp [State.writeStorey, h, execFbstatDropClear]
    case replay => intro h; rw [storey rfl]; simp [State.writeStorey, State.fscmd, h, execReplayAll]
    case va => intro h; rw [storey rfl]; simp [State.writeStorey, State.fscmd, h, execInvalVa]
    case all => intro h; rw [storey rfl]; simp [State.writeStorey, State.fscmd, h, execInvalAll]
    case lcfg => rw [storey hlcfg, writeStorey_lcfg s v hl, exec_lcfgWrite, execLcfgWrite, if_pos hl]
    case lown => rw [package hlown, writePackage_lown s v hl, exec_lownWrite, execLownWrite, if_pos hl]
    case go => intro h0 h2; rw [package rfl, writePackage_domsw, h0, h2]; rfl
    case domErr => intro h0 h2; rw [package rfl, writePackage_domsw, h0, h2]; rfl
    case reset => intro h; rw [package rfl, writePackage_rstctl, State.rstctl, h]; rfl
    case debug =>
      intro h h'
      have hv : fieldOf v 0 13 = v.toNat % 8192 := fieldOf_zero v 13
      rw [package rfl, writePackage_rstctl, State.rstctl, h, h', hv]; rfl
    case k => rw [slice rfl]; simp [State.writeSlice, execDomainConfigStage, hm]
    case mask => rw [slice rfl]; simp [State.writeSlice, execDomainConfigStage, hm]
    case wb => intro h; rw [slice rfl]; simp [State.writeSlice, execScmdWb, h, hm]
  case cores =>
    intro s c v hc
    refine ⟨?slotcls, ?runctl, ?shpool, ?lcsplit, ?lcsplitDone, ?mvtbase, ?vpool⟩
    case slotcls =>
      refine ⟨s.modCore c fun x => { x with slotcls := slotclsAfter x.slotcls v }, ?_, ?_, ?_⟩
      · rw [exec_slotclsWrite, execSlotclsWrite, coreWrite_of_lt s _ v hc, commitCore_slotcls]
      · exact modCore_congr (by simp)
      · intro i h0 hi
        simpa using slotclsAfter_field (s.core c).slotcls v h0 hi
    case runctl =>
      rw [exec_runctlWrite, execRunctlWrite, coreWrite_of_lt s _ v hc, commitCore_runctl]
    case shpool =>
      intro hf h
      rw [exec_shpoolWrite, execShpoolWrite, coreWrite_of_lt s _ v hc, commitCore_shpool]
      exact congrArg Host.Outcome.next (modCore_congr (setShpool_free (s.core c) v hf h))
    case lcsplit =>
      intro hn hf old new
      rw [exec_lcsplitWrite, execLcsplitWrite, coreWrite_of_lt s _ v hc, commitCore_lcsplit,
        setLcsplit_free s c v hn hf]
    case lcsplitDone =>
      intro lo hi due r hm t hq
      exact congrArg Host.Outcome.next (lcsplitDone_unwaited s hm hq)
    case mvtbase =>
      intro h
      rw [exec_mvtbaseWrite, execMvtbaseWrite, coreWrite_of_lt s _ v hc, commitCore_mvtbase,
        startComm_running (s.modCore c _) h]
    case vpool =>
      intro f hf
      rw [registerWrite_vpool s v hf, exec_vpoolWrite, execVpoolWrite, if_pos hf, commitFlight_write]
      exact ⟨rfl, rfl⟩

end Sys2Proof.Proofs
end

section
/-!
PROOFS. Completions: CPOP of a completion whose payload lies on another package (R77, R288).
-/

namespace Sys2Proof.Proofs

open Sys2Proof Sys2Proof.Machine Sys2Proof.Cert

/-- A payload in a heap of another package is read without a change of this machine: its bytes, or their loss, come from
there (log 10). -/
theorem payloadRead_away_state {s : State} {t : Tuple} {fabric sl first va : Nat} {r : Bool} (part n : Nat)
    (ht : t.payload = .away fabric sl first va r) (hf : fabric ≠ Config.fabricId) : (s.payloadRead part n t).1 = s := by
  simp only [State.payloadRead, ht, if_neg hf]
  split <;> rfl

/-- The granules that such a payload held are freed by a notice to its package, which leaves through the fabric (R288). -/
theorem freeHeap_away_out {s : State} {t : Tuple} {fabric sl first va : Nat} (n : Nat)
    (ht : t.payload = .away fabric sl first va false) (hf : fabric ≠ Config.fabricId)
    (hp : s.isFenced 4 (flowPort fabric) = false) :
    (s.freeHeap n t).out = s.out ++ [.peer fabric (.srcNotice t.hall sl first)] := by
  simp [State.freeHeap, ht, State.toPeer, hf, hp]

/-- What CPOP sends when it takes a completion: what the freed heap sends, then the answer to the host. -/
theorem cpop_out {s t : State} {p n : Nat} {c : Tuple} (hp : p < 16) (hrun : (s.part p).tdi = .run)
    (hc : s.oldestCompletion p = some (n, c)) (ht : exec (.cpop p 8) s = .next t) :
    t.out = (((s.payloadRead p n c).1.modSlice n fun x =>
        { x with tuples := x.tuples.filter fun u => u.seq != c.seq }).freeHeap n c).out
      ++ [.hostRead p (leBytes 8 (cpopWord c))] := by
  have h16 : ¬ 16 ≤ p := by omega
  simp only [exec_cpop, execCpop, State.running, hrun, hc, h16, if_false] at ht
  obtain rfl := Host.Outcome.next.inj ht
  rfl

/-- The oldest completion of partition 0 in the state below: a split has brought its entry here, and its payload stayed in a
heap of the package that held it before. -/
def awayCompletion : Tuple :=
  { hall := 0xFFE0, f := [0, 0, 0, 0], len := 256, fmt := 0, seq := 0, payload := .away (Config.fabricId + 1) 0 0 0 false }

/-- Its hall, of system scope as a split asks. -/
def awayHall : Hall := { part := 0, sys := true, homef := 1, group := 0, heapBase := 0, heapSize := 0 }

/-- Partition 0 runs, and its completion hall holds that one completion. -/
def awayCompleted : State :=
  { State.reset with
    pkg := { State.reset.pkg with parts := [(0, { tdi := .run })], halls := [(0xFFE0, awayHall)] }
    slices := [(13, { tuples := [awayCompletion] })] }

theorem awayCompleted_oldest : awayCompleted.oldestCompletion 0 = some (13, awayCompletion) := by
  have hhall : awayCompleted.hall? (0xFFE0 + 0) = some awayHall := rfl
  have hhome : awayCompleted.homeSlice (0xFFE0 + 0) awayHall (ofLanes 32 [0]) = 13 := by decide +kernel
  simp only [State.oldestCompletion, hhall, hhome]
  rfl

/-- Refutes O45: a CPOP whose completion's payload lies in a heap of another package also sends the notice that frees it
there (R288), so the host's answer is not all that leaves; `awayCompleted` is such a state. PF0 defines completion halls at
package scope (R72), where no split reaches; the statement does not ask that the payload lie on this package. -/
theorem not_hostApertures : ¬ Obligations.HostApertures := by
  unfold Obligations.HostApertures
  intro h
  have hrun : (awayCompleted.part 0).tdi = .run := rfl
  have hfabric : Config.fabricId + 1 ≠ Config.fabricId := Nat.succ_ne_self _
  obtain ⟨hpart, -⟩ := h awayCompleted 0 (by decide)
  obtain ⟨-, -, -, -, -, -, -, -, hcpop, -⟩ := hpart hrun
  obtain ⟨t, ht, hout, -⟩ := hcpop 13 awayCompletion awayCompleted_oldest
  have hsent := cpop_out (by decide) hrun awayCompleted_oldest ht
  rw [payloadRead_away_state 0 13 rfl hfabric, freeHeap_away_out 13 rfl hfabric rfl, State.modSlice_out, hout] at hsent
  have hlen := congrArg List.length hsent
  simp at hlen

end Sys2Proof.Proofs
end

section
/-!
PROOFS. Interfaces: the operator's writes, the interface states and the key slots (R61-R71, R76, R404, R417, R423).
-/

namespace Sys2Proof.Proofs

open Sys2Proof Sys2Proof.Machine Sys2Proof.Cert

/-! ### Partitions and what leaves their parts -/

@[simp] theorem modPart_part (s : State) (p : Nat) (f : Part → Part) : (s.modPart p f).part p = f (s.part p) := by
  simp [State.part, State.modPart, State.modPkg]

theorem modPart_part_ne (s : State) {p q : Nat} (f : Part → Part) (h : q ≠ p) : (s.modPart p f).part q = s.part q := by
  simp [State.part, State.modPart, State.modPkg, Tab.lookD_put_ne _ _ _ h]

/-- What a fold of steps that keep a reading leaves of it. -/
theorem foldl_keeps {α β γ : Type} (g : α → γ) {f : α → β → α} (h : ∀ a b, g (f a b) = g a) (l : List β) (a : α) :
    g (l.foldl f a) = g a := by
  induction l generalizing a with
  | nil => rfl
  | cons b r ih => rw [List.foldl_cons, ih, h]

theorem discardDirty_pkg (s : State) (p : Nat → Dirty → Bool) : (s.discardDirty p).pkg = s.pkg := by
  unfold State.discardDirty
  exact foldl_keeps State.pkg (by intro _ _; rfl) _ s

theorem loseLines_part (s : State) (a b : Nat → Bool) (p : Nat) : (s.loseLines a b).part p = s.part p := by
  have h : (s.loseLines a b).pkg = s.pkg := discardDirty_pkg s _
  rw [State.part, h, State.part]

/-- An interrupt keeps the state of every interface. -/
theorem msix_tdi (s : State) (fn v p : Nat) : ((s.msix fn v).part p).tdi = (s.part p).tdi := by
  unfold State.msix
  split
  · split <;> rfl
  · split
    · by_cases h : p = fn - 1
      · subst h; rw [modPart_part]
      · rw [modPart_part_ne s _ h]
    · rfl

/-! ### Interface states (R64, R417, R423) -/

theorem toError_tdi (s : State) (p : Nat) : ((s.toError p).part p).tdi = .error := by
  unfold State.toError
  split
  · assumption
  · rw [msix_tdi, modPart_part]

/-- What a stop leaves of the function: unlocked, nothing measured, the staging slots empty (log 66). -/
theorem stopInterface_part (s : State) (p : Nat) :
    let x := (s.stopInterface p).part p
    x.tdi = .unlocked ∧ x.measure = none ∧ x.staging = [] ∧ x.busy = 0 := by
  rw [State.stopInterface]
  simp only [modPart_part, State.wipePart, loseLines_part, and_self]

section Descriptor

variable {s : State} {p : Nat}

/-- A TDI that is locked or runs meets a write of its descriptor with ERROR (R70). -/
theorem setSmask_bound (h : (s.part p).tdi = .locked ∨ (s.part p).tdi = .run) (mask : BitVec 128) :
    s.setSmask p mask = s.toError p := by
  rcases h with h | h <;> rw [State.setSmask, h]

theorem setDescriptor_bound (h : (s.part p).tdi = .locked ∨ (s.part p).tdi = .run) (v : Nat) :
    s.setDescriptor p 0x10 v = s.toError p ∧ s.setDescriptor p 0x18 v = s.toError p := by
  rcases h with h | h <;> simp [State.setDescriptor, h]

/-- In ERROR every write of the descriptor is discarded. -/
theorem setSmask_error (h : (s.part p).tdi = .error) (mask : BitVec 128) : s.setSmask p mask = s := by
  rw [State.setSmask, h]

theorem setDescriptor_error (h : (s.part p).tdi = .error) (v : Nat) :
    s.setDescriptor p 0x10 v = s ∧ s.setDescriptor p 0x18 v = s := by
  simp [State.setDescriptor, h]

section Unlocked

variable (h : (s.part p).tdi = .unlocked)
include h

theorem setDescriptor_wbase (v : Nat) :
    s.setDescriptor p 0x10 v = s.modPart p fun x => { x with wbase := v / 65536 % 2 ^ 32 * 65536 } := by
  simp only [State.setDescriptor, h]
  rfl

theorem setDescriptor_sdtb (v : Nat) :
    s.setDescriptor p 0x18 v = (maskBits (s.part p).smask).foldl
      (fun s n => s.modStorey n fun x => { x with sdtb := BitVec.ofNat 64 (v % 2 ^ 48) })
      (s.modPart p fun x => { x with sdtb := BitVec.ofNat 64 (v % 2 ^ 48) }) := by
  have hv : fld v 0 48 = v % 2 ^ 48 := by simp [fld]
  simp only [State.setDescriptor, h, hv]
  rfl

/-- SMASK of an unlocked TDI, when the storeys that join belong to none or to unlocked ones (R70): they leave the others'
masks, and every storey that joins or leaves is moved. -/
theorem setSmask_unlocked {mask : BitVec 128}
    (hfree : ∀ n, n < 128 → mask.getLsbD n = true → (s.part p).smask.getLsbD n = false →
      ∀ q, s.partOfStorey n = some q → (s.part q).tdi = .unlocked) :
    let s1 := { s with pkg := { s.pkg with parts := s.pkg.parts.mapVals fun _ x => { x with smask := x.smask &&& ~~~mask } } }
    let s2 := s1.modPart p fun x => { x with smask := mask }
    s.setSmask p mask =
      (maskBits ((s.part p).smask &&& ~~~mask)).foldl (fun s n => s.moveStorey 0 n)
        ((maskBits (mask &&& ~~~(s.part p).smask)).foldl (fun s n => s.moveStorey (s2.part p).sdtb n) s2) := by
  have hadded : ((maskBits (mask &&& ~~~(s.part p).smask)).any fun n =>
      (s.partOfStorey n).any fun q => (s.part q).tdi != .unlocked) = false := by
    rw [List.any_eq_false]
    intro n hn
    obtain ⟨hlt, hin⟩ : n < 128 ∧ (mask &&& ~~~(s.part p).smask).getLsbD n = true := by simpa [maskBits] using hn
    obtain ⟨hmask, hold⟩ : mask.getLsbD n = true ∧ (s.part p).smask.getLsbD n = false := by simpa [hlt] using hin
    cases hq : s.partOfStorey n with
    | none => simp
    | some q => simp [hfree n hlt hmask hold q hq]
  simp only [State.setSmask, h, hadded]
  rfl

end Unlocked

/-! The bytes of a descriptor: a write over several fields writes each (log 64, the model's choice). -/

@[simp] theorem descriptor_length (x : Part) : x.descriptor.length = 64 := by
  simp [Part.descriptor]

/-- Sixteen bytes from WBASE on are written as WBASE and SDTBASE. -/
theorem pfDescriptor_wbase_sdtb (wb sd : BitVec 64) : s.pfDescriptor p 0x10 (leBytes 8 wb.toNat ++ leBytes 8 sd.toNat) =
    (s.setDescriptor p 0x10 wb.toNat).setDescriptor p 0x18 sd.toNat := by
  have hw : ((patch (s.part p).descriptor 0x10 (leBytes 8 wb.toNat ++ leBytes 8 sd.toNat)).drop 0x10).take 8 =
      leBytes 8 wb.toNat := by simp [patch]
  have hs : ((patch (s.part p).descriptor 0x10 (leBytes 8 wb.toNat ++ leBytes 8 sd.toNat)).drop 0x18).take 8 =
      leBytes 8 sd.toNat := by simp [patch, List.drop_append, List.take_append]
  simp [State.pfDescriptor, hw, hs, leNat_leBytes_word]

/-- A write of the RW fields of a locked or running TDI moves it to ERROR. -/
theorem pfDescriptor_bound (h : (s.part p).tdi = .locked ∨ (s.part p).tdi = .run) {o : Nat} {bs : List Byte}
    (hbs : bs ≠ []) (ho : o < 0x20) : ((s.pfDescriptor p o bs).part p).tdi = .error := by
  have he := toError_tdi s p
  obtain ⟨hw, hs⟩ := And.intro (fun v => (setDescriptor_error he v).1) (fun v => (setDescriptor_error he v).2)
  have hlen : 0 < bs.length := List.length_pos_iff.2 hbs
  unfold State.pfDescriptor
  by_cases h0 : o < 0x10
  · have hc : (decide (o < 0 + 16) && decide (0 < o + bs.length)) = true := by simp; omega
    simp only [hc, if_true, setSmask_bound h, hw, hs, ite_self, he]
  · have hn : (decide (o < 0 + 16) && decide (0 < o + bs.length)) = false := by simp; omega
    by_cases h1 : o < 0x18
    · have hc : (decide (o < 0x10 + 8) && decide (0x10 < o + bs.length)) = true := by simp; omega
      simp only [hn, Bool.false_eq_true, if_false, hc, if_true, (setDescriptor_bound h _).1, hs, ite_self, he]
    · have hn' : (decide (o < 0x10 + 8) && decide (0x10 < o + bs.length)) = false := by simp; omega
      have hc : (decide (o < 0x18 + 8) && decide (0x18 < o + bs.length)) = true := by simp; omega
      simp only [hn, hn', Bool.false_eq_true, if_false, hc, if_true, (setDescriptor_bound h _).2, he]

end Descriptor

/-! ### Key slots (R71) -/

/-- A key slot as the table lists it. -/
def keySlot (s : State) (k : Nat) : KeySlot := s.pkg.keys.lookD k {}

/-- A change of a key slot whose old and new owner are unlocked erases it. -/
theorem setKeySlot_changed {s : State} {k : Nat} {v : Byte} (h0 : 0 < k) (hk : k < 4096)
    (hold : (keySlot s k).a = true → (s.part (keySlot s k).part).tdi = .unlocked)
    (hnew : v.getLsbD 7 = true → (s.part (v.toNat % 16)).tdi = .unlocked)
    (hne : ¬ (v.getLsbD 7 = (keySlot s k).a ∧ v.toNat % 16 = (keySlot s k).part)) :
    s.setKeySlot k v = s.modPkg fun g =>
      { g with keys := g.keys.put k { a := v.getLsbD 7, part := v.toNat % 16, gen := (keySlot s k).gen + 1, usable := false } } := by
  have hp : fieldOf v 0 4 = v.toNat % 16 := fieldOf_zero v 4
  have hrow : (decide (k = 0) || decide (4096 ≤ k)) = false := by simp; omega
  have hfree : (((keySlot s k).a && !((s.part (keySlot s k).part).tdi == .unlocked))
      || (v.getLsbD 7 && !((s.part (v.toNat % 16)).tdi == .unlocked))) = false := by
    rw [Bool.or_eq_false_iff]
    constructor
    · cases ha : (keySlot s k).a with
      | false => rfl
      | true => rw [hold ha]; rfl
    · cases ha : v.getLsbD 7 with
      | false => rfl
      | true => rw [hnew ha]; rfl
  have hchange : (v.getLsbD 7 == (keySlot s k).a && v.toNat % 16 == (keySlot s k).part) = false := by
    simpa [-BitVec.getLsbD_eq_getElem] using hne
  unfold keySlot at hfree hchange
  simp only [State.setKeySlot, hrow, hp, hfree, hchange, Bool.false_eq_true, if_false]
  rfl

/-! ### Interrupts (R76) -/

/-- A vector of a virtual function unmasked, with no message pending. -/
def unmasked (s : State) (p v : Nat) : State :=
  s.modPart p fun x => { x with msixMasked := setBit x.msixMasked v false, msixPending := setBit x.msixPending v false }

theorem unmasked_bits (s : State) (p v : Nat) :
    ((unmasked s p v).part p).msixPending.getLsbD v = false ∧ ((unmasked s p v).part p).msixMasked.getLsbD v = false := by
  rw [unmasked, modPart_part]
  exact ⟨setBit_false_getLsbD _ v, setBit_false_getLsbD _ v⟩

/-- Unmasking a vector of a virtual function sends its pending message. -/
theorem msiXVectorUnmask_function (s : State) {p v : Nat} (hp : p < 16) (hv : v < 8) :
    exec (.msiXVectorUnmask (p + 1) v) s = .next (if (s.part p).msixPending.getLsbD v then
      { unmasked s p v with out := s.out ++ [.msix (p + 1) v] } else unmasked s p v) := by
  have hrow : ¬ (decide (16 < p + 1) || decide (8 ≤ v)) = true := by simp; omega
  rw [exec_msiXVectorUnmask, execMsiXVectorUnmask, if_neg hrow, if_neg (Nat.succ_ne_zero p)]
  rfl

/-- Settles O46: each request is answered by the function of its state that the lemmas above give, in the states that they
name. -/
theorem interfaceEvents : Obligations.InterfaceEvents := by
  unfold Obligations.InterfaceEvents
  intro s p hp
  refine ⟨?unlocked, ?start, ?lockRefused, ?startRefused, ?bound, ?stop, ?ide, rfl, ?keySlot, ?material, ?pending, ?quiet⟩
  case unlocked =>
    intro h
    refine ⟨?smask, ?wbase, ?sdtb, ?both, ?lock⟩
    case smask =>
      intro mask hfree s1 s2
      rw [exec_smaskWrite, execSmaskWrite, if_pos hp, setSmask_unlocked h hfree]
    case wbase =>
      intro v
      rw [exec_partitionDescriptorWrite, execPartitionDescriptorWrite, if_pos hp, setDescriptor_wbase h]
    case sdtb =>
      intro v
      rw [exec_partitionDescriptorWrite, execPartitionDescriptorWrite, if_pos hp, setDescriptor_sdtb h]
    case both =>
      intro wb sd s1 a
      have h1 : (s1.part p).tdi = .unlocked := by rw [modPart_part]; exact h
      have hm : (s1.part p).smask = (s.part p).smask := by rw [modPart_part]
      rw [pfDescriptor_wbase_sdtb, setDescriptor_wbase h]
      exact (setDescriptor_sdtb h1 _).trans (by rw [hm])
    case lock => simp [execLockInterfaceRequest, hp, h]
  case start => intro h; simp [execStartInterfaceRequest, hp, h]
  case lockRefused => intro h; simp [execLockInterfaceRequest, h]
  case startRefused => intro h; simp [execStartInterfaceRequest, h]
  case bound =>
    intro h
    refine ⟨fun mask => ?_, fun v => ?_, fun o bs hbs ho => pfDescriptor_bound h hbs ho⟩
    · rw [exec_smaskWrite, execSmaskWrite, if_pos hp, setSmask_bound h]
    · obtain ⟨hw, hs⟩ := setDescriptor_bound h v.toNat
      simp only [exec_partitionDescriptorWrite, execPartitionDescriptorWrite, if_pos hp, hw, hs, and_self]
  case stop =>
    refine ⟨s.stopInterface p, ?_, ?_, stopInterface_part s p⟩
    · rw [exec_stopInterfaceRequest, execStopInterfaceRequest, if_pos hp]
    · rw [exec_vfFunctionLevelReset, execVfFunctionLevelReset, if_pos hp]
  case ide => simp [execIdeIntegrityFailure, hp]
  case keySlot =>
    intro k v h0 hk x hold hnew hne
    exact congrArg Host.Outcome.next (setKeySlot_changed h0 hk hold hnew hne)
  case material => intro k x hx ha; simp [execKeyMaterialReady, hx, ha]
  case pending =>
    intro v hv hpend
    have he := msiXVectorUnmask_function s hp hv
    rw [if_pos hpend] at he
    exact ⟨_, he, rfl, unmasked_bits s p v⟩
  case quiet =>
    intro v hv hpend
    have he := msiXVectorUnmask_function s hp hv
    rw [if_neg (by rw [hpend]; exact Bool.false_ne_true)] at he
    exact ⟨_, he, rfl, (unmasked_bits s p v).2⟩

end Sys2Proof.Proofs
end

section
/-!
PROOFS. Spdm: the responder grants a request once what it rests on has passed, and refuses it before (R58-R60).
-/

namespace Sys2Proof.Proofs

open Sys2Proof Sys2Proof.Machine Sys2Proof.Cert

/-! ### Answers (R58-R59) -/

/-- The state once the responder, left as `y`, has answered a request; an answer above the negotiated size stays for
CHUNK_GET. -/
def spdmAnswered (s : State) (req : Nat) (y : Spdm) (a : List Nat) : State :=
  { s with
    out := s.out ++ [if y.size ≠ 0 ∧ y.size < a.length then .spdmLarge req else .spdm req a]
    pkg := { s.pkg with spdm := { y with transcript := y.transcript ++ [req], large := a } } }

theorem spdmAnswer_eq (s : State) (req : Nat) (f : Spdm → Spdm) (a : List Nat)
    (h : (f s.pkg.spdm).transcript = s.pkg.spdm.transcript) : s.spdmAnswer req f a = spdmAnswered s req (f s.pkg.spdm) a := by
  simp only [State.spdmAnswer, Bool.and_eq_true, decide_eq_true_eq]
  rw [spdmAnswered, h]
  rfl

/-- The one shape of a request: what it rests on, `c`, decides between the answer and an error. -/
def spdmGuarded (c : Prop) [Decidable c] (s : State) (req : Nat) (f : Spdm → Spdm) (a : List Nat) :
    Host.Outcome State Fault Refusal :=
  .next (if c then s.spdmAnswer req f a else s.spdmError req)

theorem spdmGuarded_granted {c : Prop} [Decidable c] (h : c) (s : State) (req : Nat) (f : Spdm → Spdm) (a : List Nat)
    (hf : (f s.pkg.spdm).transcript = s.pkg.spdm.transcript) :
    spdmGuarded c s req f a = .next (spdmAnswered s req (f s.pkg.spdm) a) := by
  rw [spdmGuarded, if_pos h, spdmAnswer_eq s req f a hf]

theorem spdmGuarded_refused {c : Prop} [Decidable c] (h : ¬ c) (s : State) (req : Nat) (f : Spdm → Spdm) (a : List Nat) :
    spdmGuarded c s req f a = .next (s.spdmError req) := by
  rw [spdmGuarded, if_neg h]

@[simp] theorem opaqueBytes_length (what : List Nat) (n : Nat) : (opaqueBytes what n).length = n := by
  simp [opaqueBytes]

/-! ### The requests with a condition of their own -/

/-- GET_CAPABILITIES draws the requester's transmit size, and the smaller of both sizes counts (R59). -/
theorem getCapabilities_answers {s : State} (h : s.pkg.spdm.version = true) : ∃ k a, exec .getCapabilities s = .next
    { spdmAnswered s 0xE1 { s.pkg.spdm with caps := true, size := k } a with draws := s.draws + 1 } := by
  rw [exec_getCapabilities, execGetCapabilities, if_pos h, spdmAnswer_eq _ _ _ _ rfl]
  exact ⟨_, _, rfl⟩

/-- The part has the measurement blocks 1 to 4, and block 5 of each virtual function (R60). -/
def measured (fn block : Nat) : Prop := 0 < block ∧ (block < 5 ∨ block = 5 ∧ 0 < fn ∧ fn ≤ 16)

/-- GET_MEASUREMENTS answers a block that the part has, with a signature where the request asks for one. -/
theorem getMeasurements_answers {s : State} {fn index : Nat} (h : s.pkg.spdm.algs = true) (hm : measured fn (index % 256)) :
    exec (.getMeasurements fn index) s = .next (spdmAnswered s 0xE0 s.pkg.spdm (s.measurement fn (index % 256)
      ++ if index / 256 % 2 = 1 then opaqueBytes (s.pkg.spdm.transcript ++ [0xE0, fn, index]) signatureBytes else [])) := by
  have hc : (!s.pkg.spdm.algs || index % 256 = 0 || 5 < index % 256
      || (index % 256 = 5 && (fn = 0 || 16 < fn))) = false := by
    obtain ⟨h0, hm⟩ := hm
    simp [h]
    omega
  simp only [exec_getMeasurements, execGetMeasurements, hc, Bool.false_eq_true, if_false]
  rw [spdmAnswer_eq _ _ _ _ rfl, id]

theorem getMeasurements_refused {s : State} (fn index : Nat) (h : s.pkg.spdm.algs = false) :
    exec (.getMeasurements fn index) s = .next (s.spdmError 0xE0) := by
  simp [execGetMeasurements, h]

/-- The blocks 1 to 4 without a signature. -/
theorem getMeasurements_plain {s : State} {fn block : Nat} (h : s.pkg.spdm.algs = true) (hm : measured fn block) :
    exec (.getMeasurements fn block) s = .next (spdmAnswered s 0xE0 s.pkg.spdm (s.measurement fn block)) := by
  have hb : block % 256 = block := by have := hm.2; omega
  have hs : ¬ block / 256 % 2 = 1 := by have := hm.2; omega
  rw [getMeasurements_answers h (by rwa [hb]), hb, if_neg hs, List.append_nil]

/-- A request with bit 8 set asks for a signature. -/
theorem getMeasurements_signed {s : State} {fn block : Nat} (h : s.pkg.spdm.algs = true) (hm : measured fn block) :
    exec (.getMeasurements fn (256 + block)) s = .next (spdmAnswered s 0xE0 s.pkg.spdm (s.measurement fn block
      ++ opaqueBytes (s.pkg.spdm.transcript ++ [0xE0, fn, 256 + block]) signatureBytes)) := by
  have hb : (256 + block) % 256 = block := by have := hm.2; omega
  have hs : (256 + block) / 256 % 2 = 1 := by have := hm.2; omega
  rw [getMeasurements_answers h (by rwa [hb]), hb, if_pos hs]

/-- Settles O47: every request is guarded by what it rests on, and its answer is the one of `spdmAnswered`. -/
theorem spdmEvents : Obligations.SpdmEvents := by
  unfold Obligations.SpdmEvents
  intro s n m len bytes x answered
  refine ⟨?version, getCapabilities_answers, ?algorithms, ?noOffer, ?algs, ?noAlgs, ?finish, ?finishRefused, ?session,
    ?noSession, ?chunk, rfl, rfl, ⟨_, rfl, rfl, rfl⟩, rfl, rfl⟩
  case version => exact congrArg Host.Outcome.next (spdmAnswer_eq _ _ _ _ rfl)
  case algorithms =>
    intro h
    exact ⟨_, spdmGuarded_granted (c := (x.caps && true) = true) (by simp [h]) s 0xE3 _ _ rfl⟩
  case noOffer => exact spdmGuarded_refused (c := (x.caps && false) = true) (by simp) s 0xE3 _ _
  case algs =>
    intro h
    refine ⟨?digests, ?certificate, ?challenge, ?block, ?blockFive, ?signed, ?keys⟩
    case digests => exact ⟨_, opaqueBytes_length _ _, spdmGuarded_granted h s 0x81 id _ rfl⟩
    case certificate => exact spdmGuarded_granted (c := (x.algs && decide (0 = 0)) = true) (by simp [h]) s 0x82 id _ rfl
    case challenge => exact ⟨_, opaqueBytes_length _ _, spdmGuarded_granted h s 0x83 id _ rfl⟩
    case block => exact fun h0 h5 => getMeasurements_plain h ⟨h0, .inl h5⟩
    case blockFive => exact fun h0 h16 => getMeasurements_plain h ⟨by decide, .inr ⟨rfl, h0, h16⟩⟩
    case signed => exact fun h0 h5 => ⟨_, opaqueBytes_length _ _, getMeasurements_signed h ⟨h0, .inl h5⟩⟩
    case keys => exact ⟨_, opaqueBytes_length _ _, spdmGuarded_granted h s 0xE4 _ _ rfl⟩
  case noAlgs =>
    intro h
    have hn : ¬ x.algs = true := by simp [h]
    exact ⟨spdmGuarded_refused hn s 0x81 _ _, spdmGuarded_refused hn s 0x83 _ _, getMeasurements_refused n m h,
      spdmGuarded_refused hn s 0xE4 _ _⟩
  case finish =>
    intro h
    exact spdmGuarded_granted (c := (x.exchange && true) = true) (by simp [h]) s 0xE5 _ _ rfl
  case finishRefused => exact spdmGuarded_refused (c := (x.exchange && false) = true) (by simp) s 0xE5 _ _
  case session =>
    intro h
    refine ⟨spdmGuarded_granted h s 0xE9 _ _ rfl, spdmGuarded_granted h s 0xE8 id _ rfl,
      spdmGuarded_granted h s 0xEC _ _ rfl, fun hn => ?_⟩
    exact spdmGuarded_granted (c := (x.session && decide (n ≤ 16)) = true) (by simp [h, hn]) s 0xFE _ _ rfl
  case noSession =>
    intro h
    have hn : ¬ x.session = true := by simp [h]
    exact ⟨spdmGuarded_refused hn s 0xE9 _ _, spdmGuarded_refused hn s 0xE8 _ _, spdmGuarded_refused hn s 0xEC _ _,
      spdmGuarded_refused (c := (x.session && decide (n ≤ 16)) = true) (by simp [h]) s 0xFE _ _⟩
  case chunk => exact ⟨_, rfl, rfl, rfl⟩

end Sys2Proof.Proofs
end

section
/-!
PROOFS. Reset: what the units hold after a power-on reset (R61, R64, R71, R86, R119, R168, R171, R274, R331, R417, R421-R423).
-/

namespace Sys2Proof.Proofs

open Sys2Proof Sys2Proof.Machine Sys2Proof.Cert

/-! ### A unit that no table lists (log 4, the model's choice) -/

@[simp] theorem reset_part (p : Nat) : State.reset.part p = {} := rfl
@[simp] theorem reset_core (c : Nat) : State.reset.core c = {} := rfl
@[simp] theorem reset_flight (f : Nat) : State.reset.flight f = {} := rfl
@[simp] theorem reset_landing (n : Nat) : State.reset.landing n = {} := rfl
@[simp] theorem reset_hslot (n : Nat) : State.reset.hslot n = n := rfl
@[simp] theorem reset_wordFull (c o : Nat) : State.reset.wordFull c o = true := rfl
@[simp] theorem reset_keyOk (part k : Nat) : State.reset.keyOk part k = false := rfl

@[simp] theorem reset_sramRead (c o n : Nat) : State.reset.sramRead c o n = List.replicate n 0 := by
  simp [State.sramRead, Mem.getMany, State.reset, Mem.get, List.map_const']

/-- Settles O57: every table of the reset state lists nothing, so each unit holds what the tables' defaults give. -/
theorem resetState : Obligations.ResetState := by
  unfold Obligations.ResetState
  intro s
  refine ⟨rfl, rfl, rfl, rfl, rfl, rfl, ?parts, ?cores, ?flights, fun n _ => reset_hslot n, ?landings, ?bytes, reset_keyOk 0⟩
  case parts => intro p; simp [s]
  case cores => intro c; simp [s, Tab.lookD]
  case flights => intro f; simp [s]
  case landings => intro n; simp [s]
  case bytes => intro c o; simp [s, List.replicate]

end Sys2Proof.Proofs
end


section
/-!
PROOFS. Walks: what a translation, a page walk and the memory-side cache do touches no core (R62-R63, R173-R174, R178-R181).
-/

namespace Sys2Proof.Proofs

open Sys2Proof Sys2Proof.Machine Sys2Proof.Cert

/-! ### The memory-side cache (R63, R173-R174) -/

@[simp] theorem modLines_cores (s : State) (cls : PClass) (pa : Nat) (f : List LlcLine → List LlcLine) :
    (s.modLines cls pa f).cores = s.cores := rfl
@[simp] theorem modLine_cores (s : State) (cls : PClass) (pa : Nat) (f : LlcLine → LlcLine) :
    (s.modLine cls pa f).cores = s.cores := rfl
@[simp] theorem writeBack_cores (s : State) (p : Nat → Bool) : (s.writeBack p).cores = s.cores := rfl
@[simp] theorem llcMark_cores (s : State) (cls : PClass) (pa : Nat) : (s.llcMark cls pa).cores = s.cores := rfl
@[simp] theorem draw_cores (s : State) (n : Nat) : (s.draw n).2.cores = s.cores := rfl

@[simp] theorem llcDrop_cores (s : State) (cls : PClass) (no : Nat) : (s.llcDrop cls no).cores = s.cores := by
  unfold State.llcDrop
  split <;> rfl

@[simp] theorem llcForeign_cores (s : State) (part : Nat) (cls : PClass) (pa : Nat) :
    (s.llcForeign part cls pa).cores = s.cores := by
  unfold State.llcForeign
  split
  · split <;> simp
  · rfl

@[simp] theorem llcEvict_cores (s : State) (cls : PClass) (pa : Nat) : (s.llcEvict cls pa).cores = s.cores := by
  unfold State.llcEvict
  dsimp only
  split
  · rfl
  · split
    · simp
    · split <;> simp

@[simp] theorem llcFront_cores (s : State) (cls : PClass) (pa : Nat) : (s.llcFront cls pa).cores = s.cores := by
  unfold State.llcFront
  split <;> rfl

@[simp] theorem llcFill_cores (s : State) (part : Nat) (cls : PClass) (pa key : Nat) :
    (s.llcFill part cls pa key).cores = s.cores := by
  unfold State.llcFill
  dsimp only
  split <;> simp

@[simp] theorem llcLoad_cores (s : State) (part hint : Nat) (cls : PClass) (pa key : Nat) :
    (s.llcLoad part hint cls pa key).cores = s.cores := by
  unfold State.llcLoad
  dsimp only
  split
  · rfl
  · split <;> simp

@[simp] theorem markDirty_cores (s : State) (part pa key : Nat) : (s.markDirty part pa key).cores = s.cores := by
  unfold State.markDirty
  split <;> rfl

@[simp] theorem llcStore_cores (s : State) (part hint : Nat) (cls : PClass) (pa key : Nat) :
    (s.llcStore part hint cls pa key).cores = s.cores := by
  have dirtied (u : State) : (if cls = .pool then u else if hint = 0 then u.markDirty part pa key
      else u.writeBack fun sec => sec == pa / 256).cores = u.cores := by
    split
    · rfl
    · split <;> simp
  refine (dirtied _).trans ?_
  split
  · simp
  · split <;> simp
  all_goals simp

/-! ### Reads and writes at a place (R184, R188) -/

@[simp] theorem countAt_cores (s : State) (storey part : Nat) (l : Loc) : (s.countAt storey part l).cores = s.cores := by
  unfold State.countAt
  split
  · unfold State.countMiss
    split <;> rfl
  · rfl

@[simp] theorem reach_cores (s : State) (storey part hint : Nat) (l : Loc) : (s.reach storey part hint l).cores = s.cores := by
  unfold State.reach
  split <;> simp

@[simp] theorem modRaw_cores (s : State) (cls : PClass) (f : Mem → Mem) : (s.modRaw cls f).cores = s.cores := rfl

@[simp] theorem rekey_cores (s : State) (part : Nat) (cls : PClass) (pa key : Nat) :
    (s.rekey part cls pa key).cores = s.cores := by
  unfold State.rekey
  dsimp only
  rw [State.modMemory_cores]
  split
  · rfl
  · split <;> simp

@[simp] theorem markCopied_cores (s : State) (pa : Nat) : (s.markCopied pa).cores = s.cores := by
  unfold State.markCopied
  split <;> rfl

@[simp] theorem physWrite_cores (s : State) (part hint : Nat) (cls : PClass) (pa key : Nat) (bs : List Byte) :
    (s.physWrite part hint cls pa key bs).cores = s.cores := by
  unfold State.physWrite
  split
  · rfl
  · dsimp only
    split <;> simp [State.llcMerge]

@[simp] theorem writeLoc_cores (s : State) (part hint : Nat) (l : Loc) (bs : List Byte) :
    (s.writeLoc part hint l bs).cores = s.cores := by
  unfold State.writeLoc
  split
  · unfold State.sramWrite
    split <;> rfl
  · simp [State.noteWrite]
  · rfl

/-! ### Walks and translations (R178-R181) -/

@[simp] theorem walkTouch_cores (s : State) (st part va : Nat) : (s.walkTouch st part va).cores = s.cores :=
  foldl_keeps State.cores (fun _ _ => reach_cores _ _ _ _ _) _ s

@[simp] theorem touchPte_cores (s : State) (st part pte e : Nat) (w : Bool) : (s.touchPte st part pte e w).cores = s.cores := by
  unfold State.touchPte
  split <;> simp

@[simp] theorem fillL1_cores (s : State) (f : Nat) (e : TlbEntry) : (s.fillL1 f e).cores = s.cores := by
  unfold State.fillL1
  split <;> simp

@[simp] theorem fillL2_cores (s : State) (st : Nat) (e : TlbEntry) : (s.fillL2 st e).cores = s.cores := by
  unfold State.fillL2
  split <;> simp

theorem translate_cores {s u : State} {core part va : Nat} {acc : Access} {e : TlbEntry}
    (h : s.translate core part va acc = .ok u e) : u.cores = s.cores := by
  unfold State.translate at h
  grind [fillL1_cores]

/-- The port finds the page in a TLB or by a walk; neither touches a core. -/
theorem portWalk_cores {s u : State} {core part va : Nat} {acc : Access} {l : Loc}
    (h : s.portWalk core part va acc = .ok u l) : u.cores = s.cores := by
  unfold State.portWalk at h
  dsimp only at h
  split at h
  case h_1 s1 e he =>
    obtain ⟨rfl, -⟩ := UnitRes.ok.inj h
    exact translate_cores he
  case h_2 =>
    split at h
    · cases h
    · split at h
      · cases h
      · cases h
      · split at h
        · obtain ⟨rfl, -⟩ := UnitRes.ok.inj h
          simp
        · cases h

theorem readDesc_cores {s u : State} {core part base i d : Nat} (h : s.readDesc core part base i = .ok u d) :
    u.cores = s.cores := by
  unfold State.readDesc State.readPort at h
  split at h
  case h_1 v l bs he =>
    split at he
    case h_1 w l' hw =>
      obtain ⟨⟨rfl, rfl⟩, -⟩ := Prod.mk.inj he |>.imp_left UnitRes.ok.inj
      split at h
      · cases h
      · obtain ⟨rfl, -⟩ := DescRes.ok.inj h
        rw [reach_cores, portWalk_cores hw]
    case h_2 r hr => exact (hr _ _ (Prod.mk.inj he).1).elim
  all_goals cases h

/-- An entry of the vector table is read, and its descriptor, and no core changes (R133). -/
theorem vecEntry_cores {s u : State} {core type cls prio : Nat} {entry : Word} {seg : Seg}
    (h : s.vecEntry core type = .usable u cls prio entry seg) : u.cores = s.cores := by
  unfold State.vecEntry at h
  dsimp only at h
  split at h
  · cases h
  · split at h
    · cases h
    · split at h
      case h_1 => cases h
      case h_2 => cases h
      case h_3 v d hd =>
        split at h
        · obtain ⟨rfl, -⟩ := VecRes.usable.inj h
          exact readDesc_cores hd
        · cases h

end Sys2Proof.Proofs
end

section
/-!
PROOFS. Tasks: what the task unit does with launches, counters, tokens, wakes, watchdogs and completions (R82-R85, R88-R95, R103,
R113-R114).
-/

namespace Sys2Proof.Proofs

open Sys2Proof Sys2Proof.Machine Sys2Proof.Cert

/-! ### Tables -/

theorem mem_of_look {α : Type} {t : Tab α} {k : Nat} {x : α} (h : t.look k = some x) : (k, x) ∈ t := by
  induction t with
  | nil => cases h
  | cons p r ih =>
    obtain ⟨j, y⟩ := p
    rw [Tab.look] at h
    split at h
    case isTrue e =>
      obtain rfl := Option.some.inj h
      exact e ▸ List.mem_cons_self
    case isFalse => exact List.mem_cons_of_mem _ (ih h)

/-- In a table that lists each number once, what a number lists is what reading it gives. -/
theorem look_of_mem {α : Type} {t : Tab α} (hn : (t.map Prod.fst).Nodup) {k : Nat} {x : α} (h : (k, x) ∈ t) :
    t.look k = some x := by
  induction t with
  | nil => cases h
  | cons p r ih =>
    obtain ⟨j, y⟩ := p
    obtain ⟨hj, hr⟩ := List.nodup_cons.1 hn
    rw [Tab.look]
    rcases List.mem_cons.1 h with e | hm
    · obtain ⟨rfl, rfl⟩ := Prod.mk.inj e
      exact if_pos rfl
    · have hne : j ≠ k := fun e => hj (List.mem_map.2 ⟨_, hm, e.symm⟩)
      rw [if_neg hne, ih hr hm]

/-- The first entry with a property keeps its number when what stands under that number is replaced by a value that agrees
with it on the property. -/
theorem find?_put_fst {α : Type} {p : Nat × α → Bool} {t : Tab α} {k : Nat} {x y : α} (hx : t.look k = some x)
    (hp : p (k, y) = p (k, x)) (h : (t.find? p).map Prod.fst = some k) : ((t.put k y).find? p).map Prod.fst = some k := by
  induction t with
  | nil => cases h
  | cons q r ih =>
    obtain ⟨j, z⟩ := q
    rw [Tab.look] at hx
    rw [Tab.put]
    by_cases hj : j = k
    · obtain rfl := hj
      obtain rfl := Option.some.inj ((if_pos rfl).symm.trans hx)
      rw [if_pos rfl]
      rw [List.find?_cons] at h ⊢
      rw [hp]
      split
      · rfl
      · simpa [*] using h
    · rw [if_neg hj] at hx ⊢
      split
      · rw [List.find?_cons]
        split
        · rfl
        · exact h
      · rw [List.find?_cons] at h ⊢
        split
        case h_1 hz => simp [hz, hj] at h
        case h_2 hz => exact ih hx (by simpa [hz] using h)

/-! ### Tasks of the package -/

@[simp] theorem modTask_threads (s : State) (n : Nat) (f : Task → Task) : (s.modTask n f).threads = s.threads := by
  unfold State.modTask
  split <;> rfl

@[simp] theorem modTask_memory (s : State) (n : Nat) (f : Task → Task) : (s.modTask n f).memory = s.memory := by
  unfold State.modTask
  split <;> rfl

theorem modTask_task? (s : State) (n : Nat) (f : Task → Task) : (s.modTask n f).task? n = (s.task? n).map f := by
  unfold State.modTask
  split
  case h_1 h => simp [h]
  case h_2 h => simp [State.task?, State.modPkg] at h ⊢; simp [h]

theorem addTask_task? (s : State) (t : Task) : (s.addTask t).task? s.pkg.nextTask = some t := Tab.look_put_self _ _ _

/-- A refused record is admitted as a task that fails with status 5 (R80, R82). -/
theorem admitRecord_refused {s : State} {p : Nat} {hseq : Word} {host : Bool} {bs : List Byte} (h : s.recordBad p bs = true) :
    s.admitRecord p hseq host bs = .ok (s.addTask (failedTask p hseq host
      { parseRecord bs with depAddr := 0, succ := [], event := 0 } 5)) := by
  simp [State.admitRecord, h]

/-! ### Task counters (R83-R84, R92) -/

/-- A change of a task that leaves its record leaves it the task of its counter. -/
theorem liveCounter_modTask {s : State} {core off k : Nat} {f : Task → Task} (hf : ∀ t, (f t).record = t.record)
    (h : s.liveCounter core off = some k) : (s.modTask k f).liveCounter core off = some k := by
  unfold State.modTask
  split
  case h_1 => exact h
  case h_2 t ht =>
    unfold State.liveCounter at h ⊢
    split
    case isTrue ho => simp [ho] at h
    case isFalse ho =>
      rw [if_neg ho] at h
      exact find?_put_fst ht (by rw [hf]) h

theorem noteSys_of_live {s : State} {core off k : Nat} (sys : Bool) (h : s.liveCounter core off = some k) :
    s.noteSys sys core off = if sys then s.modTask k fun t => { t with sysStart := true } else s := by
  cases sys <;> simp [State.noteSys, h]

theorem noteSys_liveCounter {s : State} {core off k : Nat} (sys : Bool) (h : s.liveCounter core off = some k) :
    (s.noteSys sys core off).liveCounter core off = some k := by
  rw [noteSys_of_live sys h]
  split
  · exact liveCounter_modTask (fun _ => rfl) h
  · exact h

theorem noteSys_tcmWord (s : State) (sys : Bool) (core off o : Nat) :
    (s.noteSys sys core off).tcmWord core o = s.tcmWord core o := by
  unfold State.noteSys
  split
  · simp [State.tcmWord, State.sramRead]
  · rfl

section Counter

variable {s : State} {core off n k : Nat} (ho : off < 0x1000) (hl : s.liveCounter core off = some k) (h0 : 0 < n)
include ho hl

theorem tokenTask_of_live : s.tokenTask core off = s.failTask k 1 none := by
  simp [State.tokenTask, ho, hl]

include h0

theorem decTask_counts (hn : n < (s.tcmWord core (off / 4 * 4)).toNat) :
    s.decTask core off n = s.setCount core (off / 4 * 4) ((s.tcmWord core (off / 4 * 4)).toNat - n) := by
  have hz : ¬ (s.tcmWord core (off / 4 * 4)).toNat = 0 := by omega
  simp [State.decTask, ho, hl, Nat.not_lt.2 hn.le, hz, Nat.not_le.2 hn]

theorem decTask_ends (hn : n = (s.tcmWord core (off / 4 * 4)).toNat) :
    s.decTask core off n = (s.setCount core (off / 4 * 4) 0).makeReady k := by
  have hz : ¬ n = 0 := by omega
  simp [State.decTask, ho, hl, ← hn, hz]

end Counter

/-- A DEC that reaches a core which answers counts at its task unit, once it is noted whether a system hall sent it. -/
theorem decMessage_arrives {s : State} {act core off n : Nat} {sender : Option Nat} {sys : Bool}
    (hr : s.ready? act = some (.dec sender core off n sys)) (hf : s.coreFenced core = false) (hw : s.coreWiping core = false) :
    exec (.decMessage act) s =
      .next ((((s.dropAct act).noteSys sys core off).decTask core off n).ackTo core sender) := by
  simp [execDecMessage, hr, hf, hw]

/-! ### The watchdog (R91) -/

@[simp] theorem modThr_task? (s : State) (id n : Nat) (f : Thread → Thread) : (s.modThr id f).task? n = s.task? n := by
  simp [State.task?]

/-- One change of the threads of a list of slots, where making it twice is making it once. -/
theorem foldl_modThr_thr? {f : Thread → Thread} (hf : ∀ t, f (f t) = f t) (l : List Nat) (s : State) (id : Nat) :
    (l.foldl (fun s i => s.modThr i f) s).thr? id = if id ∈ l then (s.thr? id).map f else s.thr? id := by
  induction l generalizing s with
  | nil => simp
  | cons i r ih =>
    rw [List.foldl_cons, ih]
    by_cases h : id = i
    · subst h
      simp [State.modThr_thr?_self, Function.comp_def, hf]
    · simp [State.modThr_thr?_ne s f h, h]

/-- A thread that its task's watchdog has told (R91). -/
def watched (x : Thread) : Thread := { x with watchdogTrap := true }

theorem mem_threadsOf {s : State} (hn : (s.threads.map Prod.fst).Nodup) {id n : Nat} {x : Thread} (hx : s.thr? id = some x) :
    id ∈ s.threadsOf n ↔ x.kind.taskNo = some n := by
  simp only [State.threadsOf, List.mem_map, List.mem_filter, beq_iff_eq]
  constructor
  · rintro ⟨⟨_, y⟩, ⟨hm, hy⟩, rfl⟩
    obtain rfl := Option.some.inj (hx.symm.trans (look_of_mem hn hm))
    exact hy
  · exact fun h => ⟨(id, x), ⟨mem_of_look hx, h⟩, rfl⟩

/-- Under FINISH the queue is frozen and every thread of the task is told; nothing else changes. -/
theorem watchdogExpiry_finish {s : State} {n : Nat} {k : Task} (ht : s.task? n = some k) (hx : k.expired s.cycle = true)
    (hf : k.record.finish = true) : exec (.watchdogExpiry n) s = .next ((s.threadsOf n).foldl
      (fun s id => s.modThr id watched) (s.modTask n fun t => { t with frozen := true, status := 3 })) := by
  simp [execWatchdogExpiry, ht, hx, hf, State.threadsOf]
  rfl

/-! ### Completion (R88-R90) -/

section Completion

variable {s : State} {n : Nat} {k : Task} (ht : s.task? n = some k) (hd : s.taskDone n k = true)
include ht hd

theorem taskCompletion_release (hw : s.writesLeft n = true) : exec (.taskCompletion n) s = .next (s.releaseTask n) := by
  simp [execTaskCompletion, ht, hd, hw]

variable (hw : s.writesLeft n = false)
include hw

theorem taskCompletion_absent {a : Nat} (ha : s.signalAbsent k = some a) : exec (.taskCompletion n) s =
    .next (s.pageFaulted (storeyOf k.record.home) (a / 65536) .atomic (flightOf k.record.home)) := by
  simp [execTaskCompletion, ht, hd, hw, ha]

variable (ha : s.signalAbsent k = none)
include ha

theorem taskCompletion_held (hh : s.signalHeld k = true) : exec (.taskCompletion n) s = .next s := by
  simp [execTaskCompletion, ht, hd, hw, ha, hh]

theorem taskCompletion_signals (hh : s.signalHeld k = false) {u : State}
    (he : ((k.record.succ ++ [k.record.event]).foldl (fun s a => s.signal k a) s).endTask n k = some u) :
    exec (.taskCompletion n) s = .next u := by
  simp only [exec_taskCompletion, execTaskCompletion, ht, hd, hw, ha, hh, he]
  rfl

end Completion

/-- Settles O48: each event's meaning with its conditions discharged; a DEC still finds its task once the task is marked, and
the watchdog's fold reaches the threads that the task has. -/
theorem taskEvents : Obligations.TaskEvents := by
  unfold Obligations.TaskEvents
  intro s act core off n starts
  have noted (sys : Bool) (k : Nat) (hl : s.liveCounter core off = some k) :
      (s.dropAct act).noteSys sys core off = starts sys k := noteSys_of_live (s := s.dropAct act) sys hl
  refine ⟨?launch, ?refused, ?counts, ?ends, ?token, ?wake, ?report, ?copy, ?watchdog, ?completion, ?release, ?nested⟩
  case launch =>
    intro p slice t hroom hthr hnext ht read u hu
    have hadmits : ¬ (4096 ≤ s.pkg.tasks.length || s.pkg.thr = 3 || s.nextLaunch ≠ some p) = true := by
      simp [hroom, hthr, hnext]
    simp only [read] at hu
    simp only [exec_launchAdmit, execLaunchAdmit, if_neg hadmits, ht, hu]
  case refused =>
    intro p hseq host bs h
    exact ⟨_, _, admitRecord_refused h, addTask_task? _ _, rfl, rfl, rfl, rfl⟩
  case counts =>
    intro sender k sys hr hf hw ho hl h0 hn
    have hm := noteSys_tcmWord (s.dropAct act) sys core off (off / 4 * 4)
    have hl' := noteSys_liveCounter (s := s.dropAct act) sys hl
    rw [decMessage_arrives hr hf hw, decTask_counts ho hl' h0 (hm ▸ hn), hm, noted sys k hl]
    rfl
  case ends =>
    intro sender k sys hr hf hw ho hl h0 hn
    have hm := noteSys_tcmWord (s.dropAct act) sys core off (off / 4 * 4)
    have hl' := noteSys_liveCounter (s := s.dropAct act) sys hl
    rw [decMessage_arrives hr hf hw, decTask_ends ho hl' h0 (hm ▸ hn), noted sys k hl]
  case token =>
    intro k hr hf hw ho hl
    simp only [exec_errorToken, execErrorToken, hr, hf, hw]
    exact congrArg _ (tokenTask_of_live ho hl)
  case wake =>
    intro t hr hroom
    refine ⟨fun hthr hactive => ?_, fun hno => ?_⟩
    · simp [execWakeMessage, hr, hroom, hthr, hactive]
    · simp only [exec_wakeMessage, execWakeMessage, hr]
      rw [if_pos (by simpa [or_assoc] using Or.inr hno)]
  case report =>
    intro rank ran status erred f k hr _
    simp [execRankCompletionReport, hr]
  case copy =>
    intro k f u ht hforme hhas hgone hnone hf hw copy hu
    simp only [exec_formeCopyReceived, execFormeCopyReceived, ht, hforme, hhas, hgone, hnone, hf, hw]
    simp [copy, hu]
  case watchdog =>
    intro k ht hready hstatus hwdog hdue hfinish hnodup
    have hx : k.expired s.cycle = true := by simp [Task.expired, hready, hstatus, hwdog, hdue]
    refine ⟨_, watchdogExpiry_finish ht hx hfinish, ?_, fun id x hid => ?_⟩
    · rw [foldl_keeps (fun s : State => s.task? n) (fun _ _ => modThr_task? _ _ _ _), modTask_task?, ht]
      rfl
    · have hsame (m : Task → Task) : (s.modTask n m).thr? id = s.thr? id := by rw [State.thr?, modTask_threads, State.thr?]
      rw [foldl_modThr_thr? (f := watched) (fun _ => rfl), hsame, hid]
      simp only [mem_threadsOf hnodup hid]
      split <;> rfl
  case completion =>
    intro k ht hd
    refine ⟨taskCompletion_release ht hd, fun a hw ha => taskCompletion_absent ht hd hw ha,
      fun hw ha hh => taskCompletion_held ht hd hw ha hh, ?_⟩
    intro hw ha hh t
    have signals {u : State} (he : t.endTask n k = some u) := taskCompletion_signals ht hd hw ha hh he
    refine ⟨fun ho hhost => signals ?_, fun u ho hhost hu => signals ?_, fun fabric no ho => signals ?_⟩
    · simp [State.endTask, ho, hhost]
    · simp [State.endTask, ho, hhost, hu]
    · simp [State.endTask, ho]
  case release =>
    intro k hheld ht hcompose hitem hidle
    simp [execFormeRelease, ht, hheld, hcompose, hitem, hidle]
  case nested =>
    intro f id hforme hparent hleft hlent
    simp [execNestedFormeRelease, hforme, hparent, hleft, hlent]

end Sys2Proof.Proofs
end

section
/-!
PROOFS. Threads: how threads start, what reaches them, and how they are pre-empted and resume (R85-R87, R100, R104, R111, R127,
R134-R135, R387, R394-R403).
-/

namespace Sys2Proof.Proofs

open Sys2Proof Sys2Proof.Machine Sys2Proof.Cert

/-! ### Slots and images -/

theorem look_mapVals {α : Type} (t : Tab α) (f : Nat → α → α) (k : Nat) :
    (t.mapVals f).look k = (t.look k).map (f k) := by
  induction t with
  | nil => rfl
  | cons p r ih =>
    obtain ⟨j, x⟩ := p
    simp only [Tab.mapVals, List.map_cons, Tab.look] at ih ⊢
    split
    case isTrue e => rw [← e]; rfl
    case isFalse => exact ih

theorem core_congr {s u : State} (h : u.cores = s.cores) (c : Nat) : u.core c = s.core c := by rw [State.core, h, State.core]

theorem thr?_congr {s u : State} (h : u.threads = s.threads) (id : Nat) : u.thr? id = s.thr? id := by
  rw [State.thr?, h, State.thr?]

@[simp] theorem putThread_thr? (s : State) (id : Nat) (t : Thread) : (s.putThread id t).thr? id = some t :=
  Tab.look_put_self _ _ _

@[simp] theorem dropPoolLines_cores (s : State) (part : Nat) : (s.dropPoolLines part).cores = s.cores := rfl

@[simp] theorem acquire_threads (s : State) (core : Nat) (sc : Scope) : (s.acquire core sc).threads = s.threads := by
  unfold State.acquire
  split
  · rfl
  · dsimp only
    split <;> rfl

theorem acquire_msgs (s : State) (core : Nat) (sc : Scope) : ((s.acquire core sc).core core).msgs = (s.core core).msgs := by
  unfold State.acquire
  split
  · rfl
  · dsimp only
    split
    · rw [core_congr (dropPoolLines_cores _ _), State.modCore_core]
    · rw [State.modCore_core]

/-! ### Starts (R85, R100, R104, R111, R387) -/

/-- A thread that starts work stands in its slot, at the level that its entry was served at. -/
theorem startWork_thr? (s : State) (core slot lv : Nat) (t : Thread) : (s.startWork core slot lv t).thr? (slotidOf core slot) =
    some { t with level := lv, stamped := (s.core core).stampSeq } := by
  rw [State.startWork, thr?_congr (acquire_threads _ _ _), thr?_congr (State.modCore_threads _ _ _), putThread_thr?]

/-- The mode that a start gives: a thread of a task runs in user mode, a handler in supervisor mode (R104, R134). -/
theorem userMode_of_startSys {s : State} {core : Nat} {user : Bool} {t : Thread} (h : t.sys = s.startSys core (!user)) :
    t.userMode = user := by
  rw [Thread.userMode, h]
  cases user <;> simp [State.startSys, Word.ofBool]

section Stamp

variable {s : State} {core slot lv idx n : Nat} (hfree : s.slotFree core slot 2 = true)
include hfree

theorem stampItem_sub {w : SubWork} (h : s.serve? core (s.core core).hold = some (lv, idx, .task n, .sub w)) :
    exec (.stampItem core slot) s = .next (((s.takeSub core w).served core lv idx).startWork core slot lv
      (s.impression core n w.forme w.item w.next w.depth w.entry)) := by
  simp [execStampItem, hfree, h]

theorem stampItem_item {i : Nat} {k : Task} (h : s.serve? core (s.core core).hold = some (lv, idx, .task n, .item i))
    (ht : s.task? n = some k) : exec (.stampItem core slot) s = .next
      (((s.takeItem core n).served core lv idx).startWork core slot lv
      (s.impression core n (formeKey n) i 0 0 (BitVec.ofNat 32 k.hdr.entry))) := by
  simp [execStampItem, hfree, h, ht]

/-- An impression whose NJOIN can complete, and one that was pre-empted, are restored from their images. -/
theorem resume_image {j : Nat} (h : s.serve? core (s.core core).hold = some (lv, idx, .task n, .join j)
      ∨ s.serve? core (s.core core).hold = some (lv, idx, .task n, .image j)) :
    exec (.resume core slot) s = .next ((s.served core lv idx).restore core slot lv j n) := by
  rcases h with h | h <;> simp [execResume, hfree, h]

end Stamp

/-- An item or a sub-item that is stamped stands in the slot as an impression in user mode. -/
theorem startWork_impression (s u : State) (core slot lv n f item sub depth : Nat) (pc : Word) :
    ∃ x, (u.startWork core slot lv (s.impression core n f item sub depth pc)).thr? (slotidOf core slot) = some x
      ∧ x.kind = .impression n f item sub depth ∧ x.pc = pc ∧ x.regs = impRegs (BitVec.ofNat 32 item) (BitVec.ofNat 32 sub)
      ∧ x.userMode = true ∧ x.level = lv :=
  ⟨_, startWork_thr? .., rfl, rfl, rfl, userMode_of_startSys rfl, rfl⟩

/-- The composing thread starts in the slot that is free, with the registers of a task's first thread (R81, R100). -/
theorem composingThreadStart_starts {s u : State} {n slot lv idx : Nat} {k : Task} (ht : s.task? n = some k)
    (hc : k.compose = .waiting) (hr : k.ready = true) (hst : k.status = 0) (hi : k.record.itemCnt ≠ 0)
    (hfit : k.hdr.formeNeed ≤ (s.core k.record.home).shSize) (hslot : s.workSlot k.record.home = some slot)
    (hserve : s.serve? k.record.home (s.core k.record.home).hold = some (lv, idx, .task n, .compose))
    (hu : s.allocForme k.record.home n k.hdr { task := n, complete := false } = some u) :
    exec (.composingThreadStart n) s = .next ((((u.loadTemplate k.record.home
        ((u.core k.record.home).formes.lookD (formeKey n) { task := n }) k.image).served k.record.home lv idx).startWork
          k.record.home slot lv { kind := .composing n, pc := BitVec.ofNat 32 k.hdr.proEnt, regs := k.firstRegs, segs := k.hdr.segs
                                  sys := s.startSys k.record.home false, sketches := k.hdr.sketches }).modTask n
        fun t => { t with compose := .composing }) := by
  have hgo : ¬ (k.compose ≠ .waiting || !k.ready || k.status ≠ 0 || k.record.itemCnt = 0) = true := by
    simp [hc, hr, hst, hi]
  simp only [exec_composingThreadStart, execComposingThreadStart, ht, if_neg hgo, if_neg (Nat.not_lt.2 hfit), hslot, hserve, hu,
    ne_eq, not_true_eq_false, if_false]

/-! ### Messages and handlers (R134-R135) -/

/-- A message that its core accepts is acknowledged. -/
theorem messageArrival_taken {s u : State} {act core : Nat} {sender : Option Nat} {m : Message}
    (hr : s.ready? act = some (.msg sender core m)) (hf : s.coreFenced core = false) (hw : s.coreWiping core = false)
    (h : s.acceptMsg core m = .taken u) : exec (.messageArrival act) s = .next ((u.dropAct act).ackTo core sender) := by
  simp [execMessageArrival, hr, hf, hw, h]

/-- A handler class whose queue has room takes the message at its end. -/
theorem queueMsg_handler {u : State} {core : Nat} (prio : Nat) (m : Message) (h : (u.core core).msgs.length < 64) :
    u.queueMsg core 1 prio m = .taken (u.modCore core fun c => { c with msgs := c.msgs ++ [m] }) := by
  simp [State.queueMsg, Nat.not_le.2 h]

/-- The one message that waits starts its handler, and the queue is empty. -/
theorem handlerThreadStart_starts {s u : State} {core slot cls prio : Nat} {m : Message} {entry : Word} {seg : Seg}
    (hfree : s.slotFree core slot 1 = true) (hm : (s.core core).msgs = [m])
    (hv : s.vecEntry core m.type = .usable u cls prio entry seg) :
    exec (.handlerThreadStart core slot) s = .next (((u.modCore core fun c => { c with msgs := c.msgs.eraseIdx 0 }).putThread
      (slotidOf core slot) (s.handlerThread core .handler entry seg (some m))).acquire core .pkg) := by
  simp [execHandlerThreadStart, hfree, hm, minBy, State.msgThread, hv]

/-! ### Fills (R127) -/

/-- A fill that reaches a core which answers is applied to the thread in the slot. -/
theorem remoteFill_arrives {s : State} {act core slot reg : Nat} {sender : Option Nat} {vec : Bool} {v : VWord}
    (hr : s.ready? act = some (.fill sender core slot vec reg v true)) (hf : s.coreFenced core = false)
    (hw : s.coreWiping core = false) : exec (.remoteFill act) s =
      .next (((s.dropAct act).applyFill core slot vec reg v true).ackTo core sender) := by
  simp [execRemoteFill, hr, hf, hw]

theorem fillTarget_running {s : State} {id : Nat} (h : (s.thr? id).isSome = true) : s.fillTarget id = some id := by
  simp [State.fillTarget, h]

/-- The exposed scalar registers are s16-s31, without the queues' registers of slot 0. -/
theorem applyFill_scalar {s : State} {core slot reg : Nat} (v : VWord) (h : (s.thr? (slotidOf core slot)).isSome = true)
    (hlo : 16 ≤ reg) (hq : ¬ (slot = 0 ∧ 28 ≤ reg)) : s.applyFill core slot false reg v true =
      (s.fillS (slotidOf core slot) reg (v.truncate 32)).noteFill (slotidOf core slot) reg := by
  have he : (16 ≤ reg && !(slot == 0 && decide (28 ≤ reg))) = true := by simp; omega
  simp only [State.applyFill, fillTarget_running h, he]
  rfl

/-- The exposed vector registers are v8-v15. -/
theorem applyFill_vector {s : State} {core slot reg : Nat} (v : VWord) (h : (s.thr? (slotidOf core slot)).isSome = true)
    (hlo : 8 ≤ reg) (hhi : reg < 16) : s.applyFill core slot true reg v true =
      (s.fillV (slotidOf core slot) reg v).noteFill (slotidOf core slot) (32 + reg) := by
  have he : (8 ≤ reg && reg ≤ 15) = true := by simp; omega
  simp only [State.applyFill, fillTarget_running h, he]
  rfl

/-! ### Pre-emption (R87, R394-R397) -/

/-- The core's turn falls to one victim: the one that it wants, when none waits, or the one that waits. -/
theorem preempt_one {s : State} {core id : Nat} {b : Bool}
    (h : ((s.core core).victims = [] ∧ s.wantVictim core = some id)
      ∨ ((s.core core).victims = [(id, b)] ∧ (s.thr? id).isSome = true)) :
    exec (.preempt core) s = .next (s.preemptOne core id) := by
  rcases h with ⟨hv, hw⟩ | ⟨hv, ht⟩
  · simp [execPreempt, hv, hw]
  · simp [execPreempt, hv, Tab.keys, ht]

/-! ### Packets (R328-R329, R351) -/

/-- What a receive queue of a class holds. -/
def received (c : Core) (cls : NetClass) : List Word := if cls = .request then c.rxReq else c.rxColl

theorem deliverPacket_room {s : State} {dst : Nat} {cls : NetClass} {ws : List Word}
    (h : (received (s.core dst) cls).length + ws.length ≤ 64) : ∃ u, s.deliverPacket dst cls ws = some u
      ∧ received (u.core dst) cls = received (s.core dst) cls ++ ws := by
  unfold received at h ⊢
  simp only [State.deliverPacket, if_neg (Nat.not_lt.2 h)]
  refine ⟨_, rfl, ?_⟩
  rw [core_congr (State.modThr_cores _ _ _), State.modCore_core]
  split <;> rfl

/-- Settles O49: a start leaves its thread in the slot; the reads of a vector entry touch no core, so the message queue that
a handler's start shortens is the one that the core had. -/
theorem threadEvents : Obligations.ThreadEvents := by
  unfold Obligations.ThreadEvents
  intro s act core slot n lv idx
  refine ⟨?compose, ?work, ?queued, ?absent, ?handler, ?scalar, ?vector, ?preempt, ?idle, ?saved, ?packet, ?away⟩
  case compose =>
    intro k u ht hc hr hst hi hfit hslot hserve hu
    refine ⟨_, _, composingThreadStart_starts ht hc hr hst hi hfit hslot hserve hu,
      (thr?_congr (modTask_threads _ _ _) _).trans (startWork_thr? ..), rfl, rfl, rfl, rfl, userMode_of_startSys rfl, rfl⟩
  case work =>
    intro hfree
    refine ⟨fun w h => ?_, fun i k h ht => ?_, fun j h => resume_image hfree h⟩
    · exact ⟨_, (startWork_impression ..).imp fun x hx => ⟨stampItem_sub hfree h, hx⟩⟩
    · exact ⟨_, (startWork_impression ..).imp fun x hx => ⟨stampItem_item hfree h ht, hx⟩⟩
  case queued =>
    intro sender m hr hf hw u prio entry seg h0 h1 h4 hv hroom
    refine messageArrival_taken hr hf hw ?_
    simp [State.acceptMsg, h0, h1, h4, hv, queueMsg_handler prio m hroom]
  case absent =>
    intro sender m page prio hr hf hw h0 h1 h4 hv hroom
    refine messageArrival_taken hr hf hw ?_
    simp [State.acceptMsg, h0, h1, h4, hv, queueMsg_handler prio m hroom]
  case handler =>
    intro m u cls prio entry seg hfree hm hv
    refine ⟨_, s.handlerThread core .handler entry seg (some m), handlerThreadStart_starts hfree hm hv,
      ?_, ?_, rfl, rfl, rfl, userMode_of_startSys rfl, rfl⟩
    · rw [thr?_congr (acquire_threads _ _ _), putThread_thr?]
    · rw [acquire_msgs, core_congr (State.putThread_cores _ _ _), State.modCore_core, core_congr (vecEntry_cores hv), hm]
      rfl
  case scalar =>
    intro sender reg v x hr hf hw hx hlo _ hq
    rw [remoteFill_arrives hr hf hw, applyFill_scalar (s := s.dropAct act) v (Option.isSome_of_eq_some hx) hlo hq]
  case vector =>
    intro sender reg v x hr hf hw hx hlo hhi
    rw [remoteFill_arrives hr hf hw, applyFill_vector (s := s.dropAct act) v (Option.isSome_of_eq_some hx) hlo hhi]
  case preempt =>
    intro id b h hex hhalt hcan
    rw [preempt_one h]
    exact ⟨fun hd => by simp [State.preemptOne, hex, hhalt, hcan, hd],
      fun hd => by simp [State.preemptOne, hex, hhalt, hcan, hd]⟩
  case idle =>
    intro hv hw
    simp [execPreempt, hv, hw]
  case saved =>
    refine ⟨_, rfl, fun k im h => ?_, rfl⟩
    rw [look_mapVals, h]
    rfl
  case packet =>
    intro cls src ws hr hw hh hroom
    obtain ⟨u, hu, hq⟩ := deliverPacket_room hroom
    refine ⟨u.dropAct act, ?_, hq⟩
    simp [execPacketDelivery, hr, hw, hh, hu]
  case away =>
    intro cls src fabric group ws port hr
    refine ⟨fun hp hheld => ?_, fun hp => ?_, ?_⟩
    · have hgo : (cls == .collective && (s.coreHeld (storeyOf src) src
          || s.pathHeld (rowLinks (storeyOf src) (portDie port)))) = false := by
        rcases hheld with h | ⟨h, h'⟩
        · simp [h]
        · simp [h, h']
      simp [execPacketDelivery, hr, hp, hgo]
    · simp [execPacketDelivery, hr, hp]
    · simp [execTransportGiveUp, hr]

end Sys2Proof.Proofs
end

section
/-!
PROOFS. Vector and mask registers: what a whole or partial write of one leaves in the issuing thread's registers (R105-R106,
R126, R229).
-/

namespace Sys2Proof.Proofs

open Sys2Proof Sys2Proof.Machine Sys2Proof.Cert

theorem setBit_getLsbD {w : Nat} (x : BitVec w) {i : Nat} (j : Nat) (b : Bool) (h : i < w) :
    (setBit x i b).getLsbD j = if j = i then b else x.getLsbD j := by
  have hb : (BitVec.ofNat w (2 ^ i)).getLsbD j = decide (j = i) := by
    rw [BitVec.getLsbD_ofNat, Nat.testBit_two_pow]
    by_cases e : j = i
    · simp [e, h]
    · simp [e, Ne.symm e]
  cases b
  case true =>
    rw [setBit, if_pos rfl, BitVec.getLsbD_or, hb]
    by_cases e : j = i <;> simp [e]
  case false =>
    rw [setBit, if_neg Bool.false_ne_true, BitVec.getLsbD_and, BitVec.getLsbD_not, hb]
    by_cases e : j = i
    · simp [e]
    · simpa [e] using BitVec.lt_of_getLsbD

/-! ### Registers with one written (R105, R126) -/

@[simp] theorem putV_s (r : Regs) (n : Nat) (v : VWord) : (r.putV n v).s = r.s := rfl
@[simp] theorem putV_k (r : Regs) (n : Nat) (v : VWord) : (r.putV n v).k = r.k := rfl
@[simp] theorem putV_sOwn (r : Regs) (n : Nat) (v : VWord) : (r.putV n v).sOwn = r.sOwn := rfl
@[simp] theorem putV_kOwn (r : Regs) (n : Nat) (v : VWord) : (r.putV n v).kOwn = r.kOwn := rfl

@[simp] theorem putV_self (r : Regs) (n : Nat) (v : VWord) : (r.putV n v).v.lookD n 0 = v := Tab.lookD_put_self _ _ _ _

theorem putV_ne (r : Regs) {n m : Nat} (v : VWord) (h : m ≠ n) : (r.putV n v).v.lookD m 0 = r.v.lookD m 0 :=
  Tab.lookD_put_ne _ _ _ h

theorem putV_vOwn (r : Regs) {n : Nat} (m : Nat) (v : VWord) (h : n < 16) :
    (r.putV n v).vOwn.getLsbD m = if m = n then true else r.vOwn.getLsbD m := setBit_getLsbD _ _ _ h

theorem putV_vFull (r : Regs) {n : Nat} (m : Nat) (v : VWord) (h : n < 16) :
    (r.putV n v).vFull.getLsbD m = if m = n then true else r.vFull.getLsbD m := setBit_getLsbD _ _ _ h

@[simp] theorem putK_s (r : Regs) (n : Nat) (c : Mask) : (r.putK n c).s = r.s := rfl
@[simp] theorem putK_v (r : Regs) (n : Nat) (c : Mask) : (r.putK n c).v = r.v := rfl
@[simp] theorem putK_sOwn (r : Regs) (n : Nat) (c : Mask) : (r.putK n c).sOwn = r.sOwn := rfl
@[simp] theorem putK_vOwn (r : Regs) (n : Nat) (c : Mask) : (r.putK n c).vOwn = r.vOwn := rfl

@[simp] theorem putK_self (r : Regs) (n : Nat) (c : Mask) : (r.putK n c).k.lookD n 0 = c := Tab.lookD_put_self _ _ _ _

theorem putK_ne (r : Regs) {n m : Nat} (c : Mask) (h : m ≠ n) : (r.putK n c).k.lookD m 0 = r.k.lookD m 0 :=
  Tab.lookD_put_ne _ _ _ h

theorem putK_kOwn (r : Regs) {n : Nat} (m : Nat) (c : Mask) (h : n < 8) :
    (r.putK n c).kOwn.getLsbD m = if m = n then true else r.kOwn.getLsbD m := setBit_getLsbD _ _ _ h

/-! ### The registers that the issuing thread reads after a change of it (R105) -/

theorem onlyMe_modMe (s : State) (f : Thread → Thread) : OnlyMe s (s.modMe f) :=
  ⟨State.modThr_only s s.cur f, fun _ h => State.modThr_thr?_ne s f h⟩

section Reads

variable {s : State} {f : Thread → Thread} (h : (s.thr? s.cur).isSome = true) (hk : (f s.me).kind = s.me.kind)
include h hk

/-- A thread that stays an impression of its forme sees the same registers where it owns none. -/
theorem under_modMe : (s.modMe f).under s.cur = s.under s.cur := by
  have hf : (s.modMe f).formeOf s.cur = s.formeOf s.cur := by
    have hme : (s.modMe f).thr s.cur = f s.me := State.modThr_thr_self f h
    rw [State.formeOf, hme, hk, core_congr (State.modMe_cores s f)]
    rfl
  rw [State.under, hf, State.under]

theorem rS_modMe (m : Nat) : (s.modMe f).rS m = if m = 0 then 0
    else if (f s.me).regs.sOwn.getLsbD m then (f s.me).regs.s.lookD m 0 else (s.under s.cur).s.lookD m 0 := by
  rw [State.rS, State.modMe_cur, State.sOf, under_modMe h hk, State.modMe, State.modThr_thr_self f h, State.me]

theorem rV_modMe (m : Nat) : (s.modMe f).rV m =
    if (f s.me).regs.vOwn.getLsbD m then (f s.me).regs.v.lookD m 0 else (s.under s.cur).v.lookD m 0 := by
  rw [State.rV, State.modMe_cur, State.vOf, under_modMe h hk, State.modMe, State.modThr_thr_self f h, State.me]

theorem rK_modMe (m : Nat) : (s.modMe f).rK m = if m = 0 then BitVec.allOnes 64
    else if (f s.me).regs.kOwn.getLsbD m then (f s.me).regs.k.lookD m 0 else (s.under s.cur).k.lookD m 0 := by
  rw [State.rK, State.modMe_cur, State.kOf, under_modMe h hk, State.modMe, State.modThr_thr_self f h, State.me]

theorem vFullOf_modMe (m : Nat) : (s.modMe f).vFullOf s.cur m =
    if (f s.me).regs.vOwn.getLsbD m then (f s.me).regs.vFull.getLsbD m else (s.under s.cur).vFull.getLsbD m := by
  rw [State.vFullOf, under_modMe h hk, State.modMe, State.modThr_thr_self f h, State.me]

end Reads

/-- What every write of a vector register by the issuing thread leaves to read: the value, present; every other register as
it was. -/
structure WritesV (s t : State) (n : Nat) (v : VWord) : Prop where
  only : OnlyMe s t
  value : t.rV n = v
  full : t.vFullOf s.cur n = true
  others : ∀ m, m ≠ n → t.rV m = s.rV m ∧ t.vFullOf s.cur m = s.vFullOf s.cur m
  scalars : ∀ m, t.rS m = s.rS m
  masks : ∀ m, t.rK m = s.rK m

/-- What every write of a mask register by the issuing thread leaves to read. -/
structure WritesK (s t : State) (n : Nat) (c : Mask) : Prop where
  only : OnlyMe s t
  value : t.rK n = c
  others : ∀ m, m ≠ n → t.rK m = s.rK m
  scalars : ∀ m, t.rS m = s.rS m
  vectors : ∀ m, t.rV m = s.rV m

section Writes

variable {s : State} {f : Thread → Thread} {n : Nat} (h : (s.thr? s.cur).isSome = true) (hk : (f s.me).kind = s.me.kind)
include h hk

theorem writesV_of_putV {v : VWord} (hn : n < 16) (hr : (f s.me).regs = s.me.regs.putV n v) : WritesV s (s.modMe f) n v where
  only := onlyMe_modMe s f
  value := by rw [rV_modMe h hk, hr, putV_vOwn _ _ _ hn, if_pos rfl, if_pos rfl, putV_self]
  full := by rw [vFullOf_modMe h hk, hr, putV_vOwn _ _ _ hn, putV_vFull _ _ _ hn, if_pos rfl, if_pos rfl, if_pos rfl]
  others m hm := by
    rw [rV_modMe h hk, vFullOf_modMe h hk, hr, putV_vOwn _ _ _ hn, putV_vFull _ _ _ hn, putV_ne _ _ hm, if_neg hm, if_neg hm]
    exact ⟨rfl, rfl⟩
  scalars m := by rw [rS_modMe h hk, hr, putV_sOwn, putV_s]; rfl
  masks m := by rw [rK_modMe h hk, hr, putV_kOwn, putV_k]; rfl

theorem writesK_of_putK {c : Mask} (h0 : n ≠ 0) (hn : n < 8) (hr : (f s.me).regs = s.me.regs.putK n c) :
    WritesK s (s.modMe f) n c where
  only := onlyMe_modMe s f
  value := by rw [rK_modMe h hk, hr, putK_kOwn _ _ _ hn, if_neg h0, if_pos rfl, if_pos rfl, putK_self]
  others m hm := by
    rw [rK_modMe h hk, hr, putK_kOwn _ _ _ hn, putK_ne _ _ hm, if_neg hm]
    rfl
  scalars m := by rw [rS_modMe h hk, hr, putK_sOwn, putK_s]; rfl
  vectors m := by rw [rV_modMe h hk, hr, putK_vOwn, putK_v]; rfl

end Writes

/-! ### Writes as one change of the issuing thread (R105-R106) -/

/-- The delay that a partial write of a register takes: a copy fault where the register is not owned (R106). -/
def partialDelay (owned : Bool) : Nat := if owned then 0 else 4

theorem wVpart_eq (s : State) (n : Nat) (v : VWord) : s.wVpart n v = s.modMe fun t =>
    { t with regs := t.regs.putV n v, early := t.early + partialDelay (s.me.regs.vOwn.getLsbD n) } := by
  unfold State.wVpart
  cases s.me.regs.vOwn.getLsbD n
  case true => rfl
  case false =>
    rw [if_neg Bool.false_ne_true, State.delay, State.modMe, State.wVkeep, State.modRegs_eq, State.modThr_cur,
      State.modThr_modThr]
    rfl

theorem wK_eq (s : State) {n : Nat} (c : Mask) (h0 : n ≠ 0) :
    s.wK n c = s.modMe fun t => { t with regs := t.regs.putK n c } := if_neg h0

theorem wKpart_eq (s : State) {n : Nat} (c : Mask) (h0 : n ≠ 0) : s.wKpart n c = s.modMe fun t =>
    { t with regs := t.regs.putK n c, early := t.early + partialDelay (s.me.regs.kOwn.getLsbD n) } := by
  rw [State.wKpart, if_neg h0, wK_eq s c h0]
  cases s.me.regs.kOwn.getLsbD n
  case true => rfl
  case false =>
    rw [if_neg Bool.false_ne_true, State.delay, State.modMe, State.modMe, State.modThr_cur, State.modThr_modThr]
    rfl

/-! ### The writes of the model (R105-R106, R229) -/

section Writers

variable {s : State} {n : Nat} (h : (s.thr? s.cur).isSome = true)
include h

theorem wV_writes (v : VWord) (hn : n < 16) : WritesV s (s.wV n v) n v :=
  writesV_of_putV (f := fun t => { t with regs := t.regs.putV n v, fresh := t.fresh.del n }) h rfl hn rfl

/-- R229: a whole write ends what a delivery has left to acquire. -/
theorem wV_fresh (n : Nat) (v : VWord) : (s.wV n v).me.fresh = s.me.fresh.del n :=
  congrArg Thread.fresh (State.modMe_me (fun t => { t with regs := t.regs.putV n v, fresh := t.fresh.del n }) h)

theorem wVpart_writes (v : VWord) (hn : n < 16) : WritesV s (s.wVpart n v) n v := by
  rw [wVpart_eq]
  exact writesV_of_putV h rfl hn rfl

theorem wVpart_me (n : Nat) (v : VWord) : (s.wVpart n v).me = { s.me with
    regs := s.me.regs.putV n v, early := s.me.early + partialDelay (s.me.regs.vOwn.getLsbD n) } := by
  rw [wVpart_eq, State.modMe_me _ h]

theorem wK_writes (c : Mask) (h0 : n ≠ 0) (hn : n < 8) : WritesK s (s.wK n c) n c := by
  rw [wK_eq s c h0]
  exact writesK_of_putK h rfl h0 hn rfl

theorem wKpart_writes (c : Mask) (h0 : n ≠ 0) (hn : n < 8) : WritesK s (s.wKpart n c) n c := by
  rw [wKpart_eq s c h0]
  exact writesK_of_putK h rfl h0 hn rfl

theorem wKpart_me (c : Mask) (h0 : n ≠ 0) : (s.wKpart n c).me = { s.me with
    regs := s.me.regs.putK n c, early := s.me.early + partialDelay (s.me.regs.kOwn.getLsbD n) } := by
  rw [wKpart_eq s c h0, State.modMe_me _ h]

end Writers

/-- Settles O18: each write is one change of the issuing thread, which puts the register's value and leaves the forme that
the thread reads where it owns no register; a partial one leaves the rest of the thread but for its delay. -/
theorem vectorWrite : Obligations.VectorWrite := by
  unfold Obligations.VectorWrite
  intro s n m v c h hn _
  have whole := wV_writes h v hn
  have part := wVpart_writes h v hn
  refine ⟨whole.only, whole.value, whole.full, fun hm => (whole.others m hm).1, whole.scalars m, whole.masks m, wV_fresh h n v,
    ?partly, ?maskPartly, ?mask⟩
  case partly =>
    have hme := wVpart_me h n v
    refine ⟨part.only, part.value, part.full, ?_, ?_, part.others m, part.scalars m, part.masks m, ?_⟩
    · rw [hme, putV_vOwn _ _ _ hn, if_pos rfl]
    · rw [hme, partialDelay]
    · exact hme ▸ ⟨rfl, rfl, rfl⟩
  case maskPartly =>
    refine ⟨fun h0 => if_pos h0, fun h0 hn => ?_⟩
    have maskPart := wKpart_writes h c (Nat.ne_of_gt h0) hn
    have hme := wKpart_me h c (Nat.ne_of_gt h0)
    refine ⟨maskPart.only, maskPart.value, ?_, ?_, maskPart.others m, maskPart.vectors m, maskPart.scalars m, ?_⟩
    · rw [hme, putK_kOwn _ _ _ hn, if_pos rfl]
    · rw [hme, partialDelay]
    · exact hme ▸ ⟨rfl, rfl, rfl⟩
  case mask =>
    intro h0 hn
    have mask := wK_writes h c (Nat.ne_of_gt h0) hn
    exact ⟨mask.only, mask.value, mask.others m, mask.vectors m, mask.scalars m⟩

end Sys2Proof.Proofs
end

section
/-!
PROOFS. What a write through the memory side leaves: every reading of the state that a slice, the memory, the package's page
counts, a drawn choice and a watch do not enter, stated once for all such readings (R63, R173-R174, R178-R181, R184, R396).
-/

namespace Sys2Proof.Proofs

open Sys2Proof Sys2Proof.Machine Sys2Proof.Cert

/-- A reading of the state that the memory side does not change. -/
structure OffMemory {γ : Type} (g : State → γ) : Prop where
  slice : ∀ s n f, g (s.modSlice n f) = g s
  memory : ∀ s f, g (s.modMemory f) = g s
  pkg : ∀ s f, g (s.modPkg f) = g s
  draw : ∀ s n, g (State.draw s n).2 = g s
  watches : ∀ s p l n, g (State.noteWrite s p l n) = g s

theorem offMemory_threads : OffMemory State.threads :=
  ⟨fun _ _ _ => rfl, fun _ _ => rfl, fun _ _ => rfl, fun _ _ => rfl, fun _ _ _ _ => rfl⟩

section OffMemory

variable {γ : Type} {g : State → γ} (hg : OffMemory g)
include hg

/-! ### The memory-side cache (R63, R173-R174) -/

theorem modLine_keeps (s : State) (cls : PClass) (pa : Nat) (f : LlcLine → LlcLine) : g (s.modLine cls pa f) = g s := by
  unfold State.modLine State.modLines
  exact hg.slice _ _ _

theorem llcDrop_keeps (s : State) (cls : PClass) (no : Nat) : g (s.llcDrop cls no) = g s := by
  unfold State.llcDrop State.modLines
  refine (hg.slice _ _ _).trans ?_
  split
  · exact hg.memory _ _
  · rfl

theorem llcForeign_keeps (s : State) (part : Nat) (cls : PClass) (pa : Nat) : g (s.llcForeign part cls pa) = g s := by
  unfold State.llcForeign
  split
  · split
    · rfl
    · exact llcDrop_keeps hg _ _ _
  · rfl

theorem llcEvict_keeps (s : State) (cls : PClass) (pa : Nat) : g (s.llcEvict cls pa) = g s := by
  unfold State.llcEvict
  dsimp only
  split
  · rfl
  · split
    · exact llcDrop_keeps hg _ _ _
    · split
      · exact (llcDrop_keeps hg _ _ _).trans (hg.draw _ _)
      · rfl

theorem llcFront_keeps (s : State) (cls : PClass) (pa : Nat) : g (s.llcFront cls pa) = g s := by
  unfold State.llcFront
  split
  · exact hg.slice _ _ _
  · rfl

theorem llcFill_keeps (s : State) (part : Nat) (cls : PClass) (pa key : Nat) : g (s.llcFill part cls pa key) = g s := by
  unfold State.llcFill
  dsimp only
  split
  · exact (modLine_keeps hg _ _ _ _).trans (llcFront_keeps hg _ _ _)
  · exact (hg.slice _ _ _).trans (llcEvict_keeps hg _ _ _)

theorem llcLoad_keeps (s : State) (part hint : Nat) (cls : PClass) (pa key : Nat) :
    g (s.llcLoad part hint cls pa key) = g s := by
  unfold State.llcLoad State.llcMark
  dsimp only
  split
  · rfl
  · split <;> simp only [llcFront_keeps hg, modLine_keeps hg, llcFill_keeps hg, llcForeign_keeps hg]

theorem markDirty_keeps (s : State) (part pa key : Nat) : g (s.markDirty part pa key) = g s := by
  unfold State.markDirty
  split
  · rfl
  · exact hg.memory _ _

theorem llcStore_keeps (s : State) (part hint : Nat) (cls : PClass) (pa key : Nat) :
    g (s.llcStore part hint cls pa key) = g s := by
  have dirtied (u : State) : g (if cls = .pool then u else if hint = 0 then u.markDirty part pa key
      else u.writeBack fun sec => sec == pa / 256) = g u := by
    split
    · rfl
    · split
      · exact markDirty_keeps hg _ _ _ _
      · exact hg.memory _ _
  refine (dirtied _).trans ?_
  have hmark (u : State) : g (u.llcMark cls pa) = g u := modLine_keeps hg _ _ _ _
  split
  case h_2 =>
    split
    · rw [hmark, llcForeign_keeps hg]
    · rw [llcForeign_keeps hg]
  all_goals simp only [hmark, llcFill_keeps hg, llcForeign_keeps hg]

/-! ### Reads and writes at a place (R184, R188) -/

theorem countAt_keeps (s : State) (storey part : Nat) (l : Loc) : g (s.countAt storey part l) = g s := by
  unfold State.countAt State.countMiss
  split
  · split
    · rfl
    · exact hg.pkg _ _
  · rfl

theorem reach_keeps (s : State) (storey part hint : Nat) (l : Loc) : g (s.reach storey part hint l) = g s := by
  unfold State.reach
  split
  · exact (llcLoad_keeps hg _ _ _ _ _ _).trans (countAt_keeps hg _ _ _ _)
  · rfl

theorem rekey_keeps (s : State) (part : Nat) (cls : PClass) (pa key : Nat) : g (s.rekey part cls pa key) = g s := by
  unfold State.rekey
  refine (hg.memory _ _).trans ?_
  split
  · rfl
  · split
    · rfl
    · exact hg.memory _ _

theorem markCopied_keeps (s : State) (pa : Nat) : g (s.markCopied pa) = g s := by
  unfold State.markCopied
  dsimp only
  split
  · rfl
  · exact hg.pkg _ _

theorem physWrite_keeps (s : State) (part hint : Nat) (cls : PClass) (pa key : Nat) (bs : List Byte) :
    g (s.physWrite part hint cls pa key bs) = g s := by
  have raw (u : State) (f : Mem → Mem) : g (u.modRaw cls f) = g u := hg.memory _ _
  have merge (u : State) : g (u.llcMerge cls pa key bs) = g u := modLine_keeps hg _ _ _ _
  unfold State.physWrite
  split
  · exact hg.memory _ _
  · dsimp only
    split <;> simp only [markCopied_keeps hg, merge, raw, rekey_keeps hg, llcStore_keeps hg]

theorem writeLoc_keeps (s : State) (part hint : Nat) (l : Loc) (bs : List Byte) : g (s.writeLoc part hint l bs) = g s := by
  unfold State.writeLoc
  split
  · refine (hg.watches _ _ _ _).trans ?_
    unfold State.sramWrite
    split <;> exact hg.memory _ _
  · exact (hg.watches _ _ _ _).trans (physWrite_keeps hg _ _ _ _ _ _ _)
  · rfl

/-! ### Walks, and the bytes of a storey's save area (R178-R181, R396) -/

theorem walkTouch_keeps (s : State) (st part va : Nat) : g (s.walkTouch st part va) = g s :=
  foldl_keeps g (fun _ _ => reach_keeps hg _ _ _ _ _) _ s

theorem touchPte_keeps (s : State) (st part pte e : Nat) (w : Bool) : g (s.touchPte st part pte e w) = g s := by
  unfold State.touchPte
  split
  · rfl
  · exact writeLoc_keeps hg _ _ _ _ _

theorem unitWalk_keeps {s u : State} {st part va : Nat} {acc : Access} {l : Loc} (h : s.unitWalk st part va acc = .ok u l) :
    g u = g s := by
  unfold State.unitWalk at h
  split at h
  · cases h
  · cases h
  · split at h
    · obtain ⟨rfl, -⟩ := UnitRes.ok.inj h
      rw [touchPte_keeps hg, walkTouch_keeps hg]
    · cases h

theorem readGlobal_keeps {s u : State} {st part va n : Nat} {l : Loc} {bs : List Byte}
    (h : s.readGlobal st part va n = (.ok u l, bs)) : g u = g s := by
  unfold State.readGlobal at h
  split at h
  case h_1 v l' hw =>
    obtain ⟨rfl, -⟩ := UnitRes.ok.inj (Prod.mk.inj h).1
    rw [reach_keeps hg, unitWalk_keeps hg hw]
  case h_2 hr => exact absurd (Prod.mk.inj h).1 (hr _ _)

theorem writeVa_keeps {st part n va : Nat} {s u : State} {bs : List Byte} (h : State.writeVa st part n s va bs = .ok u) :
    g u = g s := by
  induction n generalizing s va bs with
  | zero => rw [VaWrite.ok.inj h]
  | succ n ih =>
    unfold State.writeVa at h
    split at h
    · rw [VaWrite.ok.inj h]
    · split at h
      case h_1 v l hw =>
        split at h
        · cases h
        · rw [ih h, writeLoc_keeps hg, countAt_keeps hg, unitWalk_keeps hg hw]
      case h_2 => cases h

theorem syncImage_keeps (s : State) (k : Nat) : g (s.syncImage k) = g s := by
  unfold State.syncImage
  split
  · rfl
  · dsimp only
    split
    case h_1 v l bs hr =>
      split
      case h_1 u hw => rw [writeVa_keeps hg hw, readGlobal_keeps hg hr]
      case h_2 => rfl
    case h_2 => rfl

end OffMemory

end Sys2Proof.Proofs
end

section
/-!
PROOFS. Formes: which slots hold a thread, the view of its registers that a forme takes, and FREEZE, TSTW, TSTV, NEST, NJOIN,
FINFO and YIELD (R102, R110-R113, R115-R116, R152-R153).
-/

namespace Sys2Proof.Proofs

open Sys2Proof Sys2Proof.Machine Sys2Proof.Cert

/-! ### Tables in ascending order -/

/-- In a table in ascending order, a change under a number that it lists keeps the numbers. -/
theorem put_keys {α : Type} {t : Tab α} (h : (t.map Prod.fst).Pairwise (· < ·)) {k : Nat} {x : α} (y : α)
    (hx : t.look k = some x) : (t.put k y).map Prod.fst = t.map Prod.fst := by
  induction t with
  | nil => cases hx
  | cons p r ih =>
    obtain ⟨j, z⟩ := p
    obtain ⟨hj, hr⟩ := List.pairwise_cons.1 h
    rw [Tab.put]
    by_cases e : j = k
    · rw [if_pos e, ← e]
      rfl
    · rw [Tab.look, if_neg e] at hx
      have hlt : j < k := hj k (List.mem_map.2 ⟨_, mem_of_look hx, rfl⟩)
      rw [if_neg e, if_neg (Nat.lt_asymm hlt), List.map_cons, ih hr hx, List.map_cons]

theorem look_of_not_mem {α : Type} {t : Tab α} {k : Nat} (h : k ∉ t.map Prod.fst) : t.look k = none :=
  Option.eq_none_iff_forall_ne_some.2 fun _ hx => h (List.mem_map.2 ⟨_, mem_of_look hx, rfl⟩)

/-- What is removed of a table that lists each number once is listed no more. -/
theorem look_del_self {α : Type} {t : Tab α} (h : (t.map Prod.fst).Nodup) (k : Nat) : (t.del k).look k = none := by
  induction t with
  | nil => rfl
  | cons p r ih =>
    obtain ⟨j, z⟩ := p
    obtain ⟨hj, hr⟩ := List.nodup_cons.1 h
    rw [Tab.del]
    split
    case isTrue e => exact look_of_not_mem (e ▸ hj)
    case isFalse e => rw [Tab.look, if_neg e, ih hr]

/-! ### Slots that hold a thread (R152) -/

/-- The slots that hold a thread are listed in ascending order. -/
def SlotsAscend (s : State) : Prop := (s.threads.map Prod.fst).Pairwise (· < ·)

theorem SlotsAscend.congr {s u : State} (h : SlotsAscend s) (e : u.threads = s.threads) : SlotsAscend u := by
  rw [SlotsAscend, e]
  exact h

theorem SlotsAscend.modCore {s : State} (h : SlotsAscend s) (c : Nat) (f : Core → Core) : SlotsAscend (s.modCore c f) := h

theorem SlotsAscend.modThr {s : State} (h : SlotsAscend s) (id : Nat) (f : Thread → Thread) : SlotsAscend (s.modThr id f) := by
  unfold State.modThr
  split
  case h_1 => exact h
  case h_2 t ht => rw [SlotsAscend, put_keys h _ ht]; exact h

theorem SlotsAscend.modAny {s : State} (h : SlotsAscend s) (id : Nat) (f : Thread → Thread) : SlotsAscend (s.modAny id f) := by
  unfold State.modAny
  split
  · exact h.modThr id f
  · split
    · exact h
    · exact h.congr (syncImage_keeps offMemory_threads _ _)

theorem SlotsAscend.flushWcb {s : State} (h : SlotsAscend s) (core : Nat) (p : WcEntry → Bool) :
    SlotsAscend (s.flushWcb core p) := by
  unfold State.flushWcb
  dsimp only
  split
  · exact h
  · refine List.foldlRecOn (motive := SlotsAscend) _ _ (h.modCore _ _) fun u hu e _ => ?_
    exact (hu.modThr e.slot _).congr (State.post_threads _ _ _)

theorem SlotsAscend.freeOwn {s : State} (h : SlotsAscend s) (id : Nat) : SlotsAscend (s.freeOwn id) := by
  unfold State.freeOwn
  dsimp only
  split
  · exact h
  · refine List.foldlRecOn (motive := SlotsAscend) _ _ h fun u hu g _ => ?_
    split
    · exact (hu.modCore _ _).modAny id _
    · exact hu

/-- A slot that is freed holds no thread. -/
theorem freeSlot_thr? {s : State} (h : (s.threads.map Prod.fst).Nodup) (id : Nat) : (s.freeSlot id).thr? id = none :=
  look_del_self h id

theorem dropThread_thr? {s : State} (h : SlotsAscend s) (id : Nat) : (s.dropThread id).thr? id = none := by
  have hfree : ((s.freeOwn id).freeSlot id).thr? id = none := freeSlot_thr? ((h.freeOwn id).imp Nat.ne_of_lt) id
  unfold State.dropThread
  dsimp only
  split
  · exact hfree
  · exact hfree

/-! ### The view of a thread's registers (R102) -/

/-- Setting the first bits of a word one after another gives each its value. -/
theorem foldl_setBit_getLsbD {w : Nat} (f : Nat → Bool) {n j : Nat} (hn : n ≤ w) (hj : j < n) :
    ((List.range n).foldl (fun x i => setBit x i (f i)) (0 : BitVec w)).getLsbD j = f j := by
  induction n with
  | zero => exact absurd hj (Nat.not_lt_zero j)
  | succ n ih =>
    rw [List.range_succ, List.foldl_append, List.foldl_cons, List.foldl_nil, setBit_getLsbD _ _ _ hn]
    by_cases e : j = n
    · rw [if_pos e, e]
    · rw [if_neg e, ih (Nat.le_of_succ_le hn) (by omega)]

/-- A table that leaves out zeros gives every register that it covers its value. -/
theorem lookD_nonzero {w : Nat} (key : Nat → Nat) (f : Nat → BitVec w) (ks : List Nat) (j : Nat) :
    Tab.lookD ((ks.map fun i => (key i, f (key i))).filter fun p => p.2 != 0) j 0 = if j ∈ ks.map key then f j else 0 := by
  induction ks with
  | nil => rfl
  | cons i r ih =>
    rw [List.map_cons, List.filter_cons]
    by_cases e : j = key i
    · subst e
      split
      case isTrue => simp [Tab.lookD, Tab.look]
      case isFalse hz => simp_all
    · split
      case isTrue => simpa [Tab.lookD, Tab.look, e, Ne.symm e] using ih
      case isFalse => simpa [e] using ih

section View

variable (s : State) (id : Nat) {i : Nat}

theorem mem_registers {n : Nat} (h0 : 0 < i) (h : i < n + 1) : i ∈ (List.range n).map (· + 1) :=
  List.mem_map.2 ⟨i - 1, List.mem_range.2 (by omega), by omega⟩

theorem viewRegs_s (h0 : 0 < i) (h : i < 32) : (s.viewRegs id).s.lookD i 0 = s.sOf id i :=
  (lookD_nonzero (· + 1) (s.sOf id) _ i).trans (if_pos (mem_registers h0 h))

theorem viewRegs_v (h : i < 16) : (s.viewRegs id).v.lookD i 0 = s.vOf id i :=
  (lookD_nonzero (fun j => j) (s.vOf id) _ i).trans (if_pos (by simpa using h))

theorem viewRegs_k (h0 : 0 < i) (h : i < 8) : (s.viewRegs id).k.lookD i 0 = s.kOf id i :=
  (lookD_nonzero (· + 1) (s.kOf id) _ i).trans (if_pos (mem_registers h0 h))

theorem viewRegs_sFull (h : i < 32) : (s.viewRegs id).sFull.getLsbD i = s.sFullOf id i :=
  foldl_setBit_getLsbD _ (Nat.le_refl _) h

theorem viewRegs_vFull (h : i < 16) : (s.viewRegs id).vFull.getLsbD i = s.vFullOf id i :=
  foldl_setBit_getLsbD _ (Nat.le_refl _) h

end View

/-! ### FREEZE (R102) -/

/-- The forme that the issuing thread completes. -/
def frozenForme (s : State) (f : Forme) : Forme :=
  { f with regs := s.viewRegs s.cur, segs := s.me.segs, fmt := s.me.fmt, super := s.me.super, complete := true }

/-- A task whose forme, template and readiness FREEZE has completed. -/
def frozenTask (s : State) (f : Forme) (size : Nat) (t : Task) : Task :=
  { t with forme := some (frozenForme s f), image := s.readTemplate s.myCore f size, compose := .ready, composed := true }

/-- What FREEZE leaves of the composing thread of task `n`. -/
def frozen (s : State) (n : Nat) (f : Forme) (size : Nat) : State :=
  ((s.sendAll.modCore s.myCore fun c => { c with formes := c.formes.put (formeKey n) (frozenForme s f) }).dropThread s.cur).modTask n
    (frozenTask s f size)

theorem freeze_completes {s : State} {n : Nat} {f : Forme} {k : Task} (h : (s.thr? s.cur).isSome = true)
    (hk : s.me.kind = .composing n) (hq : s.quiet s.cur s.me = true)
    (hf : (s.core s.myCore).formes.look (formeKey n) = some f) (ht : s.task? n = some k) :
    exec .freeze s = .next (frozen s n f k.hdr.tplSz) := by
  rw [exec_freeze, execFreeze, perform_nil _ h]
  simp only [hk, hq, hf, ht, Bool.not_true, Bool.false_eq_true, if_false, State.finish_gone]
  rfl

theorem frozen_task? {s : State} {n size : Nat} {f : Forme} {k : Task} (h : (frozen s n f size).task? n = some k) :
    ∃ t, k = frozenTask s f size t := by
  rw [frozen, modTask_task?] at h
  obtain ⟨t, -, rfl⟩ := Option.map_eq_some_iff.1 h
  exact ⟨t, rfl⟩

theorem frozen_thr? {s : State} (h : SlotsAscend s) (n size : Nat) (f : Forme) : (frozen s n f size).thr? s.cur = none :=
  (thr?_congr (modTask_threads _ _ _) _).trans (dropThread_thr? ((h.flushWcb _ _).modCore _ _) s.cur)

/-! ### Template stores (R110) -/

/-- The state after bytes are stored at a place of the template copy, whose words are full then and serve what waits. -/
def templateStored (t : State) (o : Nat) (bs : List Byte) : State :=
  (List.range (bs.length / 4)).foldl (fun v j => (v.setWordFull t.myCore (o + 4 * j) true).serve t.myCore (o + 4 * j))
    (t.sendAll.writeLoc t.myPart 0 (.sram t.myCore o) bs)

theorem templateStore_inside {t : State} {a : Word} {bs : List Byte} {f : Forme} {sz : Nat}
    (hf : t.formeHere = some (f, sz)) (hr : t.relWait = none) (hlt : a.toNat < sz) (hal : a.toNat % bs.length = 0) :
    t.templateStore a bs = .ok (templateStored t (f.place a.toNat) bs) := by
  simp only [State.templateStore, hf, hr, if_neg (Nat.not_le.2 hlt), hal, ne_eq, not_true_eq_false, if_false]
  rfl

/-! ### NEST (R111) -/

section Nest

variable {s t u : State} {a b : BitVec 5} {n fk item sub depth : Nat} (h : Ready s [.s a.toNat, .s b.toNat])
  (ht : s.consumeAll [.s a.toNat, .s b.toNat] = t) (hk : t.me.kind = .impression n fk item sub depth)
include h ht hk

theorem nest_deep (hd : depth = 3) : exec (.nest a b) s = traps s 15 (wordOf (.nest a b)) := by
  rw [exec_nest, execNest, State.perform_ready _ h.1 h.2, ht]
  simp only [hk, if_pos hd]
  rfl

theorem nest_empty (hd : depth ≠ 3) (hal : (t.rS b.toNat).toNat % 4 = 0) (h0 : t.rS a.toNat = 0) :
    exec (.nest a b) s = done s t := by
  rw [exec_nest, execNest, State.perform_ready _ h.1 h.2, ht]
  simp only [hk, if_neg hd, hal, h0, ne_eq, not_true_eq_false, if_false]
  rfl

theorem nest_queues (hd : depth ≠ 3) (hal : (t.rS b.toNat).toNat % 4 = 0) (h0 : t.rS a.toNat ≠ 0)
    (hr : t.relWait = none) (hu : t.sendAll.nestForme n item depth (t.rS a.toNat).toNat (t.rS b.toNat) = some u) :
    exec (.nest a b) s = done s (u.delay 32) := by
  have h0' : ¬ (t.rS a.toNat).toNat = 0 := fun e => h0 (BitVec.eq_of_toNat_eq e)
  rw [exec_nest, execNest, State.perform_ready _ h.1 h.2, ht]
  simp only [hk, if_neg hd, hal, if_neg h0', ne_eq, not_true_eq_false, if_false, hu, hr]
  rfl

end Nest

/-! ### FINFO (R116) -/

/-- A destination alone takes nothing from a queue and observes no delivery. -/
theorem consumeAll_dest (s : State) (d : Nat) : s.consumeAll [.d d] = s := by
  have hc : s.consume [.d d] = s := by
    unfold State.consume
    split
    · rfl
    · simp
  rw [State.consumeAll, hc, State.observe_none (.inr fun _ => by simp)]

/-- Settles O32: FREEZE takes the view of every register into the forme before the thread leaves its slot, which lists each
slot once; the other instructions answer by the branch that their conditions name. -/
theorem formeInstructions : Obligations.FormeInstructions := by
  unfold Obligations.FormeInstructions
  intro s u d a b vd sel f k n sz item sub depth fk
  refine ⟨?freeze, ⟨?tstw, ?tstv⟩, ?nest, ?join, ?finfo⟩
  case freeze =>
    intro h hk hq hf ht
    refine ⟨_, freeze_completes h.1 hk hq hf ht, fun k' hk' => ?_, fun hs => frozen_thr? hs _ _ _⟩
    obtain ⟨t, rfl⟩ := frozen_task? hk'
    exact ⟨rfl, rfl, rfl, _, rfl, rfl, rfl, rfl, rfl, rfl,
      fun i h0 hi => ⟨viewRegs_s s s.cur h0 hi, viewRegs_sFull s s.cur hi⟩,
      fun i hi => ⟨viewRegs_v s s.cur hi, viewRegs_vFull s s.cur hi⟩, fun i h0 hi => viewRegs_k s s.cur h0 hi⟩
  case tstw =>
    intro h t hs
    obtain ⟨hf, hr, hlt, hal⟩ := hs
    rw [exec_tstw, execTstw, State.perform_ready _ h.1 h.2, templateStore_inside hf hr hlt (by rwa [leBytes_length])]
    rfl
  case tstv =>
    intro h t hs
    obtain ⟨hf, hr, hlt, hal⟩ := hs
    rw [exec_tstv, execTstv, State.perform_ready _ h.1 h.2, vbytes, templateStore_inside hf hr hlt (by rwa [leBytes_length])]
    rfl
  case nest =>
    intro h t hk
    exact ⟨nest_deep h rfl hk, fun hd hal => ⟨nest_empty h rfl hk hd hal, nest_queues h rfl hk hd hal⟩⟩
  case join =>
    intro h
    refine ⟨fun hn => ?_, fun hn => ?_, fun hy => ?_, fun hy => ?_⟩
    · rw [exec_njoin, execNjoin, perform_nil _ h.1, hn]
      rfl
    · rw [exec_njoin, execNjoin, perform_nil _ h.1, if_neg (by simpa using hn), State.finish_park]
    · rw [exec_yield, execYield, perform_nil _ h.1, if_neg (by simp [hy])]
      rfl
    · rw [exec_yield, execYield, perform_nil _ h.1, if_pos hy, State.finish_gone]
  case finfo =>
    intro h
    refine ⟨?_, fun hk => ?_⟩
    · rw [exec_finfo, execFinfo, State.alu, List.map_nil, List.nil_append, State.perform_ready _ h.1 h.2, consumeAll_dest]
      rfl
    · simp [State.formeInfo, hk]

end Sys2Proof.Proofs
end

section
/-!
PROOFS. Scalar registers: what a write of one leaves in the issuing thread's registers, what joins a send queue, what a source
takes from a receive queue, and the acquire of an instruction that reads a delivered result (R120, R125-R126, R138, R229).
-/

namespace Sys2Proof.Proofs

open Sys2Proof Sys2Proof.Machine Sys2Proof.Cert

/-! ### Registers with a scalar register written (R105, R126) -/

@[simp] theorem putS_v (r : Regs) (n : Nat) (w : Word) : (r.putS n w).v = r.v := rfl
@[simp] theorem putS_k (r : Regs) (n : Nat) (w : Word) : (r.putS n w).k = r.k := rfl
@[simp] theorem putS_vOwn (r : Regs) (n : Nat) (w : Word) : (r.putS n w).vOwn = r.vOwn := rfl
@[simp] theorem putS_kOwn (r : Regs) (n : Nat) (w : Word) : (r.putS n w).kOwn = r.kOwn := rfl

@[simp] theorem putS_self (r : Regs) (n : Nat) (w : Word) : (r.putS n w).s.lookD n 0 = w := Tab.lookD_put_self _ _ _ _

theorem putS_ne (r : Regs) {n m : Nat} (w : Word) (h : m ≠ n) : (r.putS n w).s.lookD m 0 = r.s.lookD m 0 :=
  Tab.lookD_put_ne _ _ _ h

theorem putS_sOwn (r : Regs) {n : Nat} (m : Nat) (w : Word) (h : n < 32) :
    (r.putS n w).sOwn.getLsbD m = if m = n then true else r.sOwn.getLsbD m := setBit_getLsbD _ _ _ h

theorem putS_sFull (r : Regs) {n : Nat} (m : Nat) (w : Word) (h : n < 32) :
    (r.putS n w).sFull.getLsbD m = if m = n then true else r.sFull.getLsbD m := setBit_getLsbD _ _ _ h

/-! ### Writes of scalar registers (R105, R120, R126) -/

/-- Presence of a register that no queue is bound to. -/
theorem sFullOf_plain (s : State) {m : Nat} (h : ¬ (m = 0 ∨ slotOf s.cur = 0 ∧ 28 ≤ m)) : s.sFullOf s.cur m =
    if s.me.regs.sOwn.getLsbD m then s.me.regs.sFull.getLsbD m else (s.under s.cur).sFull.getLsbD m := by
  obtain ⟨h0, hq⟩ := not_or.1 h
  rw [State.sFullOf, if_neg h0, if_neg (by simpa using hq)]
  rfl

/-- In slot 0 a queue register shows its queue, which no change of the thread touches. -/
theorem sFullOf_modMe_queue (s : State) (f : Thread → Thread) {m : Nat} (h : m = 0 ∨ slotOf s.cur = 0 ∧ 28 ≤ m) :
    (s.modMe f).sFullOf s.cur m = s.sFullOf s.cur m := by
  unfold State.sFullOf
  rw [core_congr (State.modMe_cores s f)]
  rcases h with h0 | hq
  · rw [if_pos h0, if_pos h0]
  · have h0 : m ≠ 0 := by omega
    have hqueue : (decide (slotOf s.cur = 0) && decide (28 ≤ m)) = true := by simpa using hq
    rw [if_neg h0, if_neg h0, if_pos hqueue, if_pos hqueue]

theorem sFullOf_modMe {s : State} {f : Thread → Thread} (h : (s.thr? s.cur).isSome = true)
    (hk : (f s.me).kind = s.me.kind) {m : Nat} (hm : ¬ (m = 0 ∨ slotOf s.cur = 0 ∧ 28 ≤ m)) :
    (s.modMe f).sFullOf s.cur m = if (f s.me).regs.sOwn.getLsbD m then (f s.me).regs.sFull.getLsbD m else (s.under s.cur).sFull.getLsbD m := by
  have hp := sFullOf_plain (s.modMe f) (m := m)
  rw [State.modMe_cur, State.modMe_me f h, under_modMe h hk] at hp
  exact hp hm

/-- What a write of a scalar register that no queue is bound to leaves to read: the value, present; every other register as
it was. -/
structure WritesS (s t : State) (n : Nat) (v : Word) : Prop where
  only : OnlyMe s t
  value : t.rS n = v
  full : t.sFullOf s.cur n = true
  others : ∀ m, m ≠ n → t.rS m = s.rS m ∧ t.sFullOf s.cur m = s.sFullOf s.cur m
  vectors : ∀ m, t.rV m = s.rV m
  masks : ∀ m, t.rK m = s.rK m

theorem wS_writes {s : State} {n : Nat} (h : (s.thr? s.cur).isSome = true) (v : Word) (h0 : n ≠ 0) (hn : n < 32)
    (hq : slotOf s.cur ≠ 0 ∨ n < 28) : WritesS s (s.wS n v) n v := by
  have hs : s.wS n v = s.modMe fun t => { t with regs := t.regs.putS n v } := State.wS_plain s n v h0 hq
  have hnq : ¬ (n = 0 ∨ slotOf s.cur = 0 ∧ 28 ≤ n) := by omega
  rw [hs]
  refine ⟨onlyMe_modMe s _, ?value, ?full, fun m hm => ⟨?_, ?_⟩, fun m => ?_, fun m => ?_⟩
  case value => rw [rS_modMe h rfl, putS_sOwn _ _ _ hn, if_neg h0, if_pos rfl, if_pos rfl, putS_self]
  case full =>
    rw [sFullOf_modMe h rfl hnq, putS_sOwn _ _ _ hn, putS_sFull _ _ _ hn, if_pos rfl, if_pos rfl, if_pos rfl]
  · rw [rS_modMe h rfl, putS_sOwn _ _ _ hn, putS_ne _ _ hm, if_neg hm]
    rfl
  · by_cases hmq : m = 0 ∨ slotOf s.cur = 0 ∧ 28 ≤ m
    · exact sFullOf_modMe_queue s _ hmq
    · rw [sFullOf_modMe h rfl hmq, putS_sOwn _ _ _ hn, putS_sFull _ _ _ hn, if_neg hm, if_neg hm, sFullOf_plain s hmq]
  · rw [rV_modMe h rfl, putS_vOwn, putS_v]; rfl
  · rw [rK_modMe h rfl, putS_kOwn, putS_k]; rfl

/-- A word for s29 that does not complete a packet waits in the send queue (R328). -/
theorem wS_joins_queue {s : State} {v : Word} (h : slotOf s.cur = 0)
    (hlt : ((s.core s.myCore).txReq ++ [v]).length < packetWords (((s.core s.myCore).txReq ++ [v]).headD 0)) :
    s.wS 29 v = s.modCore s.myCore fun c => { c with txReq := c.txReq ++ [v] } := by
  have hs : s.wS 29 v = s.enqueue s.myCore .request v := by simp [State.wS, h]
  rw [hs, State.enqueue]
  simp only [if_true, if_neg (Nat.not_le.2 hlt)]
  exact modCore_congr rfl

/-! ### The acquire of an instruction that reads a delivered result (R199, R229) -/

theorem me_congr {s u : State} (ht : u.threads = s.threads) (hc : u.cur = s.cur) : u.me = s.me := by
  rw [State.me, State.thr, ht, hc]
  rfl

@[simp] theorem acquire_cur (s : State) (core : Nat) (sc : Scope) : (s.acquire core sc).cur = s.cur := by
  unfold State.acquire
  split
  · rfl
  · dsimp only
    split <;> rfl

@[simp] theorem acquire_memory (s : State) (core : Nat) (sc : Scope) : (s.acquire core sc).memory = s.memory := by
  unfold State.acquire
  split
  · rfl
  · dsimp only
    split <;> rfl

@[simp] theorem acquire_me (s : State) (core : Nat) (sc : Scope) : (s.acquire core sc).me = s.me :=
  me_congr (acquire_threads s core sc) (acquire_cur s core sc)

@[simp] theorem modCore_me (s : State) (c : Nat) (f : Core → Core) : (s.modCore c f).me = s.me := rfl

/-- An acquire beyond the core's own scope leaves the lines of its cache that did not come through W. -/
theorem acquire_cache (s : State) (core : Nat) {sc : Scope} (h : sc ≠ .core) :
    ((s.acquire core sc).core core).cache = (s.core core).cache.filter fun l => !l.w := by
  rw [State.acquire, if_neg h]
  dsimp only
  split
  · rw [core_congr (dropPoolLines_cores _ _), State.modCore_core]
  · rw [State.modCore_core]

/-- The scope at which a delivered result is acquired: that of its hall. -/
def deliveredScope (sys : Bool) : Scope := if sys then .sys else .pkg

theorem deliveredScope_ne_core (sys : Bool) : deliveredScope sys ≠ .core := by
  cases sys <;> exact Scope.noConfusion

/-- The instruction that reads the one result that a delivery has filled acquires. -/
theorem observe_delivered {s : State} {n : Nat} {sys : Bool} (hf : s.me.fresh = [(n, sys)]) :
    s.observe [.v n] = State.acquire
      (s.modMe fun t => { t with fresh := t.fresh.filter fun f => !([.v n] : List Opnd).contains (.v f.1) })
      s.myCore (deliveredScope sys) := by
  simp [State.observe, hf, deliveredScope]

/-- One that reads another register does not. -/
theorem observe_other {s : State} {n m : Nat} {sys : Bool} (hf : s.me.fresh = [(n, sys)]) (h : m ≠ n) :
    s.observe [.v m] = s := by
  simp [State.observe, hf, h.symm]

/-! ### The receive queues of slot 0 (R120, R138) -/

/-- A source s28 takes the oldest word of the request queue. -/
theorem consume_request {s : State} {w : Word} {r : List Word} (h : slotOf s.cur = 0)
    (hr : (s.core s.myCore).rxReq = w :: r) : s.consume [.s 28] =
    (s.modMe fun t => { t with regs := { t.regs with s := t.regs.s.put 28 w } }).modCore s.myCore
      fun c => { c with rxReq := c.rxReq.drop 1 } := by
  simp [State.consume, h, hr]
  rfl

/-- A register that the thread owns is read from its own registers. -/
theorem rS_own {s : State} {n : Nat} (h0 : n ≠ 0) (ho : s.me.regs.sOwn.getLsbD n = true) :
    s.rS n = s.me.regs.s.lookD n 0 := by
  rw [State.rS, State.sOf, if_neg h0]
  exact if_pos ho

/-- Settles O5: a write is one change of the issuing thread's registers, or a word that joins a queue; the read of a
delivered result is an acquire; and a source s28 takes the head of its queue. -/
theorem scalarRegisters : Obligations.ScalarRegisters := by
  unfold Obligations.ScalarRegisters
  refine ⟨?writes, ?acquires, ?takes⟩
  case writes =>
    intro s n m v h hn _
    refine ⟨State.wS_zero s v, fun h0 hq => ?_, wS_joins_queue⟩
    have hw := wS_writes h v (Nat.ne_of_gt h0) hn hq
    exact ⟨hw.only, hw.value, hw.full, hw.others m, hw.vectors m, hw.masks m⟩
  case acquires =>
    intro s n sys h hf
    rw [observe_delivered hf]
    refine ⟨?_, ?_, ?_, fun l hl => ?_, fun m hm => observe_other hf hm⟩
    · rw [acquire_me, State.modMe_me _ h]
      simp [hf]
    · rw [acquire_me, State.modMe_me _ h]
    · rw [acquire_memory, State.modMe_memory]
    · rw [acquire_cache _ _ (deliveredScope_ne_core sys), core_congr (State.modMe_cores _ _)] at hl
      simpa using List.mem_filter.1 hl
  case takes =>
    intro s ops h
    refine ⟨State.consume_off ops, fun h0 w r hr ho => ?_⟩
    rw [consume_request h0 hr]
    refine ⟨?_, ?_, ?_⟩
    · rw [State.modCore_core, core_congr (State.modMe_cores _ _), hr]
      rfl
    · have hme := State.modMe_me (fun t => { t with regs := { t.regs with s := t.regs.s.put 28 w } }) h
      rw [rS_own (by decide) (by rw [modCore_me, hme]; exact ho), modCore_me, hme]
      exact Tab.lookD_put_self _ _ _ _
    · rw [State.modCore_memory, State.modMe_memory]

end Sys2Proof.Proofs
end

section
/-!
PROOFS. Operands: the first operand that is not ready parks its thread; an arithmetic instruction whose operands are all ready
completes (R123, R137-R138).
-/

namespace Sys2Proof.Proofs

open Sys2Proof Sys2Proof.Machine Sys2Proof.Cert

/-! ### Operands in order (R123) -/

theorem blocked_ready {s : State} {o : Opnd} (r : List Opnd) (h : opndReady s o) : s.blocked (o :: r) = s.blocked r := by
  cases o with
  | s n => exact if_pos h
  | v n => exact if_pos h
  | d n =>
    refine if_neg fun hw => ?_
    simp only [Bool.and_eq_true, Bool.or_eq_true, decide_eq_true_eq, beq_iff_eq] at hw
    obtain ⟨⟨h0, hn⟩, hfull⟩ := hw
    exact Bool.false_ne_true ((h h0 hn).symm.trans hfull)

theorem blocked_waits {s : State} {o : Opnd} (r : List Opnd) (h : ¬ opndReady s o) :
    s.blocked (o :: r) = some (opndWait o) := by
  cases o with
  | s n => exact if_neg h
  | v n => exact if_neg h
  | d n =>
    obtain ⟨h0, hn, hfull⟩ : slotOf s.cur = 0 ∧ (n = 29 ∨ n = 31) ∧ s.sFullOf s.cur n = true := by
      simpa [opndReady] using h
    exact if_pos (by simp [h0, hn, hfull])

/-- Operands that have their values hold nothing up. -/
theorem blocked_append {s : State} {before : List Opnd} (rest : List Opnd) (h : ∀ x ∈ before, opndReady s x) :
    s.blocked (before ++ rest) = s.blocked rest := by
  induction before with
  | nil => rfl
  | cons o r ih =>
    obtain ⟨ho, hr⟩ := List.forall_mem_cons.1 h
    rw [List.cons_append, blocked_ready _ ho, ih hr]

/-! ### What performs an instruction of these forms (R139-R145, R233-R241) -/

/-- Performed on `ops`: what the operands do not hold up, some body decides. -/
def PerformedOn (ops : List Opnd) (g : State → Host.Outcome State Fault Refusal) : Prop :=
  ∃ body, ∀ s, g s = s.perform ops body

/-- Performed on `ops` by a body that writes the scalar register `d` and completes or jumps. -/
def AluOn (d : BitVec 5) (ops : List Opnd) (g : State → Host.Outcome State Fault Refusal) : Prop :=
  ∃ body, (∀ s, g s = s.perform ops body)
    ∧ ∀ t, ∃ v, body t = .ok (t.wS d.toNat v) ∨ ∃ pc, body t = .jump (t.wS d.toNat v) pc

theorem AluOn.performedOn {d : BitVec 5} {ops : List Opnd} {g : State → Host.Outcome State Fault Refusal}
    (h : AluOn d ops g) : PerformedOn ops g := by
  obtain ⟨body, hg, -⟩ := h
  exact ⟨body, hg⟩

section Alu

variable {g : State → Host.Outcome State Fault Refusal} {d a b : BitVec 5}

theorem aluOn_of_alu2 (f : Word → Word → Word) (h : ∀ s, g s = s.alu2 d a b f) :
    AluOn d [.s a.toNat, .s b.toNat, .d d.toNat] g :=
  ⟨fun t => .ok (t.wS d.toNat (f (t.rS a.toNat) (t.rS b.toNat))), h, fun _ => ⟨_, .inl rfl⟩⟩

theorem aluOn_of_alu1 (f : Word → Word) (h : ∀ s, g s = s.alu1 d a f) : AluOn d [.s a.toNat, .d d.toNat] g :=
  ⟨fun t => .ok (t.wS d.toNat (f (t.rS a.toNat))), h, fun _ => ⟨_, .inl rfl⟩⟩

theorem aluOn_of_alu (f : State → Word) (h : ∀ s, g s = s.alu d.toNat [] f) : AluOn d [.d d.toNat] g :=
  ⟨fun t => .ok (t.wS d.toNat (f t)), h, fun _ => ⟨_, .inl rfl⟩⟩

end Alu

/-- An instruction with a scalar result reads its sources before its destination, and may not trap. -/
theorem exec_aluDest {i : Instr} {d : BitVec 5} (h : aluDest i = some d) :
    ∃ srcs, operandsOf i = some (srcs ++ [.d d.toNat]) ∧ AluOn d (srcs ++ [.d d.toNat]) (exec i) := by
  cases i with
  | add _ a b | sub _ a b | and _ a b | or _ a b | xor _ a b | andn _ a b | orn _ a b | xnor _ a b
  | sll _ a b | srl _ a b | sra _ a b | rol _ a b | ror _ a b | slt _ a b | sltu _ a b
  | min _ a b | max _ a b | minu _ a b | maxu _ a b | mul _ a b | mulh _ a b | mulhu _ a b | mulhsu _ a b
  | div _ a b | divu _ a b | rem _ a b | remu _ a b =>
    obtain rfl := Option.some.inj h
    exact ⟨[.s a.toNat, .s b.toNat], rfl, aluOn_of_alu2 _ fun s => by simp only [exec]; rfl⟩
  | clz _ a | ctz _ a | popc _ a | sextb _ a | sexth _ a | zexth _ a | bswap _ a
  | addi _ a | andi _ a | ori _ a | xori _ a | slti _ a | sltiu _ a | slli _ a | srli _ a | srai _ a =>
    obtain rfl := Option.some.inj h
    exact ⟨[.s a.toNat], rfl, aluOn_of_alu1 _ fun s => by simp only [exec]; rfl⟩
  | lui | adpc =>
    obtain rfl := Option.some.inj h
    exact ⟨[], rfl, aluOn_of_alu _ fun s => by simp only [exec]; rfl⟩
  | jal d off =>
    obtain rfl := Option.some.inj h
    exact ⟨[], rfl, fun t => .jump (t.wS d.toNat (t.me.pc + 4)) (t.me.pc + wordOffset off), fun _ => rfl,
      fun _ => ⟨_, .inr ⟨_, rfl⟩⟩⟩
  | _ => cases h

/-- The listed operands of an instruction with a scalar result are those that it is performed on. -/
theorem exec_alu {i : Instr} {d : BitVec 5} {ops : List Opnd} (h : operandsOf i = some ops) (hd : aluDest i = some d) :
    AluOn d ops (exec i) := by
  obtain ⟨srcs, ho, hg⟩ := exec_aluDest hd
  obtain rfl := Option.some.inj (ho.symm.trans h)
  exact hg

section Vector

variable {g : State → Host.Outcome State Fault Refusal} {op w : Nat} {t : BitVec 3} {vd va vb : BitVec 4} {k : BitVec 3}

theorem performedOn_of_vlanes (srcs : List Nat) {f : State → Nat → Nat × Nat} (h : ∀ s, g s = s.vlanes srcs w vd k f) :
    PerformedOn (srcs.map Opnd.v) g :=
  ⟨_, h⟩

theorem performedOn_of_vint (srcs : List Nat) (h : ∀ s, g s = s.vint op t vd va vb k)
    (hs : (if op = 11 then [va.toNat] else [va.toNat, vb.toNat]) = srcs) : PerformedOn (srcs.map Opnd.v) g :=
  performedOn_of_vlanes srcs fun s => by rw [h s, State.vint, hs]

theorem performedOn_of_vflt (srcs : List Nat) (h : ∀ s, g s = s.vflt op t vd va vb k) (hs : vfltSources op vd va vb = srcs) :
    PerformedOn (srcs.map Opnd.v) g :=
  performedOn_of_vlanes srcs fun s => by rw [h s, State.vflt, hs]

theorem performedOn_of_vred (h : ∀ s, g s = s.vred op t vd va k) : PerformedOn [.v va.toNat] g :=
  ⟨_, fun s => by rw [h s, State.vred]⟩

end Vector

theorem performedOn_of_branch {g : State → Host.Outcome State Fault Refusal} {a b : BitVec 5} {off : BitVec 13}
    {taken : Word → Word → Bool} (h : ∀ s, g s = s.branch a b off taken) : PerformedOn [.s a.toNat, .s b.toNat] g :=
  ⟨_, h⟩

/-- Every instruction whose operands are listed is performed on them. -/
theorem exec_operandsOf {i : Instr} {ops : List Opnd} (h : operandsOf i = some ops) : PerformedOn ops (exec i) := by
  cases i with
  | add | sub | and | or | xor | andn | orn | xnor | sll | srl | sra | rol | ror | slt | sltu | min | max | minu | maxu
  | mul | mulh | mulhu | mulhsu | div | divu | rem | remu | clz | ctz | popc | sextb | sexth | zexth | bswap
  | addi | andi | ori | xori | slti | sltiu | slli | srli | srai | lui | adpc | jal =>
    exact (exec_alu h rfl).performedOn
  | beq | bne | blt | bge | bltu | bgeu =>
    obtain rfl := Option.some.inj h
    exact performedOn_of_branch fun s => by simp only [exec]; rfl
  | viadd _ _ a b | visub _ _ a b | vimul _ _ a b | vimin _ _ a b | vimax _ _ a b | viand _ _ a b | vior _ _ a b
  | vixor _ _ a b | visll _ _ a b | visrl _ _ a b | visra _ _ a b =>
    obtain rfl := Option.some.inj h
    exact performedOn_of_vint [a.toNat, b.toNat] (fun s => by simp only [exec]; rfl) rfl
  | viabs _ _ a =>
    obtain rfl := Option.some.inj h
    exact performedOn_of_vint [a.toNat] (fun s => by simp only [exec]; rfl) rfl
  | vadd _ _ a b | vsub _ _ a b | vmul _ _ a b | vmin _ _ a b | vmax _ _ a b | vscl _ _ a b =>
    obtain rfl := Option.some.inj h
    exact performedOn_of_vflt [a.toNat, b.toNat] (fun s => by simp only [exec]; rfl) rfl
  | vfma _ vd a b | vfms _ vd a b =>
    obtain rfl := Option.some.inj h
    exact performedOn_of_vflt [a.toNat, b.toNat, vd.toNat] (fun s => by simp only [exec]; rfl) rfl
  | vabs _ _ a | vneg _ _ a | vsqrt _ _ a | vrcp _ _ a | vrsq _ _ a | vexp2 _ _ a =>
    obtain rfl := Option.some.inj h
    exact performedOn_of_vflt [a.toNat] (fun s => by simp only [exec]; rfl) rfl
  | vshuf _ _ a b | vslide _ _ a b =>
    obtain rfl := Option.some.inj h
    exact performedOn_of_vlanes [a.toNat, b.toNat] fun s => by simp only [exec]; rfl
  | vredsum | vredmax | vredmin =>
    obtain rfl := Option.some.inj h
    exact performedOn_of_vred fun s => by simp only [exec]; rfl
  | vcmp =>
    obtain rfl := Option.some.inj h
    exact ⟨_, fun s => by rw [exec_vcmp, execVcmp]⟩
  | vsel =>
    obtain rfl := Option.some.inj h
    exact ⟨_, fun s => by rw [exec_vsel, execVsel]⟩
  | vcvt =>
    obtain rfl := Option.some.inj h
    exact ⟨_, fun s => by rw [exec_vcvt, execVcvt]⟩
  | jalr | vbcast | vget | vput | kget | kset =>
    obtain rfl := Option.some.inj h
    exact ⟨_, fun s => by simp only [exec]; rfl⟩
  | _ => cases h

/-! ### What an instruction that completes leaves of its thread's wait -/

/-- A change that keeps what each thread waits for keeps what the issuing thread waits for. -/
theorem modThr_park (s : State) (id : Nat) {f : Thread → Thread} (hf : ∀ t, (f t).park = t.park) :
    (s.modThr id f).me.park = s.me.park := by
  rw [State.me, State.modThr_cur]
  by_cases e : s.cur = id
  · cases h : s.thr? id with
    | none => rw [State.modThr, h]; rfl
    | some t => rw [e, State.modThr_thr_self f (Option.isSome_of_eq_some h), hf, ← e]; rfl
  · rw [State.modThr_thr_ne s f e]; rfl

@[simp] theorem modRegs_park (s : State) (id : Nat) (f : Regs → Regs) : (s.modRegs id f).me.park = s.me.park :=
  modThr_park s id fun _ => rfl

theorem wS_park (s : State) (n : Nat) (v : Word) : (s.wS n v).me.park = s.me.park := by
  have queue (cls : NetClass) : (s.enqueue s.myCore cls v).me = s.me := by
    obtain ⟨-, hcur, hthreads⟩ := State.enqueue_frame s s.myCore cls v
    exact me_congr hthreads hcur
  unfold State.wS
  split_ifs
  · rfl
  · rw [queue]
  · rw [queue]
  · rfl
  · exact modRegs_park s _ _

/-- Taking words from the receive queues keeps what the thread waits for. -/
theorem consume_park (s : State) (ops : List Opnd) : (s.consume ops).me.park = s.me.park := by
  have drawn (u : State) : u.drawWord.2.me = u.me := rfl
  unfold State.consume
  dsimp only
  split_ifs <;> simp [drawn]

theorem observe_park (s : State) (ops : List Opnd) : (s.observe ops).me.park = s.me.park := by
  unfold State.observe
  dsimp only
  split
  · rfl
  · rw [acquire_me]
    exact modThr_park s s.cur fun _ => rfl

/-- Reading the operands keeps what the thread waits for. -/
theorem consumeAll_park (s : State) (ops : List Opnd) : (s.consumeAll ops).me.park = s.me.park :=
  (observe_park _ ops).trans (consume_park s ops)

/-- Settles O4: every listed instruction is performed on its operands, whose first that is not ready parks the thread. -/
theorem operandsPark : Obligations.OperandsPark := by
  unfold Obligations.OperandsPark
  refine ⟨fun i d hd => ?listed, fun i s before after o hthread =>
    ⟨fun hops hbefore ho => ?parks, fun ops d hops hd hready => ?completes⟩⟩
  case listed =>
    obtain ⟨srcs, hops, -⟩ := exec_aluDest hd
    exact ⟨srcs, hops⟩
  case parks =>
    obtain ⟨body, he⟩ := exec_operandsOf hops
    have hb : s.blocked (before ++ o :: after) = some (opndWait o) :=
      (blocked_append _ hbefore).trans (blocked_waits after ho)
    rw [he s, State.perform_blocked body hthread hb, State.park_blocked hb]
  case completes =>
    obtain ⟨body, he, hbody⟩ := exec_alu hops hd
    have hb : s.blocked ops = none := by
      simpa [State.blocked] using blocked_append [] hready
    obtain ⟨v, hv⟩ := hbody (s.consumeAll ops)
    have hpark : ((s.consumeAll ops).wS d.toNat v).me.park = s.me.park := (wS_park _ _ _).trans (consumeAll_park s ops)
    rw [he s, State.perform_ready body hthread hb]
    rcases hv with hv | ⟨pc, hv⟩
    · exact ⟨_, _, by rw [hv, State.finish_ok], hpark⟩
    · exact ⟨_, _, by rw [hv, State.finish_jump], hpark⟩

end Sys2Proof.Proofs
end

section
/-!
PROOFS. Checks of a scalar access: which of R131's conditions an access meets first, and the trap that it takes (R98, R131-R132,
R164, R169, R427).
-/

namespace Sys2Proof.Proofs

open Sys2Proof Sys2Proof.Machine Sys2Proof.Cert

/-! ### The fields of an address (R164) -/

/-- The space of an address, and what is below it. -/
def addrSpace (a : Addr) : Nat := a.toNat / 2 ^ 62
def addrLow (a : Addr) : Nat := a.toNat % 2 ^ 62

theorem spaceOf_eq (a : Addr) : spaceOf a = addrSpace a := by
  have := a.isLt
  unfold spaceOf fieldOf fld addrSpace
  omega

theorem addrOff_eq (a : Addr) : addrOff a = addrLow a % 2 ^ 19 := by
  unfold addrOff fieldOf fld addrLow
  omega

/-- A bit that the address's space fixes at zero is set. -/
def ZeroSet (a : Addr) : Prop :=
  if addrSpace a = 0 ∨ addrSpace a = 3 then addrLow a / 2 ^ 48 ≠ 0
  else if addrSpace a = 1 then addrLow a / 2 ^ 45 ≠ 0 ∨ addrLow a / 2 ^ 19 % 2 ^ 13 ≠ 0
  else addrLow a / 2 ^ 45 ≠ 0 ∨ addrLow a / 2 ^ 12 % 2 ^ 20 ≠ 0 ∨ addrLow a % 4 ≠ 0

theorem spaceZeros_iff (a : Addr) : spaceZeros a.toNat = true ↔ ¬ ZeroSet a := by
  have hlt := a.isLt
  have hs : fld a.toNat 62 2 = addrSpace a := spaceOf_eq a
  have hspace : addrSpace a = 0 ∨ addrSpace a = 1 ∨ addrSpace a = 2 ∨ addrSpace a = 3 := by unfold addrSpace; omega
  unfold spaceZeros ZeroSet
  rw [hs]
  rcases hspace with h | h | h | h <;> simp [h] <;> unfold fld addrLow <;> omega

/-- Without such a bit, a space-1 address names its core in every bit above the offset. -/
theorem addrCore_eq {a : Addr} (hs : addrSpace a = 1) (hz : ¬ ZeroSet a) : addrCore a = addrLow a / 2 ^ 32 := by
  have hcore : addrLow a / 2 ^ 45 = 0 := by
    rw [ZeroSet, hs, if_neg (by decide), if_pos rfl, not_or, not_not] at hz
    exact hz.1
  unfold addrLow at hcore
  unfold addrCore fieldOf fld addrLow
  omega

/-! ### Rights (R131, R166) -/

/-- A mask of needed rights asks for the listed bits of the 16 and no others. -/
def Needs (need : Nat) (rights : List Nat) : Prop :=
  (∀ r ∈ rights, r < 16) ∧ ∀ r < 16, need.testBit r = rights.contains r

theorem has_iff {g : Seg} {need : Nat} {rights : List Nat} (hn : Needs need rights) :
    g.has need = true ↔ ∀ r ∈ rights, g.rights.getLsbD r = true := by
  obtain ⟨hr, hbits⟩ := hn
  have bit (i : Nat) (hi : i < 16) : (BitVec.ofNat 16 need).getLsbD i = rights.contains i := by
    rw [BitVec.getLsbD_ofNat, hbits i hi]
    simp [hi]
  rw [Seg.has, beq_iff_eq]
  constructor
  · intro h r hmem
    have hb := congrArg (BitVec.getLsbD · r) h
    simpa [bit r (hr r hmem), hmem] using hb
  · intro h
    refine BitVec.eq_of_getLsbD_eq fun i hi => ?_
    rw [BitVec.getLsbD_and, bit i hi]
    by_cases hmem : i ∈ rights
    · simp [hmem, h i hmem]
    · simp [hmem]

/-! ### The conditions of R131, and the check that fails first -/

section Access

variable {t : State} {seg : Nat} {off : Int} {n need align : Nat} {rights spaces : List Nat}

/-- Step 1: the access passes the segment's limit, or its address has a bit set that its space fixes at zero. -/
def Beyond (t : State) (seg : Nat) (off : Int) (n : Nat) : Prop :=
  off < 0 ∨ ((t.seg seg).limit.toNat : Int) < off + n ∨ ZeroSet (t.segAddr seg off)

/-- The bytes lie in a guarded region of the own TCM, whose role no LCSPLIT change is moving. -/
def Guarded (t : State) (a : Addr) (n : Nat) : Prop :=
  addrSpace a = 1 ∧ addrLow a / 2 ^ 32 = t.myCore ∧ (t.core t.myCore).guarded (addrLow a % 2 ^ 19) n = true
    ∧ (t.core t.myCore).movingBytes (addrLow a % 2 ^ 19) n = false

theorem guardedHere_iff {a : Addr} (hz : ¬ ZeroSet a) : t.guardedHere a n = true ↔ Guarded t a n := by
  unfold State.guardedHere Guarded
  rw [spaceOf_eq, addrOff_eq]
  by_cases hs : addrSpace a = 1
  · simp [hs, addrCore_eq hs hz, and_assoc]
  · simp [hs]

/-- Step 2: a right is missing, or the access may not reach its place. -/
def Unfit (t : State) (seg : Nat) (off : Int) (n : Nat) (rights spaces : List Nat) : Prop :=
  (∃ r ∈ rights, (t.seg seg).rights.getLsbD r = false) ∨ addrSpace (t.segAddr seg off) ∉ spaces
    ∨ Guarded t (t.segAddr seg off) n
    ∨ (addrSpace (t.segAddr seg off) = 3 ∧ (t.segAddr seg off).toNat % 4 ≠ 0)

theorem checkAccess_beyond (h : Beyond t seg off n) :
    t.checkAccess seg off n need align spaces = some (3, t.segAddr seg off) := by
  have hz : spaceZeros (t.segAddr seg off).toNat = false ↔ ZeroSet (t.segAddr seg off) := by
    rw [← Bool.not_eq_true, spaceZeros_iff, not_not]
  refine if_pos ?_
  simpa [hz, or_assoc, Beyond] using h

/-- Past the first step, the second decides by the conditions of `Unfit`. -/
theorem unfit_iff (h : ¬ Beyond t seg off n) (hn : Needs need rights) :
    (!(t.seg seg).has need || !spaces.contains (spaceOf (t.segAddr seg off)) || t.guardedHere (t.segAddr seg off) n
      || (spaceOf (t.segAddr seg off) == 3 && decide ((t.segAddr seg off).toNat % 4 ≠ 0))) = true
    ↔ Unfit t seg off n rights spaces := by
  have hz : ¬ ZeroSet (t.segAddr seg off) := fun hz => h (.inr (.inr hz))
  have hright : (t.seg seg).has need = false ↔ ∃ r ∈ rights, (t.seg seg).rights.getLsbD r = false := by
    rw [← Bool.not_eq_true, has_iff hn]
    simp
  simp only [Bool.or_eq_true, Bool.not_eq_true', hright, guardedHere_iff hz, spaceOf_eq, Unfit, or_assoc]
  simp

/-- What the check answers past its first step. -/
theorem checkAccess_within (h : ¬ Beyond t seg off n) (hn : Needs need rights) [Decidable (Unfit t seg off n rights spaces)] :
    t.checkAccess seg off n need align spaces =
      if Unfit t seg off n rights spaces then some (4, t.segAddr seg off)
      else if (t.segAddr seg off).toNat % align ≠ 0 then some (5, t.segAddr seg off) else none := by
  obtain ⟨hoff, hlim, hz⟩ : ¬ off < 0 ∧ ¬ ((t.seg seg).limit.toNat : Int) < off + n ∧ ¬ ZeroSet (t.segAddr seg off) := by
    simpa only [Beyond, not_or] using h
  unfold State.checkAccess
  dsimp only
  rw [if_neg (by simp [hoff, hlim, (spaceZeros_iff _).2 hz])]
  exact if_congr (unfit_iff h hn) rfl rfl

theorem checkAccess_unfit (h : ¬ Beyond t seg off n) (hn : Needs need rights) (hu : Unfit t seg off n rights spaces) :
    t.checkAccess seg off n need align spaces = some (4, t.segAddr seg off) := by
  classical
  rw [checkAccess_within h hn, if_pos hu]

theorem checkAccess_misaligned (h : ¬ Beyond t seg off n) (hn : Needs need rights) (hu : ¬ Unfit t seg off n rights spaces)
    (hal : (t.segAddr seg off).toNat % align ≠ 0) :
    t.checkAccess seg off n need align spaces = some (5, t.segAddr seg off) := by
  classical
  rw [checkAccess_within h hn, if_neg hu, if_pos hal]

end Access

/-! ### What the accesses answer -/

/-- An access that its check stops traps as the check says. -/
def StopsAt (i : Instr) (s : State) (check : Option (Nat × Addr)) : Prop :=
  ∀ c v, check = some (c, v) → exec i s = traps s c v

section Forms

variable {i : Instr} {s t : State} {d a : BitVec 5} {seg : BitVec 3} {imm : BitVec 10} {size : Nat}

theorem scalarLoad_stops {signed : Bool} (hi : exec i s = s.scalarLoad d a seg imm size signed)
    (h : Ready s [.s a.toNat, .d d.toNat]) (ht : s.consumeAll [.s a.toNat, .d d.toNat] = t) :
    StopsAt i s (t.checkAccess seg.toNat (offsetOf (t.rS a.toNat) imm size) size rgtR size (scalarSpaces size)) := by
  intro c v hc
  rw [hi, State.scalarLoad, State.perform_ready _ h.1 h.2, ht]
  simp only [hc]
  rfl

theorem scalarStore_stops (hi : exec i s = s.scalarStore d a seg imm size)
    (h : Ready s [.s a.toNat, .s d.toNat]) (ht : s.consumeAll [.s a.toNat, .s d.toNat] = t) :
    StopsAt i s (t.checkAccess seg.toNat (offsetOf (t.rS a.toNat) imm size) size rgtW size (scalarSpaces size)) := by
  intro c v hc
  rw [hi, State.scalarStore, State.perform_ready _ h.1 h.2, ht]
  simp only [hc]
  rfl

theorem syncAccess_stops {op : SyncOp} {ops : List Opnd} (hi : exec i s = s.syncAccess op d a seg imm)
    (hops : (if op.store then [.s a.toNat, .s d.toNat] else [.s a.toNat, .d d.toNat]) = ops) (h : Ready s ops)
    (ht : s.consumeAll ops = t) : StopsAt i s (t.checkAccess seg.toNat (offsetOf (t.rS a.toNat) imm 4) 4
      (rgtS + if op.store then rgtW else rgtR) 4 [1]) := by
  intro c v hc
  rw [hi, State.syncAccess, hops, State.perform_ready _ h.1 h.2, ht]
  simp only [hc]
  rfl

/-- The three steps of R131: a check that stops an access gives the trap of the first condition that it meets. -/
theorem traps_of_stops {segNo n need align : Nat} {off : Int} {rights spaces : List Nat}
    (hs : StopsAt i s (t.checkAccess segNo off n need align spaces)) (hn : Needs need rights) :
    (Beyond t segNo off n → exec i s = traps s 3 (t.segAddr segNo off))
    ∧ (¬ Beyond t segNo off n → Unfit t segNo off n rights spaces → exec i s = traps s 4 (t.segAddr segNo off))
    ∧ (¬ Beyond t segNo off n → ¬ Unfit t segNo off n rights spaces → (t.segAddr segNo off).toNat % align ≠ 0 →
      exec i s = traps s 5 (t.segAddr segNo off)) :=
  ⟨fun hb => hs _ _ (checkAccess_beyond hb), fun hb hu => hs _ _ (checkAccess_unfit hb hn hu),
    fun hb hu hal => hs _ _ (checkAccess_misaligned hb hn hu hal)⟩

end Forms

theorem needs_read : Needs rgtR [0] := by unfold Needs; decide
theorem needs_write : Needs rgtW [1] := by unfold Needs; decide
theorem needs_syncRead : Needs (rgtS + rgtR) [0, 4] := by unfold Needs; decide
theorem needs_syncWrite : Needs (rgtS + rgtW) [1, 4] := by unfold Needs; decide

/-- Settles O9: each access is performed under `checkAccess`, whose three steps are R131's. -/
theorem scalarAccessTraps : Obligations.ScalarAccessTraps := by
  unfold Obligations.ScalarAccessTraps
  intro s d a seg imm p hp
  simp only [List.mem_cons, List.not_mem_nil, or_false] at hp
  rcases hp with rfl | rfl | rfl | rfl | rfl | rfl | rfl | rfl | rfl | rfl | rfl | rfl
  · exact fun h => traps_of_stops (scalarLoad_stops (exec_ldb s) h rfl) needs_read
  · exact fun h => traps_of_stops (scalarLoad_stops (exec_ldbu s) h rfl) needs_read
  · exact fun h => traps_of_stops (scalarLoad_stops (exec_ldh s) h rfl) needs_read
  · exact fun h => traps_of_stops (scalarLoad_stops (exec_ldhu s) h rfl) needs_read
  · exact fun h => traps_of_stops (scalarLoad_stops (exec_ldw s) h rfl) needs_read
  · exact fun h => traps_of_stops (scalarStore_stops (exec_stb s) h rfl) needs_write
  · exact fun h => traps_of_stops (scalarStore_stops (exec_sth s) h rfl) needs_write
  · exact fun h => traps_of_stops (scalarStore_stops (exec_stw s) h rfl) needs_write
  · exact fun h => traps_of_stops (syncAccess_stops (exec_ldfe s) rfl h rfl) needs_syncRead
  · exact fun h => traps_of_stops (syncAccess_stops (exec_ldff s) rfl h rfl) needs_syncRead
  · exact fun h => traps_of_stops (syncAccess_stops (exec_stfe s) rfl h rfl) needs_syncWrite
  · exact fun h => traps_of_stops (syncAccess_stops (exec_stff s) rfl h rfl) needs_syncWrite

end Sys2Proof.Proofs
end

section
/-!
PROOFS. The frame of the arithmetic: what the arithmetic, immediate and upper-part instructions and JAL leave unchanged
(R139-R144).
-/

namespace Sys2Proof.Proofs

open Sys2Proof Sys2Proof.Machine Sys2Proof.Cert

/-- An arithmetic instruction reads scalar registers only. -/
theorem operandsOf_alu_scalar {i : Instr} {d : BitVec 5} {ops : List Opnd} (hd : aluDest i = some d)
    (ho : operandsOf i = some ops) (n : Nat) : .v n ∉ ops := by
  cases i with
  | add | sub | and | or | xor | andn | orn | xnor | sll | srl | sra | rol | ror | slt | sltu | min | max | minu | maxu
  | mul | mulh | mulhu | mulhsu | div | divu | rem | remu | clz | ctz | popc | sextb | sexth | zexth | bswap
  | addi | andi | ori | xori | slti | sltiu | slli | srli | srai | lui | adpc | jal =>
    obtain rfl := Option.some.inj ho
    simp
  | _ => cases hd

section Frame

variable {s : State} {f : Thread → Thread} {d : Nat} (h : (s.thr? s.cur).isSome = true) (hk : (f s.me).kind = s.me.kind)
include h hk

/-- A change of the issuing thread that keeps its registers keeps every reading of a register. -/
theorem reads_modMe_of_regs_eq (hr : (f s.me).regs = s.me.regs) (m : Nat) :
    ((s.modMe f).rS m = s.rS m ∧ (s.modMe f).sFullOf s.cur m = s.sFullOf s.cur m)
    ∧ (s.modMe f).rV m = s.rV m ∧ (s.modMe f).rK m = s.rK m ∧ (s.modMe f).vFullOf s.cur m = s.vFullOf s.cur m := by
  refine ⟨⟨?_, ?_⟩, ?_, ?_, ?_⟩
  · rw [rS_modMe h hk, hr]; rfl
  · by_cases hmq : m = 0 ∨ slotOf s.cur = 0 ∧ 28 ≤ m
    · exact sFullOf_modMe_queue s f hmq
    · rw [sFullOf_modMe h hk hmq, hr, sFullOf_plain s hmq]
  · rw [rV_modMe h hk, hr]; rfl
  · rw [rK_modMe h hk, hr]; rfl
  · rw [vFullOf_modMe h hk, hr]; rfl

/-- One that writes one scalar register keeps every reading of another. -/
theorem reads_modMe_of_putS {v : Word} (hd : d < 32) (hr : (f s.me).regs = s.me.regs.putS d v) {m : Nat} :
    (m ≠ d → (s.modMe f).rS m = s.rS m ∧ (s.modMe f).sFullOf s.cur m = s.sFullOf s.cur m)
    ∧ (s.modMe f).rV m = s.rV m ∧ (s.modMe f).rK m = s.rK m ∧ (s.modMe f).vFullOf s.cur m = s.vFullOf s.cur m := by
  refine ⟨fun hm => ⟨?_, ?_⟩, ?_, ?_, ?_⟩
  · rw [rS_modMe h hk, hr, putS_sOwn _ _ _ hd, putS_ne _ _ hm, if_neg hm]; rfl
  · by_cases hmq : m = 0 ∨ slotOf s.cur = 0 ∧ 28 ≤ m
    · exact sFullOf_modMe_queue s f hmq
    · rw [sFullOf_modMe h hk hmq, hr, putS_sOwn _ _ _ hd, putS_sFull _ _ _ hd, if_neg hm, if_neg hm, sFullOf_plain s hmq]
  · rw [rV_modMe h hk, hr]; rfl
  · rw [rK_modMe h hk, hr]; rfl
  · rw [vFullOf_modMe h hk, hr]; rfl

end Frame

/-- What an instruction with the scalar destination `d` may leave of its own thread: one change of it, which leaves all but the
pc, the wait, the records and, unless it is s0, that register. -/
def AluChange (d : Nat) (s t : State) : Prop :=
  ∃ f : Thread → Thread, t = s.modMe f ∧ (∃ r p w rs, f s.me = { s.me with regs := r, pc := p, park := w, recs := rs })
    ∧ ((f s.me).regs = s.me.regs ∨ ∃ v, (f s.me).regs = s.me.regs.putS d v)

/-- Outside slot 0, writing a register and moving the pc is one change of the issuing thread. -/
theorem aluChange_wS_setPc {s : State} (hoff : slotOf s.cur ≠ 0) (d : Nat) (v pc : Word) :
    AluChange d s ((s.wS d v).setPc pc) := by
  by_cases h0 : d = 0
  · subst h0
    exact ⟨fun x => { x with pc := pc, recs := [] }, rfl, ⟨_, _, _, _, rfl⟩, .inl rfl⟩
  · refine ⟨fun x => { x with regs := x.regs.putS d v, pc := pc, recs := [] }, ?_, ⟨_, _, _, _, rfl⟩, .inr ⟨v, rfl⟩⟩
    rw [State.wS_plain s d v h0 (.inl hoff), State.modRegs_eq, State.setPc, State.modMe, State.modThr_cur, State.modThr_modThr]
    rfl

theorem exec_aluChange {i : Instr} {d : BitVec 5} {s t : State} (hd : aluDest i = some d) (hoff : slotOf s.cur ≠ 0)
    (he : exec i s = .next t) : (s.thr? s.cur).isSome = true ∧ AluChange d.toNat s t := by
  obtain ⟨srcs, hops, body, hbody, hres⟩ := exec_aluDest hd
  rw [hbody s] at he
  obtain ⟨h, ⟨w, hb, rfl⟩ | ⟨-, rfl⟩⟩ := State.perform_next he
  · rw [State.park_blocked hb]
    exact ⟨h, fun x => { x with park := some w }, rfl, ⟨_, _, _, _, rfl⟩, .inl rfl⟩
  · rw [State.consumeAll_off hoff (.inr (operandsOf_alu_scalar hd hops))]
    obtain ⟨v, hv | ⟨pc, hv⟩⟩ := hres s
    · rw [hv, State.finish_ok]
      exact ⟨h, aluChange_wS_setPc hoff d.toNat v _⟩
    · rw [hv, State.finish_jump]
      exact ⟨h, aluChange_wS_setPc hoff d.toNat v pc⟩

/-- Settles O6: an arithmetic instruction parks, or writes its destination and moves the pc; outside slot 0 each is one change of
the issuing thread. -/
theorem aluFrame : Obligations.AluFrame := by
  unfold Obligations.AluFrame
  intro i d s t hd hoff he
  obtain ⟨h, f, rfl, hf, hregs⟩ := exec_aluChange hd hoff he
  have hk : (f s.me).kind = s.me.kind := by
    obtain ⟨r, p, w, rs, hf⟩ := hf
    rw [hf]
  refine ⟨onlyMe_modMe s f, State.modMe_memory s f, State.modMe_me f h ▸ hf, ?_⟩
  rcases hregs with hr | ⟨v, hr⟩
  · exact ⟨fun n _ => (reads_modMe_of_regs_eq h hk hr n).1, fun n => (reads_modMe_of_regs_eq h hk hr n).2⟩
  · exact ⟨fun n => (reads_modMe_of_putS h hk d.isLt hr).1, fun n => (reads_modMe_of_putS h hk d.isLt hr).2⟩

end Sys2Proof.Proofs
end

section
/-!
PROOFS. Results of the arithmetic: the register forms, the immediates, shifts by an immediate and the upper parts, with their
words (R140-R143).
-/

namespace Sys2Proof.Proofs

open Sys2Proof Sys2Proof.Machine Sys2Proof.Cert

/-! ### Forms with their operands ready (R137) -/

section Forms

variable {s : State} {d a b : BitVec 5} {g : Host.Outcome State Fault Refusal} {v : Word}

theorem alu2_ready {f : Word → Word → Word} (h : Ready s [.s a.toNat, .s b.toNat, .d d.toNat]) (hg : g = s.alu2 d a b f)
    (hv : f ((s.consumeAll [.s a.toNat, .s b.toNat, .d d.toNat]).rS a.toNat)
      ((s.consumeAll [.s a.toNat, .s b.toNat, .d d.toNat]).rS b.toNat) = v) :
    g = done s ((s.consumeAll [.s a.toNat, .s b.toNat, .d d.toNat]).wS d.toNat v) := by
  obtain ⟨hthread, hb⟩ := h
  rw [hg, ← hv, State.alu2]
  exact State.perform_ready _ hthread hb

theorem alu1_ready {f : Word → Word} (h : Ready s [.s a.toNat, .d d.toNat]) (hg : g = s.alu1 d a f)
    (hv : f ((s.consumeAll [.s a.toNat, .d d.toNat]).rS a.toNat) = v) :
    g = done s ((s.consumeAll [.s a.toNat, .d d.toNat]).wS d.toNat v) := by
  obtain ⟨hthread, hb⟩ := h
  rw [hg, ← hv, State.alu1]
  exact State.perform_ready _ hthread hb

/-- A form that reads no register: nothing is taken from a queue. -/
theorem alu_ready {f : State → Word} (h : Ready s [.d d.toNat]) (hg : g = s.alu d.toNat [] f) (hv : f s = v) :
    g = done s (s.wS d.toNat v) := by
  obtain ⟨hthread, hb⟩ := h
  have hdone : s.alu d.toNat [] f = .next (s.finish (.ok ((s.consumeAll [.d d.toNat]).wS d.toNat (f (s.consumeAll [.d d.toNat]))))) :=
    State.perform_ready _ hthread hb
  rw [hg, hdone, consumeAll_dest, hv]
  rfl

end Forms

/-! ### Values (R140) -/

theorem ofBool_slt (x y : Word) : Word.ofBool (x.slt y) = if x.toInt < y.toInt then 1 else 0 := by
  simp [Word.ofBool, BitVec.slt_eq_decide]

theorem ofBool_ult (x y : Word) : Word.ofBool (x.ult y) = if x.toNat < y.toNat then 1 else 0 := by
  simp [Word.ofBool, BitVec.ult_eq_decide]

theorem aluMin_eq (x y : Word) : aluMin x y = if x.toInt < y.toInt then x else y := by
  simp [aluMin, BitVec.slt_eq_decide]

theorem aluMax_eq (x y : Word) : aluMax x y = if x.toInt < y.toInt then y else x := by
  simp [aluMax, BitVec.slt_eq_decide]

theorem aluMinu_eq (x y : Word) : aluMinu x y = if x.toNat < y.toNat then x else y := by
  simp [aluMinu, BitVec.ult_eq_decide]

theorem aluMaxu_eq (x y : Word) : aluMaxu x y = if x.toNat < y.toNat then y else x := by
  simp [aluMaxu, BitVec.ult_eq_decide]

theorem aluMulhu_eq (x y : Word) : aluMulhu x y = BitVec.ofNat 32 (x.toNat * y.toNat / 2 ^ 32) := by
  have hcast : ((x.toNat : Int) * y.toNat) / 2 ^ 32 = ((x.toNat * y.toNat / 2 ^ 32 : Nat) : Int) := by norm_cast
  rw [aluMulhu, highWord, hcast, BitVec.ofInt_natCast]

/-- The one overflow of DIV gives the dividend: 2^31 wraps. -/
theorem aluDiv_eq (x y : Word) : aluDiv x y = if y = 0 then 0xFFFFFFFF
    else if x = 0x80000000 ∧ y = 0xFFFFFFFF then 0x80000000 else BitVec.ofInt 32 (x.toInt.tdiv y.toInt) := by
  unfold aluDiv
  split_ifs with _ hwrap
  · rfl
  · obtain ⟨rfl, rfl⟩ := hwrap
    decide
  · rfl

theorem aluRem_eq (x y : Word) : aluRem x y = if y = 0 then x
    else if x = 0x80000000 ∧ y = 0xFFFFFFFF then 0 else BitVec.ofInt 32 (x.toInt.tmod y.toInt) := by
  unfold aluRem
  split_ifs with _ hwrap
  · rfl
  · obtain ⟨rfl, rfl⟩ := hwrap
    decide
  · rfl

theorem aluDivu_eq (x y : Word) : aluDivu x y = if y = 0 then 0xFFFFFFFF else BitVec.ofNat 32 (x.toNat / y.toNat) := by
  rw [aluDivu, BitVec.udiv_def]

theorem aluRemu_eq (x y : Word) : aluRemu x y = if y = 0 then x else BitVec.ofNat 32 (x.toNat % y.toNat) := by
  rw [aluRemu, BitVec.umod_def]

/-- The least number below `n` with a property, or `n`: no lesser one has it. -/
theorem leastBelow_getD (n : Nat) (p : Nat → Bool) : (leastBelow n p).getD n ≤ n
    ∧ (∀ i, i < (leastBelow n p).getD n → p i = false) ∧ ((leastBelow n p).getD n < n → p ((leastBelow n p).getD n) = true) := by
  cases h : leastBelow n p with
  | none =>
    have hnone := List.find?_range_eq_none.1 h
    exact ⟨Nat.le_refl n, fun i hi => by simpa using hnone i hi, fun hlt => absurd hlt (Nat.lt_irrefl n)⟩
  | some k =>
    obtain ⟨hk, hmem, hleast⟩ := List.find?_range_eq_some.1 h
    exact ⟨Nat.le_of_lt (List.mem_range.1 hmem), fun i hi => by simpa using hleast i hi, fun _ => hk⟩

theorem truncate_zeroExtend_eq_and (x : Word) : (x.truncate 16).zeroExtend 32 = x &&& 0xFFFF := by
  apply BitVec.eq_of_toNat_eq
  have hmod : x.toNat % 65536 < 4294967296 := by omega
  have hand : x.toNat &&& 65535 = x.toNat % 65536 := Nat.and_two_pow_sub_one_eq_mod x.toNat 16
  simp [hand, Nat.mod_eq_of_lt hmod]

theorem append_toNat {m n : Nat} (x : BitVec m) (y : BitVec n) : (x ++ y).toNat = x.toNat * 2 ^ n + y.toNat := by
  rw [BitVec.toNat_append, ← Nat.shiftLeft_add_eq_or_of_lt y.isLt, Nat.shiftLeft_eq]

/-- The bytes of a word in the other order. -/
theorem aluBswap_eq (x : Word) : aluBswap x =
    (x.extractLsb 7 0 ++ x.extractLsb 15 8 ++ x.extractLsb 23 16 ++ x.extractLsb 31 24 : BitVec 32) := by
  apply BitVec.eq_of_toNat_eq
  have hx := x.isLt
  simp only [aluBswap, leBytes, leNat, List.reverse_cons, List.reverse_nil, List.nil_append, List.cons_append, append_toNat,
    BitVec.extractLsb_toNat, BitVec.toNat_ofNat, Nat.shiftRight_eq_div_pow,
    Nat.div_div_eq_div_mul, Nat.reduceMul, Nat.reducePow, Nat.div_one]
  omega

/-- Settles O1: every form is `alu2` or `alu1` of its result, and the words are the encoder's; the values above bring each result
to the form that R140 gives. -/
theorem integerResults : Obligations.IntegerResults := by
  unfold Obligations.IntegerResults
  refine ⟨fun s d a b h => ?binary, fun s d a b h => ?division, fun s d a h => ?unary, fun d a b => ?words, fun d a => ?unaryWords,
    fun d a b f hlo hhi => ?unlisted⟩
  case binary =>
    exact ⟨alu2_ready h (exec_add s) rfl, alu2_ready h (exec_sub s) rfl, alu2_ready h (exec_and s) rfl, alu2_ready h (exec_or s) rfl, alu2_ready h (exec_xor s) rfl,
      alu2_ready h (exec_andn s) rfl, alu2_ready h (exec_orn s) rfl, alu2_ready h (exec_xnor s) rfl, alu2_ready h (exec_sll s) rfl, alu2_ready h (exec_srl s) rfl,
      alu2_ready h (exec_sra s) rfl, alu2_ready h (exec_rol s) rfl, alu2_ready h (exec_ror s) rfl, alu2_ready h (exec_slt s) (ofBool_slt _ _),
      alu2_ready h (exec_sltu s) (ofBool_ult _ _), alu2_ready h (exec_min s) (aluMin_eq _ _), alu2_ready h (exec_max s) (aluMax_eq _ _),
      alu2_ready h (exec_minu s) (aluMinu_eq _ _), alu2_ready h (exec_maxu s) (aluMaxu_eq _ _), alu2_ready h (exec_mul s) rfl, alu2_ready h (exec_mulh s) rfl,
      alu2_ready h (exec_mulhu s) (aluMulhu_eq _ _), alu2_ready h (exec_mulhsu s) rfl⟩
  case division =>
    exact ⟨alu2_ready h (exec_div s) (aluDiv_eq _ _), alu2_ready h (exec_divu s) (aluDivu_eq _ _), alu2_ready h (exec_rem s) (aluRem_eq _ _),
      alu2_ready h (exec_remu s) (aluRemu_eq _ _)⟩
  case unary =>
    exact ⟨⟨_, alu1_ready h (exec_clz s) rfl, leastBelow_getD 32 _⟩, ⟨_, alu1_ready h (exec_ctz s) rfl, leastBelow_getD 32 _⟩, alu1_ready h (exec_popc s) rfl,
      alu1_ready h (exec_sextb s) rfl, alu1_ready h (exec_sexth s) rfl, alu1_ready h (exec_zexth s) (truncate_zeroExtend_eq_and _), alu1_ready h (exec_bswap s) (aluBswap_eq _)⟩
  case words => exact List.map_inj_left.1 rfl
  case unaryWords => exact List.map_inj_left.1 rfl
  case unlisted =>
    have hop : fld (wordRR 1 d.toNat a.toNat b.toNat f) 0 6 = 0x01 := by unfold fld wordRR; omega
    have hfun : fld (wordRR 1 d.toNat a.toNat b.toNat f) 26 6 = f := by unfold fld wordRR; omega
    have hparse : parse01 (wordRR 1 d.toNat a.toNat b.toNat f) = .error .function := by
      unfold parse01
      rw [hfun]
      split
      case h_35 => rfl
      all_goals omega
    have h0 : wordRR 1 d.toNat a.toNat b.toNat f ≠ 0 := by unfold wordRR; omega
    rw [decodeWord, if_neg h0, parse_op01 hop, hparse]

end Sys2Proof.Proofs
end

section
/-!
PROOFS. Immediates, upper parts, jumps and branches: their results, their words, and where the pc goes (R141-R145).
-/

namespace Sys2Proof.Proofs

open Sys2Proof Sys2Proof.Machine Sys2Proof.Cert

/-! ### Values (R141-R143) -/

theorem shiftOf_zeroExtend (n : BitVec 5) : shiftOf (n.zeroExtend 32) = n.toNat := by
  have hn := n.isLt
  simp only [shiftOf, BitVec.toNat_setWidth]
  omega

theorem upper_eq (up : BitVec 21) : upper up = BitVec.ofNat 32 (up.toNat * 2048) := by
  apply BitVec.eq_of_toNat_eq
  simp [upper, Nat.shiftLeft_eq]

theorem ofBool_slt_signExtend (x : Word) (imm : BitVec 16) :
    Word.ofBool (x.slt (imm.signExtend 32)) = if x.toInt < imm.toInt then 1 else 0 := by
  rw [ofBool_slt, BitVec.toInt_signExtend_of_le (by decide)]

/-- Settles O2: every form is `alu1`, or `alu` without sources, of its result, and the words are the encoder's. -/
theorem immediateResults : Obligations.ImmediateResults := by
  unfold Obligations.ImmediateResults
  refine ⟨fun s d a n imm up => ⟨fun h => ?immediate, fun h => ?upper⟩, fun d a n i up => ?words⟩
  case immediate =>
    exact ⟨alu1_ready h (exec_addi s) rfl, alu1_ready h (exec_andi s) rfl, alu1_ready h (exec_ori s) rfl,
      alu1_ready h (exec_xori s) rfl, alu1_ready h (exec_slti s) (ofBool_slt_signExtend _ imm),
      alu1_ready h (exec_sltiu s) (ofBool_ult _ _), alu1_ready h (exec_slli s) (by rw [aluSll, shiftOf_zeroExtend]),
      alu1_ready h (exec_srli s) (by rw [aluSrl, shiftOf_zeroExtend]),
      alu1_ready h (exec_srai s) (by rw [aluSra, shiftOf_zeroExtend])⟩
  case upper =>
    exact ⟨alu_ready h (exec_lui s) (upper_eq up), alu_ready h (exec_adpc s) (by rw [upper_eq])⟩
  case words =>
    have hsrli : Sys2Proof.encode (.srli d a n) = some (wordRI 8 d.toNat a.toNat (1024 + n.toNat)) :=
      congrArg some (by unfold wordRR wordRI; omega)
    have hsrai : Sys2Proof.encode (.srai d a n) = some (wordRI 8 d.toNat a.toNat (2048 + n.toNat)) :=
      congrArg some (by unfold wordRR wordRI; omega)
    exact List.map_inj_left.1 (by simp only [List.map_cons, hsrli, hsrai]; rfl)

/-! ### What reading the operands leaves of the issuing thread (R138, R229) -/

section Reading

variable {γ : Type} {g : Thread → γ}

/-- A change of a thread that keeps a reading of it keeps that reading of the issuing thread. -/
theorem modThr_keeps_me (s : State) (id : Nat) {f : Thread → Thread} (hf : ∀ x, g (f x) = g x) :
    g (s.modThr id f).me = g s.me := by
  rw [State.me, State.modThr_cur]
  by_cases e : s.cur = id
  · cases h : s.thr? id with
    | none => rw [State.modThr, h]; rfl
    | some t => rw [e, State.modThr_thr_self f (Option.isSome_of_eq_some h), hf, ← e]; rfl
  · rw [State.modThr_thr_ne s f e]; rfl

variable (hr : ∀ x r, g { x with regs := r } = g x)
include hr

theorem consume_keeps_me (s : State) (ops : List Opnd) : g (s.consume ops).me = g s.me := by
  have held (u : State) (id : Nat) (f : Regs → Regs) : g (u.modRegs id f).me = g u.me :=
    modThr_keeps_me u id fun x => hr x _
  have drawn (u : State) : u.drawWord.2.me = u.me := rfl
  unfold State.consume
  dsimp only
  split_ifs <;> simp only [held, drawn, modCore_me]

/-- Reading the operands touches the thread's registers and what its deliveries have filled, and nothing else of it. -/
theorem consumeAll_keeps_me (hf : ∀ x l, g { x with fresh := l } = g x) (s : State) (ops : List Opnd) :
    g (s.consumeAll ops).me = g s.me := by
  unfold State.consumeAll State.observe
  dsimp only
  split
  · exact consume_keeps_me hr s ops
  · rw [acquire_me]
    exact (modThr_keeps_me _ _ fun x => hf x _).trans (consume_keeps_me hr s ops)

end Reading

@[simp] theorem consumeAll_pc (s : State) (ops : List Opnd) : (s.consumeAll ops).me.pc = s.me.pc :=
  consumeAll_keeps_me (g := Thread.pc) (fun _ _ => rfl) (fun _ _ => rfl) s ops

@[simp] theorem consumeAll_userMode (s : State) (ops : List Opnd) : (s.consumeAll ops).me.userMode = s.me.userMode :=
  consumeAll_keeps_me (g := Thread.userMode) (fun _ _ => rfl) (fun _ _ => rfl) s ops

/-! ### Jumps and branches (R144-R145) -/

theorem wordOffset_eq {n : Nat} (off : BitVec n) : wordOffset off = BitVec.ofInt 32 (4 * off.toInt) := by
  have htwo : BitVec.twoPow 32 2 = BitVec.ofInt 32 4 := by decide
  rw [wordOffset, BitVec.signExtend, BitVec.shiftLeft_eq_mul_twoPow, htwo, ← BitVec.ofInt_mul, Int.mul_comm]

/-- A branch goes to its target where its comparison holds, and to the next word where it does not. -/
theorem branch_ready {s : State} {a b : BitVec 5} {off : BitVec 13} {taken : Word → Word → Bool}
    {g : Host.Outcome State Fault Refusal} (h : Ready s [.s a.toNat, .s b.toNat]) (hg : g = s.branch a b off taken) (p : Prop)
    [Decidable p] (hp : taken ((s.consumeAll [.s a.toNat, .s b.toNat]).rS a.toNat)
      ((s.consumeAll [.s a.toNat, .s b.toNat]).rS b.toNat) = decide p) :
    g = if p then .next ((s.consumeAll [.s a.toNat, .s b.toNat]).setPc (s.me.pc + BitVec.ofInt 32 (4 * off.toInt)))
      else done s (s.consumeAll [.s a.toNat, .s b.toNat]) := by
  obtain ⟨hthread, hb⟩ := h
  rw [hg, State.branch, State.perform_ready _ hthread hb, hp, consumeAll_pc, wordOffset_eq]
  by_cases e : p
  · simp only [e, decide_true, if_true, State.finish_jump]
  · simp only [e, decide_false, Bool.false_eq_true, if_false, State.finish_ok]
    rfl

/-- Settles O3: a jump links and moves the pc, or traps before it links; a branch is decided by its comparison. -/
theorem controlFlow : Obligations.ControlFlow := by
  unfold Obligations.ControlFlow
  refine ⟨fun s d a off imm => ⟨?jal, ?jalr⟩, fun s a b off h => ?branches, fun a b off => ?words⟩
  case jal =>
    rintro ⟨hthread, hb⟩
    rw [exec_jal, execJal, State.perform_ready _ hthread hb, consumeAll_dest, State.finish_jump, wordOffset_eq]
  case jalr =>
    rintro ⟨hthread, hb⟩
    rw [exec_jalr, execJalr, State.perform_ready _ hthread hb]
    refine ⟨fun hal => ?_, fun hal => ?_⟩
    · rw [if_neg (not_not.2 hal), State.finish_jump, consumeAll_pc]
    · rw [if_pos hal, State.finish_trap]
      rfl
  case branches =>
    exact ⟨branch_ready h (exec_beq s) _ (beq_eq_decide _ _), branch_ready h (exec_bne s) _ (by simp [bne, beq_eq_decide]),
      branch_ready h (exec_blt s) _ rfl, branch_ready h (exec_bge s) _ BitVec.sle_eq_not_slt.symm,
      branch_ready h (exec_bltu s) _ rfl, branch_ready h (exec_bgeu s) _ (BitVec.ule_eq_not_ult _ _).symm⟩
  case words => exact List.map_inj_left.1 rfl

end Sys2Proof.Proofs
end

section
/-!
PROOFS. Trap entry and return: a vector entry is read without a change of any thread, and TRET gives back what the trap saved
(R133, R160, R387-R388).
-/

namespace Sys2Proof.Proofs

open Sys2Proof Sys2Proof.Machine Sys2Proof.Cert

/-! ### What a read at a core's flight port keeps (R181, R133) -/

section Port

variable {γ : Type} {g : State → γ} (hg : OffMemory g) (hflight : ∀ s n f, g (State.modFlight s n f) = g s)
variable (hstorey : ∀ s n f, g (State.modStorey s n f) = g s)

include hg hflight in
theorem fillL1_keeps (s : State) (f : Nat) (e : TlbEntry) : g (s.fillL1 f e) = g s := by
  unfold State.fillL1
  split
  · exact hflight _ _ _
  · exact (hflight _ _ _).trans (hg.draw _ _)

include hg hstorey in
theorem fillL2_keeps (s : State) (st : Nat) (e : TlbEntry) : g (s.fillL2 st e) = g s := by
  unfold State.fillL2
  split
  · exact hstorey _ _ _
  · exact (hstorey _ _ _).trans (hg.draw _ _)

include hg hflight in
theorem translate_keeps {s u : State} {core part va : Nat} {acc : Access} {e : TlbEntry}
    (h : s.translate core part va acc = .ok u e) : g u = g s := by
  unfold State.translate at h
  grind [fillL1_keeps]

include hg hflight hstorey

theorem portWalk_keeps {s u : State} {core part va : Nat} {acc : Access} {l : Loc}
    (h : s.portWalk core part va acc = .ok u l) : g u = g s := by
  unfold State.portWalk at h
  dsimp only at h
  split at h
  case h_1 v e hv =>
    obtain ⟨rfl, -⟩ := UnitRes.ok.inj h
    exact translate_keeps hg hflight hv
  case h_2 =>
    split at h
    · cases h
    · split at h
      · cases h
      · cases h
      · split at h
        · obtain ⟨rfl, -⟩ := UnitRes.ok.inj h
          rw [fillL1_keeps hg hflight, fillL2_keeps hg hstorey, touchPte_keeps hg, walkTouch_keeps hg]
        · cases h

theorem readDesc_keeps {s u : State} {core part base i d : Nat} (h : s.readDesc core part base i = .ok u d) : g u = g s := by
  unfold State.readDesc State.readPort at h
  split at h
  case h_1 v l bs hv =>
    split at hv
    case h_1 w l' hw =>
      obtain ⟨⟨rfl, rfl⟩, -⟩ := Prod.mk.inj hv |>.imp_left UnitRes.ok.inj
      split at h
      · cases h
      · obtain ⟨rfl, -⟩ := DescRes.ok.inj h
        rw [reach_keeps hg, portWalk_keeps hg hflight hstorey hw]
    case h_2 r hr => exact (hr _ _ (Prod.mk.inj hv).1).elim
  all_goals cases h

theorem vecEntry_keeps {s u : State} {core type cls prio : Nat} {entry : Word} {seg : Seg}
    (h : s.vecEntry core type = .usable u cls prio entry seg) : g u = g s := by
  unfold State.vecEntry at h
  dsimp only at h
  split at h
  · cases h
  · split at h
    · cases h
    · split at h
      case h_1 => cases h
      case h_2 => cases h
      case h_3 v d hd =>
        split at h
        · obtain ⟨rfl, -⟩ := VecRes.usable.inj h
          exact readDesc_keeps hg hflight hstorey hd
        · cases h

end Port

theorem vecEntry_threads {s u : State} {core type cls prio : Nat} {entry : Word} {seg : Seg}
    (h : s.vecEntry core type = .usable u cls prio entry seg) : u.threads = s.threads :=
  vecEntry_keeps offMemory_threads (fun _ _ _ => rfl) (fun _ _ _ => rfl) h

/-! ### Entry and return (R387-R388, R160) -/

/-- A thread that has entered its trap handler (R387). -/
def trapEntered (cause : Nat) (val : Addr) (pc : Word) (seg : Seg) (t : Thread) : Thread :=
  { t with
    sys := { t.sys.trapped cause val pc with tstatus := setBit (setBit t.sys.tstatus 1 (t.sys.tstatus.getLsbD 0)) 0 true }
    savedSeg := t.segs.lookD 1 {}, trapActive := true, segs := t.segs.put 1 seg, park := none, ans := none, recs := []
    pc := t.sys.tvec }

/-- A trap-active thread that has returned (R388). -/
def trapReturned (t : Thread) : Thread :=
  { t with
    pc := t.sys.tpc, sys := { t.sys with tstatus := setBit t.sys.tstatus 0 (t.sys.tstatus.getLsbD 1) }
    segs := t.segs.put 1 t.savedSeg, trapActive := false }

section Trap

variable {s u : State} {id cause cls prio : Nat} {val : Addr} {pc entry : Word} {seg : Seg}
variable (h : (s.thr? id).isSome = true)
include h

theorem takeTrap_usable (ha : (s.thr id).trapActive = false) (hv : s.vecEntry (coreOf id) 0x3F = .usable u cls prio entry seg) :
    s.takeTrap id cause val pc = u.modThr id (trapEntered cause val pc seg)
    ∧ (u.thr? id).isSome = true ∧ u.thr id = s.thr id := by
  have ht := vecEntry_threads hv
  refine ⟨?_, by rw [thr?_congr ht]; exact h, by rw [State.thr, ht]; rfl⟩
  rw [State.takeTrap, State.takeTrapAt, if_neg (by simp [ha]), hv]
  rfl

theorem trapReturn_thr (ha : (s.thr id).trapActive = true) : (s.trapReturn id).thr id = trapReturned (s.thr id) := by
  rw [State.trapReturn, State.modThr_thr_self _ h]
  exact if_pos ha

end Trap

/-- The mode that a trap saves is the mode that its return sets. -/
theorem trapReturned_userMode (cause : Nat) (val : Addr) (pc : Word) (seg : Seg) (t : Thread) :
    (trapReturned (trapEntered cause val pc seg t)).userMode = t.userMode := by
  refine congrArg not ((setBit_getLsbD _ 0 _ (by decide)).trans ?_)
  exact (setBit_getLsbD _ 1 _ (by decide)).trans (setBit_getLsbD _ 1 _ (by decide))

/-- Settles O28: the return undoes the entry on the thread itself, which the reads of the vector entry leave as it was. -/
theorem trapThenReturn : Obligations.TrapThenReturn := by
  unfold Obligations.TrapThenReturn
  intro s u id cause cls prio val pc entry seg h ha hv
  obtain ⟨htrap, hu, hthr⟩ := takeTrap_usable (cause := cause) (val := val) (pc := pc) h ha hv
  have hentered : (u.modThr id (trapEntered cause val pc seg)).thr id = trapEntered cause val pc seg (s.thr id) := by
    rw [State.modThr_thr_self _ hu, hthr]
  have hsome : ((u.modThr id (trapEntered cause val pc seg)).thr? id).isSome = true := by
    rw [State.modThr_thr?_self, Option.isSome_map, hu]
  have hy : ((s.takeTrap id cause val pc).trapReturn id).thr id = trapReturned (trapEntered cause val pc seg (s.thr id)) := by
    rw [htrap, trapReturn_thr hsome (hentered ▸ rfl), hentered]
  rw [hy]
  refine ⟨rfl, trapReturned_userMode cause val pc seg _, Tab.lookD_put_self _ _ _ _, rfl, rfl, fun n hn => ?_⟩
  exact (Tab.lookD_put_ne _ _ _ hn).trans (Tab.lookD_put_ne _ _ _ hn)

end Sys2Proof.Proofs
end

section
/-!
PROOFS. EXIT of a quiet thread (R152): it retires; a handler's slot is then free. The statement does not ask that the issuing
number is a slot's; under a number that names an image it fails.
-/

namespace Sys2Proof.Proofs

open Sys2Proof Sys2Proof.Machine Sys2Proof.Cert

/-! ### A thread with nothing outstanding -/

/-- The thread of a state in which it has issued EXIT. -/
def exitIssued (s : State) : State := s.modMe fun x => { x with exiting := true }

/-- Its triggers are withdrawn, and the stores that its core still combines of it are sent. -/
def exitSentOwn (s : State) : State := ((exitIssued s).withdrawTriggers s.cur).flushWcb s.myCore fun e => e.slot == s.cur

/-- What EXIT leaves before the thread retires: every store that its core combines is sent. -/
def exitSent (s : State) : State := (exitSentOwn s).flushWcb s.myCore fun _ => true

theorem exit_retires {s : State} (h : Ready s []) (hn : s.me.nested = [])
    (hw : (exitIssued s).outstanding s.cur (fun r => r.mode == .wait) = [])
    (hq : (exitSentOwn s).quiet s.cur ((exitSentOwn s).thr s.cur) = true) :
    exec .exit s = .next ((exitSent s).retire s.cur) := by
  have hcancels (ends : Bool) : (exitIssued s).sendCancels ends [] = exitIssued s := rfl
  have hnested : ((exitIssued s).thr s.cur).nested = [] := by
    rw [exitIssued, State.modMe, State.modThr_thr_self _ h.1]
    exact hn
  have hstep : (exitIssued s).exitStep s.cur = (exitSent s).retire s.cur := by
    rw [State.exitStep, hnested, hw]
    simp only [hcancels, List.isEmpty_nil, Bool.not_true, Bool.false_eq_true, if_false, ite_self, Bool.and_true]
    exact if_pos hq
  rw [exec_exit, execExit, perform_nil _ h.1, State.finish_gone, ← hstep]
  rfl

/-- A handler in a slot owns no granule and belongs to no task, so that its retirement only frees the slot. -/
theorem retire_handler {v : State} {id : Nat} (hid : id < imageBase) (hv : (v.thr id).kind = .handler) :
    v.retire id = v.freeSlot id := by
  have hany : ((v.anyThr? id).getD {}) = v.thr id := by rw [State.anyThr?, if_pos hid]; rfl
  have hown : v.freeOwn id = v := by
    unfold State.freeOwn
    simp only [hany, hv, ThreadKind.taskNo]
  unfold State.retire State.dropThread
  simp only [hv, hown]

/-- R152 for a thread that stands in a slot. -/
theorem exitRetires_of_slot {s : State} (hid : s.cur < imageBase) (h : Ready s []) (hn : s.me.nested = [])
    (hw : (exitIssued s).outstanding s.cur (fun r => r.mode == .wait) = [])
    (hq : (exitSentOwn s).quiet s.cur ((exitSentOwn s).thr s.cur) = true) :
    exec .exit s = .next ((exitSent s).retire s.cur)
    ∧ (((exitSent s).thr s.cur).kind = .handler → (exitSent s).retire s.cur = (exitSent s).freeSlot s.cur)
    ∧ (((exitSent s).threads.map Prod.fst).Nodup → ((exitSent s).freeSlot s.cur).thr? s.cur = none) :=
  ⟨exit_retires h hn hw hq, retire_handler hid, fun hnodup => freeSlot_thr? hnodup s.cur⟩

/-! ### A number that names an image -/

/-- A pre-empted impression that owns a shadow granule. -/
def preempted : Thread := { kind := .impression 0 0 0 0 0, own := [(0, .owned 16)] }

/-- A handler issues under the number 131072, which is no slot's but the name of image 0. -/
def handlerAtImage : State :=
  { State.reset with
    cur := imageBase
    threads := [(imageBase, { kind := .handler })]
    images := [(0, { slot := 3, thread := preempted, block := 0, blocks := 1, saved := true })] }

/-- The granules that the thread of image 0 owns. -/
def granulesOfImage (s : State) : Option (Tab Gran) := (s.images.look 0).map fun im => im.thread.own

/-- Refutes O33: retiring `handlerAtImage`'s thread frees the granule of the image that has the thread's number, where freeing its
slot leaves the image as it was. The statement asks of the issuing number only that a thread stands under it; for the
number of a slot it holds (`exitRetires_of_slot`). -/
theorem not_exitRetires : ¬ Obligations.ExitRetires := by
  unfold Obligations.ExitRetires
  intro h
  have hready : Ready handlerAtImage [] := ⟨rfl, rfl⟩
  obtain ⟨-, hfree, -⟩ := h handlerAtImage hready rfl (by decide +kernel) (by decide +kernel)
  have himage := congrArg granulesOfImage (hfree rfl)
  have hretired : granulesOfImage ((exitSent handlerAtImage).retire handlerAtImage.cur) = some [] := by decide +kernel
  have hfreed : granulesOfImage ((exitSent handlerAtImage).freeSlot handlerAtImage.cur) = some [(0, .owned 16)] := by decide +kernel
  exact absurd (hretired.symm.trans (himage.trans hfreed)) (by decide)

end Sys2Proof.Proofs
end

section
/-!
PROOFS. Instructions that store nothing (R137-R145, R203-R205, R219, R229-R246): a thread in a slot leaves every byte of memory and
every full/empty bit. The statement does not ask that the issuing number is a slot's; under a number that names an image it
fails.
-/

namespace Sys2Proof.Proofs

open Sys2Proof Sys2Proof.Machine Sys2Proof.Cert

/-! ### Operations that leave the memory -/

@[simp] theorem setPc_memory (s : State) (pc : Word) : (s.setPc pc).memory = s.memory := State.modMe_memory _ _

@[simp] theorem wV_memory (s : State) (n : Nat) (v : VWord) : (s.wV n v).memory = s.memory := State.modThr_memory _ _ _

@[simp] theorem wV_cur (s : State) (n : Nat) (v : VWord) : (s.wV n v).cur = s.cur := State.modThr_cur _ _ _

@[simp] theorem wVpart_memory (s : State) (n : Nat) (v : VWord) : (s.wVpart n v).memory = s.memory := by
  rw [wVpart_eq, State.modMe_memory]

@[simp] theorem wVm_memory (s : State) (k n : Nat) (v : VWord) : (s.wVm k n v).memory = s.memory := by
  unfold State.wVm
  split <;> simp

@[simp] theorem wVm_cur (s : State) (k n : Nat) (v : VWord) : (s.wVm k n v).cur = s.cur := by
  unfold State.wVm
  split
  · exact wV_cur _ _ _
  · rw [wVpart_eq, State.modMe_cur]

@[simp] theorem wK_memory (s : State) (n : Nat) (c : Mask) : (s.wK n c).memory = s.memory := by
  unfold State.wK
  split
  · rfl
  · exact State.modThr_memory _ _ _

@[simp] theorem wKpart_memory (s : State) (n : Nat) (c : Mask) : (s.wKpart n c).memory = s.memory := by
  by_cases h0 : n = 0
  · rw [State.wKpart, if_pos h0]
  · rw [wKpart_eq s c h0, State.modMe_memory]

@[simp] theorem wKm_memory (s : State) (k n : Nat) (c : Mask) : (s.wKm k n c).memory = s.memory := by
  unfold State.wKm
  split <;> simp

/-- The number of a slot names the thread in it. -/
theorem modAny_slot (s : State) {id : Nat} (f : Thread → Thread) (h : id < imageBase) : s.modAny id f = s.modThr id f := if_pos h

/-- The flags of a thread in a slot stand in the thread; those of an image are written to its storey's save area (R402). -/
theorem raise_memory {s : State} (fl : Nat) (h : s.cur < imageBase) : (s.raise fl).memory = s.memory := by
  unfold State.raise State.raiseFor
  split
  · rfl
  · rw [modAny_slot s _ h, State.modThr_memory]

@[simp] theorem flushWcb_memory (s : State) (core : Nat) (p : WcEntry → Bool) : (s.flushWcb core p).memory = s.memory := by
  unfold State.flushWcb
  dsimp only
  split
  · rfl
  · exact foldl_keeps State.memory (fun _ _ => by simp [State.addUnack]) _ _

@[simp] theorem sendAll_memory (s : State) : s.sendAll.memory = s.memory := flushWcb_memory _ _ _

@[simp] theorem park_memory (s : State) (w : Wait) : (s.park w).memory = s.memory := by
  have joined (st pg : Nat) (acc : Access) (fl : Nat) : (s.joinPending st pg acc fl).memory = s.memory := by
    unfold State.joinPending
    split <;> rfl
  unfold State.park
  dsimp only
  split
  · split <;> simp [joined]
  all_goals simp

@[simp] theorem consume_memory (s : State) (ops : List Opnd) : (s.consume ops).memory = s.memory := by
  have drawn (u : State) : u.drawWord.2.memory = u.memory := rfl
  unfold State.consume
  dsimp only
  split_ifs <;> simp [State.modRegs, drawn]

@[simp] theorem consume_cur (s : State) (ops : List Opnd) : (s.consume ops).cur = s.cur := by
  have drawn (u : State) : u.drawWord.2.cur = u.cur := rfl
  unfold State.consume
  dsimp only
  split_ifs <;> simp [State.modRegs, drawn]

@[simp] theorem consumeAll_memory (s : State) (ops : List Opnd) : (s.consumeAll ops).memory = s.memory := by
  unfold State.consumeAll State.observe
  dsimp only
  split <;> simp

@[simp] theorem consumeAll_cur (s : State) (ops : List Opnd) : (s.consumeAll ops).cur = s.cur := by
  unfold State.consumeAll State.observe
  dsimp only
  split <;> simp

@[simp] theorem emptyS_memory (s : State) (n : Nat) : (s.emptyS n).memory = s.memory := by
  unfold State.emptyS
  split
  · rfl
  · exact State.modThr_memory _ _ _

@[simp] theorem emptyV_memory (s : State) (n : Nat) : (s.emptyV n).memory = s.memory := State.modThr_memory _ _ _

/-! ### Instructions -/

/-- Performed by a body that leaves the memory, however it ends. -/
def LeavesMemory (g : State → Host.Outcome State Fault Refusal) : Prop :=
  ∃ ops body, (∀ s, g s = s.perform ops body)
    ∧ ∀ s u : State, u.cur < imageBase → u.memory = s.memory → (s.finish (body u)).memory = s.memory

theorem LeavesMemory.memory_eq {g : State → Host.Outcome State Fault Refusal} (h : LeavesMemory g) {s t : State}
    (hslot : s.cur < imageBase) (he : g s = .next t) : t.memory = s.memory := by
  obtain ⟨ops, body, hg, hbody⟩ := h
  rw [hg s] at he
  obtain ⟨-, ⟨w, -, rfl⟩ | ⟨-, rfl⟩⟩ := State.perform_next he
  · exact park_memory s w
  · exact hbody s _ (by rw [consumeAll_cur]; exact hslot) (consumeAll_memory s ops)

section Forms

variable {g : State → Host.Outcome State Fault Refusal}

theorem leavesMemory_of_alu {d : Nat} {srcs : List Nat} {f : State → Word} (h : ∀ s, g s = s.alu d srcs f) : LeavesMemory g :=
  ⟨_, _, h, fun s u _ hm => by simp [State.wS_memory, hm]⟩

theorem leavesMemory_of_aluOn {d : BitVec 5} {ops : List Opnd} (h : AluOn d ops g) : LeavesMemory g := by
  obtain ⟨body, hg, hbody⟩ := h
  refine ⟨ops, body, hg, fun s u _ hm => ?_⟩
  obtain ⟨v, hv | ⟨pc, hv⟩⟩ := hbody u
  · rw [hv, State.finish_ok, setPc_memory, State.wS_memory, hm]
  · rw [hv, State.finish_jump, setPc_memory, State.wS_memory, hm]

theorem leavesMemory_of_branch {a b : BitVec 5} {off : BitVec 13} {taken : Word → Word → Bool} (h : ∀ s, g s = s.branch a b off taken) :
    LeavesMemory g := by
  refine ⟨_, _, fun s => by rw [h s, State.branch], fun s u _ hm => ?_⟩
  split <;> simp [hm]

theorem leavesMemory_of_vlanes {srcs : List Nat} {w : Nat} {vd : BitVec 4} {k : BitVec 3} {f : State → Nat → Nat × Nat}
    (h : ∀ s, g s = s.vlanes srcs w vd k f) : LeavesMemory g :=
  ⟨_, _, h, fun s u hu hm => by
    rw [State.finish_ok, setPc_memory, raise_memory _ (by rw [wVm_cur]; exact hu), wVm_memory, hm]⟩

theorem leavesMemory_of_vint {op : Nat} {t : BitVec 3} {vd va vb : BitVec 4} {k : BitVec 3} (h : ∀ s, g s = s.vint op t vd va vb k) :
    LeavesMemory g :=
  leavesMemory_of_vlanes fun s => by rw [h s, State.vint]

theorem leavesMemory_of_vflt {op : Nat} {t : BitVec 3} {vd va vb : BitVec 4} {k : BitVec 3} (h : ∀ s, g s = s.vflt op t vd va vb k) :
    LeavesMemory g :=
  leavesMemory_of_vlanes fun s => by rw [h s, State.vflt]

theorem leavesMemory_of_vred {op : Nat} {t : BitVec 3} {vd va : BitVec 4} {k : BitVec 3} (h : ∀ s, g s = s.vred op t vd va k) :
    LeavesMemory g :=
  ⟨_, _, fun s => by rw [h s, State.vred], fun s u hu hm => by
    rw [State.finish_ok, setPc_memory, raise_memory _ (by rw [wV_cur]; exact hu), wV_memory, hm]⟩

theorem leavesMemory_of_kop {kd : BitVec 3} {f : State → Mask} (h : ∀ s, g s = s.kop kd f) : LeavesMemory g :=
  ⟨_, _, h, fun s u _ hm => by rw [State.finish_ok, setPc_memory, wK_memory, hm]⟩

end Forms

theorem finish_rput_memory {s u : State} (sel : Word) (vec : Bool) (v : VWord) (hm : u.memory = s.memory) :
    (s.finish (u.rput sel vec v)).memory = s.memory := by
  unfold State.rput
  dsimp only
  split
  · simp [hm]
  · split <;> simp [State.addUnack, hm]

theorem exec_silent {i : Instr} (h : silent i = true) : LeavesMemory (exec i) := by
  by_cases hd : ∃ d, aluDest i = some d
  · obtain ⟨d, hd⟩ := hd
    obtain ⟨srcs, -, halu⟩ := exec_aluDest hd
    exact leavesMemory_of_aluOn halu
  cases i with
  | add | sub | and | or | xor | andn | orn | xnor | sll | srl | sra | rol | ror | slt | sltu | min | max | minu | maxu
  | mul | mulh | mulhu | mulhsu | div | divu | rem | remu | clz | ctz | popc | sextb | sexth | zexth | bswap
  | addi | andi | ori | xori | slti | sltiu | slli | srli | srai | lui | adpc | jal =>
    exact absurd ⟨_, rfl⟩ hd
  | beq | bne | blt | bge | bltu | bgeu => exact leavesMemory_of_branch fun s => by simp only [exec]; rfl
  | viadd | visub | vimul | vimin | vimax | viand | vior | vixor | visll | visrl | visra | viabs =>
    exact leavesMemory_of_vint fun s => by simp only [exec]; rfl
  | vadd | vsub | vmul | vfma | vfms | vmin | vmax | vabs | vneg | vsqrt | vrcp | vrsq | vexp2 | vscl =>
    exact leavesMemory_of_vflt fun s => by simp only [exec]; rfl
  | vshuf => exact leavesMemory_of_vlanes fun s => by rw [exec_vshuf, execVshuf]
  | vslide => exact leavesMemory_of_vlanes fun s => by rw [exec_vslide, execVslide]
  | vredsum | vredmax | vredmin => exact leavesMemory_of_vred fun s => by simp only [exec]; rfl
  | kand | kor | knot | kmov => exact leavesMemory_of_kop fun s => by simp only [exec]; rfl
  | testp | testpVector | finfo | segrd | landq => exact leavesMemory_of_alu fun s => by simp only [exec]; rfl
  | vbcast | vput | kset | tclr | mfmtq | empty =>
    exact ⟨_, _, fun s => by simp only [exec]; rfl, fun s u _ hm => by simp [hm]⟩
  | vcmp => exact ⟨_, _, fun s => by rw [exec_vcmp, execVcmp], fun s u _ hm => by simp [hm]⟩
  | vsel => exact ⟨_, _, fun s => by rw [exec_vsel, execVsel], fun s u _ hm => by simp [hm]⟩
  | vget | kget => exact ⟨_, _, fun s => by simp only [exec]; rfl, fun s u _ hm => by simp [State.wS_memory, hm]⟩
  | vcvt =>
    exact ⟨_, _, fun s => by rw [exec_vcvt, execVcvt], fun s u hu hm => by
      rw [State.finish_ok, setPc_memory, raise_memory _ (by rw [wVm_cur]; exact hu), wVm_memory, hm]⟩
  | rput | rputv => exact ⟨_, _, fun s => by simp only [exec]; rfl, fun s u _ hm => finish_rput_memory _ _ _ hm⟩
  | emptyv =>
    refine ⟨_, _, fun s => by rw [exec_emptyv, execEmptyv], fun s u _ hm => ?_⟩
    split <;> simp [State.delay, hm]
  | wtany =>
    refine ⟨_, _, fun s => by rw [exec_wtany, execWtany], fun s u _ hm => ?_⟩
    dsimp only
    split <;> simp [State.wS_memory, hm]
  | wtall =>
    refine ⟨_, _, fun s => by rw [exec_wtall, execWtall], fun s u _ hm => ?_⟩
    dsimp only
    split
    · simp
    · split <;> simp [hm]
  | tfirst =>
    refine ⟨_, _, fun s => by rw [exec_tfirst, execTfirst], fun s u _ hm => ?_⟩
    split <;> simp [State.wS_memory, hm]
  | tstat =>
    refine ⟨_, _, fun s => by rw [exec_tstat, execTstat], fun s u _ hm => ?_⟩
    dsimp only
    split <;> simp [State.wS_memory, hm]
  | fence =>
    refine ⟨_, _, fun s => by rw [exec_fence, execFence], fun s u _ hm => ?_⟩
    split
    · simp [hm]
    · split
      · simp
      · split <;> simp [hm]
  | drain =>
    refine ⟨_, _, fun s => by rw [exec_drain, execDrain], fun s u _ hm => ?_⟩
    split <;> simp [hm]
  | wfm =>
    refine ⟨_, _, fun s => by rw [exec_wfm, execWfm], fun s u _ hm => ?_⟩
    split
    · simp [State.wS_memory, hm]
    · split <;> simp [State.wS_memory, State.finish, hm]
  | njoin =>
    refine ⟨_, _, fun s => by rw [exec_njoin, execNjoin], fun s u _ hm => ?_⟩
    split <;> simp [hm]
  | _ => cases h

/-- The frame of the silent instructions, for a thread that stands in a slot. -/
theorem silent_memory_of_slot {i : Instr} {s t : State} (h : silent i = true) (hslot : s.cur < imageBase) (he : exec i s = .next t) :
    t.memory = s.memory :=
  (exec_silent h).memory_eq hslot he

/-! ### A number that names an image -/

/-- A thread with -1.0 in the first lane of v2, whose square root is not valid (R235). -/
def rootOfMinusOne : Thread := { kind := .handler, regs := { v := [(2, 0xBF800000)] } }

/-- That thread issues under the number 131072, which is no slot's but the name of image 0. The image lies in the second block of
storey 0's save area; its page is mapped by the one entry at stack address 0, which stands for all three levels of the walk and
puts the page in the partition's host memory. -/
def vectorAtImage : State :=
  { State.reset with
    cur := imageBase
    threads := [(imageBase, rootOfMinusOne)]
    images := [(0, { slot := 3, thread := { kind := .handler }, block := 1, blocks := 1, saved := true })]
    memory := { stack := [(0, 55), (1, 2)] }
    pkg := { State.reset.pkg with parts := [(0, { smask := 1 })], keys := [(0, { a := true, part := 0, usable := true })] } }

/-- The byte of host memory at 4104, where the image's record stands, in the next state of an outcome. -/
def recordByte : Host.Outcome State Fault Refusal → Option Byte
  | .next t => some (t.memory.host.get 4104)
  | _ => none

/-- Refutes O59: the flag that VSQRT raises in `vectorAtImage` goes to the image which has the thread's number, and the image is
written to its save area again (R402). The statement asks nothing of the issuing number; for the number of a slot it holds
(`silent_memory_of_slot`). -/
theorem not_memoryFrame : ¬ Obligations.MemoryFrame := by
  unfold Obligations.MemoryFrame
  intro h
  have hbyte : recordByte (exec (.vsqrt 0 1 2 0) vectorAtImage) = some 255 := by decide +kernel
  cases he : exec (.vsqrt 0 1 2 0) vectorAtImage with
  | next t =>
    have hkept : recordByte (.next t) = some 0 := congrArg (fun m : Memory => some (m.host.get 4104)) (h _ _ t rfl he)
    exact absurd ((he ▸ hbyte).symm.trans hkept) (by decide)
  | _ =>
    rw [he] at hbyte
    cases hbyte

end Sys2Proof.Proofs
end

section
/-!
PROOFS. System registers: what a read gives and what a write does (R52, R130, R154-R158).
-/

namespace Sys2Proof.Proofs

open Sys2Proof Sys2Proof.Machine Sys2Proof.Cert

/-- An access to a system register that the thread may name, with its operands ready. -/
theorem sysAccess_ready {s : State} {i : Instr} {n : Nat} {ops : List Opnd} (body : State → Res)
    (hpriv : sysPriv n = false ∨ s.me.userMode = false) (h : Ready s ops) :
    s.sysAccess i n ops body = .next (s.finish (body (s.consumeAll ops))) := by
  obtain ⟨hthread, hb⟩ := h
  unfold State.sysAccess
  split
  case isTrue hp =>
    have hm : s.me.userMode = false := hpriv.resolve_left (by simp [hp])
    rw [State.performPriv_super i ops body hthread hm, State.perform_ready body hthread hb]
  case isFalse => exact State.perform_ready body hthread hb

theorem sysRead_ready {s : State} {d : BitVec 5} {n : Nat} (hpriv : sysPriv n = false ∨ s.me.userMode = false)
    (h : Ready s [.d d.toNat]) (hn : n ≠ 0x018) :
    s.sysRead d n = done s ((s.consumeAll [.d d.toNat]).wS d.toNat ((s.consumeAll [.d d.toNat]).readSys (s.consumeAll [.d d.toNat]).cur n)) := by
  rw [State.sysRead, sysAccess_ready _ hpriv h, if_neg hn]
  rfl

/-- A write of a register of the thread's own, as a change of the thread. -/
theorem writeSys_tscratch (s : State) (op : Nat) (v : Word) : s.writeSys 0x105 op v =
    s.modMe fun t => { t with sys := { t.sys with tscratch := applyOp op t.sys.tscratch v } } := rfl

theorem writeSys_tscratch_me {s : State} (h : (s.thr? s.cur).isSome = true) (op : Nat) (v : Word) :
    (s.writeSys 0x105 op v).me.sys.tscratch = applyOp op s.me.sys.tscratch v := by
  rw [writeSys_tscratch, State.modMe_me _ h]

theorem writeSys_astat (s : State) (v : Word) : s.writeSys 0x008 0 v =
    s.modMe fun t => { t with sys := { t.sys with astat := t.sys.astat &&& ~~~v } } := rfl

/-- The write of a core register waits to commit (R157). -/
theorem writeSys_mvt (s : State) (op : Nat) (v : Word) : s.writeSys 0x202 op v = s.queueCore s.myCore 0x202 op v := rfl

/-- Settles O26: a read or a write is one `sysAccess`, and `writeSys` of a number is one change of the thread or of its core's
waiting writes. -/
theorem systemRegisters : Obligations.SystemRegisters := by
  unfold Obligations.SystemRegisters
  refine ⟨fun s d n hpriv => ⟨fun h => ⟨fun hn => ?read, ?latch, rfl, rfl, rfl⟩, fun h => ⟨?write, ?set, ?clear⟩⟩, fun s v h => ?effects⟩
  case read =>
    have hnat : n.toNat ≠ 0x018 := fun e => hn (BitVec.eq_of_toNat_eq e)
    exact (exec_sysrd s).trans (sysRead_ready hpriv h hnat)
  case latch =>
    rw [exec_cycleLowRead, execCycleLowRead, State.sysRead, sysAccess_ready _ (.inl (by decide)) h]
    rfl
  case write => exact (exec_syswr s).trans (sysAccess_ready _ hpriv h)
  case set => exact (exec_sysset s).trans (sysAccess_ready _ hpriv h)
  case clear => exact (exec_sysclr s).trans (sysAccess_ready _ hpriv h)
  case effects =>
    refine ⟨writeSys_tscratch_me h 0 v, writeSys_tscratch_me h 1 v, writeSys_tscratch_me h 2 v, ?_, onlyMe_modMe s _, onlyMe_modMe s _,
      ?_, rfl⟩
    · rw [writeSys_astat, State.modMe_me _ h]
    · rw [writeSys_mvt, State.queueCore, State.modCore_core]

end Sys2Proof.Proofs
end

section
/-!
PROOFS. Segment registers: SEGLD and SEGRD (R161-R162, R166-R167).
-/

namespace Sys2Proof.Proofs

open Sys2Proof Sys2Proof.Machine Sys2Proof.Cert

/-! ### SEGLD (R161, R166) -/

theorem segLoad_valid {s : State} {sg i d : Nat} (hv : descValid d = true) (hs : descSup d = false ∨ s.me.userMode = false) :
    s.segLoad sg i d = .ok (s.modMe fun x => { x with segs := x.segs.put sg (descSeg d) }) := by
  rw [State.segLoad, if_neg]
  obtain hs | hs := hs <;> simp [hv, hs]

theorem segLoad_refused {s : State} {sg i d : Nat} (h : ¬(descValid d = true ∧ (descSup d = false ∨ s.me.userMode = false))) :
    s.segLoad sg i d = .trap 4 (BitVec.ofNat 64 i) := by
  rw [State.segLoad, if_pos]
  cases hv : descValid d
  · rfl
  · simpa [hv] using h

/-- Performed, the body of SEGLD: the index, the descriptor's own address, its bytes. -/
def segldBody (sg : BitVec 3) (a : BitVec 5) (t : State) : Res :=
  let i := (t.rS a.toNat).toNat
  let va : Addr := BitVec.ofNat 64 (t.me.sdtBase + 16 * i)
  if t.me.sdtLast < i then .trap 3 (BitVec.ofNat 64 i)
  else if !spaceZeros va.toNat then .trap 3 va
  else match t.recordFrom {} va 16 with
    | .stop r => r
    | .ok bs => t.segLoad sg.toNat i (leNat bs)

section Body

variable {sg : BitVec 3} {a : BitVec 5} {t : State} {bs : List Byte}

theorem segldBody_past_last (h : t.me.sdtLast < (t.rS a.toNat).toNat) :
    segldBody sg a t = .trap 3 (BitVec.ofNat 64 (t.rS a.toNat).toNat) := if_pos h

theorem segldBody_read (hi : (t.rS a.toNat).toNat ≤ t.me.sdtLast)
    (hz : spaceZeros (BitVec.ofNat 64 (t.me.sdtBase + 16 * (t.rS a.toNat).toNat)).toNat = true)
    (hr : t.recordFrom {} (BitVec.ofNat 64 (t.me.sdtBase + 16 * (t.rS a.toNat).toNat)) 16 = .ok bs) :
    segldBody sg a t = t.segLoad sg.toNat (t.rS a.toNat).toNat (leNat bs) := by
  unfold segldBody
  dsimp only
  rw [if_neg (Nat.not_lt.2 hi), if_neg (by simp only [hz, Bool.not_true, Bool.false_eq_true, not_false_eq_true]), hr]

end Body

/-- The code segment register is the supervisor's; the others may be loaded in either mode. -/
theorem segld_ready {s : State} {sg : BitVec 3} {a : BitVec 5} (h : Ready s [.s a.toNat]) (hm : sg ≠ 1 ∨ s.me.userMode = false) :
    exec (.segld sg a) s = .next (s.finish (segldBody sg a (s.consumeAll [.s a.toNat]))) := by
  obtain ⟨hthread, hb⟩ := h
  have hperf : s.perform [.s a.toNat] (segldBody sg a) = .next (s.finish (segldBody sg a (s.consumeAll [.s a.toNat]))) :=
    State.perform_ready _ hthread hb
  rw [← hperf]
  change (if sg = 1 then s.performPriv (.segld sg a) [.s a.toNat] (segldBody sg a) else s.perform [.s a.toNat] (segldBody sg a)) = _
  by_cases hsg : sg = 1
  · rw [if_pos hsg, State.performPriv_super _ _ _ hthread (hm.resolve_left (not_not.2 hsg))]
  · rw [if_neg hsg]

/-! ### SEGRD (R162, R167) -/

theorem seg_word_eq (g : Seg) (w : BitVec 3) : g.word w.toNat =
    if w = 0 then g.base.setWidth 32 else if w = 1 then (g.base >>> 32).setWidth 32 else if w = 2 then g.limit
    else BitVec.ofNat 32 (g.rights.toNat + g.scope.no * 65536) := by
  have hhigh : BitVec.ofNat 32 (g.base.toNat / 2 ^ 32) = (g.base >>> 32).setWidth 32 := by
    apply BitVec.eq_of_toNat_eq
    rw [BitVec.toNat_setWidth, BitVec.toNat_ushiftRight, Nat.shiftRight_eq_div_pow, BitVec.toNat_ofNat]
  unfold Seg.word
  split
  case h_1 hw => rw [if_pos (BitVec.eq_of_toNat_eq hw)]
  case h_2 hw =>
    obtain rfl : w = 1 := BitVec.eq_of_toNat_eq hw
    exact hhigh
  case h_3 hw =>
    obtain rfl : w = 2 := BitVec.eq_of_toNat_eq hw
    rfl
  case h_4 h0 h1 h2 =>
    rw [if_neg fun e => h0 (congrArg BitVec.toNat e), if_neg fun e => h1 (congrArg BitVec.toNat e),
      if_neg fun e => h2 (congrArg BitVec.toNat e)]

/-- Settles O29: SEGLD performs `segldBody`, whose ends are the cases of the statement; SEGRD is an `alu` form without sources. -/
theorem segmentRegisters : Obligations.SegmentRegisters := by
  unfold Obligations.SegmentRegisters
  refine fun s sg w d a bs => ⟨fun h hm => ⟨fun hlast => ?past, fun hi hz hr => ?read⟩, fun h => ?segrd⟩
  case past => rw [segld_ready h hm, segldBody_past_last hlast]; rfl
  case read =>
    rw [segld_ready h hm, segldBody_read hi hz hr]
    rw [← consumeAll_userMode s [.s a.toNat]]
    refine ⟨fun ⟨hv, hs⟩ => ?_, fun hu => ?_⟩
    · rw [segLoad_valid hv hs]; rfl
    · rw [segLoad_refused hu]; rfl
  case segrd =>
    rw [consumeAll_dest]
    exact alu_ready h (exec_segrd s) (seg_word_eq _ w)

end Sys2Proof.Proofs
end

section
/-!
PROOFS. MSG, RPUT and RPUTV, presence bits and WFM (R146-R149).
-/

namespace Sys2Proof.Proofs

open Sys2Proof Sys2Proof.Machine Sys2Proof.Cert

/-! ### MSG and RPUT (R146-R147) -/

theorem fieldOf_eq_extractLsb' {n : Nat} (w : BitVec n) (lo len : Nat) : fieldOf w lo len = (w.extractLsb' lo len).toNat := by
  rw [BitVec.extractLsb'_toNat, Nat.shiftRight_eq_div_pow]
  rfl

/-- The types that trap PRIV: the unit's own, and in user mode those below 64 (R146). -/
theorem msg_refused_iff (user : Bool) (type : Nat) :
    (type = 0x3E || type = 0x3F || (user && decide (type < 0x40))) = true ↔ ¬ (type ≠ 62 ∧ type ≠ 63 ∧ (user = true → 64 ≤ type)) := by
  cases user
  · simp only [Bool.false_and, Bool.or_false, Bool.or_eq_true, decide_eq_true_eq, Bool.false_eq_true, false_imp_iff,
      and_true]
    omega
  · simp only [Bool.true_and, Bool.or_eq_true, decide_eq_true_eq, true_imp_iff]
    omega

section Fills

variable {s : State} {sel : Word} {vec : Bool} {v : VWord}

theorem rput_other_partition (h : s.inMyPart (sel.extractLsb' 19 13).toNat = false) : s.rput sel vec v = .ok s := by
  rw [State.rput, fieldOf_eq_extractLsb', h]
  rfl

theorem rput_sends (h : s.inMyPart (sel.extractLsb' 19 13).toNat = true) (hroom : s.unackWait = none) : s.rput sel vec v =
    .ok ((s.addUnack s.cur).send .request s.myCore (sel.extractLsb' 19 13).toNat
      (.fill (some s.cur) (sel.extractLsb' 19 13).toNat (sel.extractLsb' 8 4).toNat vec (sel.extractLsb' 2 5).toNat v
        (decide (sel.extractLsb' 0 2 = 0)))) := by
  have hlow : (fieldOf sel 0 2 == 0) = decide (sel.extractLsb' 0 2 = 0) := by
    rw [fieldOf_eq_extractLsb', beq_eq_decide]
    exact decide_eq_decide.2 (BitVec.toNat_inj (x := sel.extractLsb' 0 2) (y := 0))
  unfold State.rput
  dsimp only
  rw [hlow]
  simp only [fieldOf_eq_extractLsb', h, hroom]
  rfl

end Fills

/-! ### Presence bits (R148) -/

/-- Registers with a scalar register owned, empty and holding a value. -/
def clearS (r : Regs) (n : Nat) (v : Word) : Regs :=
  { r with s := r.s.put n v, sFull := setBit r.sFull n false, sOwn := setBit r.sOwn n true }

/-- Registers with a vector register owned, empty and holding a value. -/
def clearV (r : Regs) (n : Nat) (v : VWord) : Regs :=
  { r with v := r.v.put n v, vFull := setBit r.vFull n false, vOwn := setBit r.vOwn n true }

@[simp] theorem clearS_self (r : Regs) (n : Nat) (v : Word) : (clearS r n v).s.lookD n 0 = v := Tab.lookD_put_self _ _ _ _

theorem clearS_ne (r : Regs) {n m : Nat} (v : Word) (h : m ≠ n) : (clearS r n v).s.lookD m 0 = r.s.lookD m 0 :=
  Tab.lookD_put_ne _ _ _ h

theorem clearS_sOwn (r : Regs) {n : Nat} (m : Nat) (v : Word) (h : n < 32) :
    (clearS r n v).sOwn.getLsbD m = if m = n then true else r.sOwn.getLsbD m := setBit_getLsbD _ _ _ h

theorem clearS_sFull (r : Regs) {n : Nat} (m : Nat) (v : Word) (h : n < 32) :
    (clearS r n v).sFull.getLsbD m = if m = n then false else r.sFull.getLsbD m := setBit_getLsbD _ _ _ h

@[simp] theorem clearV_self (r : Regs) (n : Nat) (v : VWord) : (clearV r n v).v.lookD n 0 = v := Tab.lookD_put_self _ _ _ _

theorem clearV_vOwn_self (r : Regs) {n : Nat} (v : VWord) (h : n < 16) : (clearV r n v).vOwn.getLsbD n = true :=
  (setBit_getLsbD _ _ _ h).trans (if_pos rfl)

theorem clearV_vFull_self (r : Regs) {n : Nat} (v : VWord) (h : n < 16) : (clearV r n v).vFull.getLsbD n = false :=
  (setBit_getLsbD _ _ _ h).trans (if_pos rfl)

section Presence

variable {s : State} {n : Nat}

theorem emptyS_eq (hq : ¬ (n = 0 ∨ slotOf s.cur = 0 ∧ 28 ≤ n)) :
    s.emptyS n = s.modMe fun t => { t with regs := clearS t.regs n (s.rS n) } := by
  rw [State.emptyS, if_neg (by simpa using hq)]
  rfl

variable (h : (s.thr? s.cur).isSome = true)
include h

theorem emptyS_value (hn : n < 32) (hq : ¬ (n = 0 ∨ slotOf s.cur = 0 ∧ 28 ≤ n)) : (s.emptyS n).rS n = s.rS n := by
  have h0 : n ≠ 0 := fun e => hq (.inl e)
  rw [emptyS_eq hq, rS_modMe h rfl, clearS_sOwn _ _ _ hn, if_neg h0, if_pos rfl, if_pos rfl, clearS_self]

theorem emptyS_clears (hn : n < 32) (hq : ¬ (n = 0 ∨ slotOf s.cur = 0 ∧ 28 ≤ n)) : (s.emptyS n).sFullOf s.cur n = false := by
  rw [emptyS_eq hq, sFullOf_modMe h rfl hq, clearS_sOwn _ _ _ hn, clearS_sFull _ _ _ hn, if_pos rfl, if_pos rfl, if_pos rfl]

theorem emptyS_others {m : Nat} (hn : n < 32) (hq : ¬ (n = 0 ∨ slotOf s.cur = 0 ∧ 28 ≤ n)) (hm : m ≠ n) :
    (s.emptyS n).sFullOf s.cur m = s.sFullOf s.cur m ∧ (s.emptyS n).rS m = s.rS m := by
  rw [emptyS_eq hq]
  constructor
  · by_cases hmq : m = 0 ∨ slotOf s.cur = 0 ∧ 28 ≤ m
    · exact sFullOf_modMe_queue s _ hmq
    · rw [sFullOf_modMe h rfl hmq, clearS_sOwn _ _ _ hn, clearS_sFull _ _ _ hn, if_neg hm, if_neg hm, sFullOf_plain s hmq]
  · rw [rS_modMe h rfl, clearS_sOwn _ _ _ hn, clearS_ne _ _ hm, if_neg hm]
    rfl

/-- A vector register that is not owned is copied first, which delays the thread (R106). -/
theorem exec_emptyv_eq (vd : BitVec 4) : exec (.emptyv vd) s = done s (s.modMe fun t =>
    { t with regs := clearV t.regs vd.toNat (s.rV vd.toNat), fresh := t.fresh.del vd.toNat
             early := t.early + partialDelay (s.me.regs.vOwn.getLsbD vd.toNat) }) := by
  rw [exec_emptyv, execEmptyv, perform_nil _ h]
  cases s.me.regs.vOwn.getLsbD vd.toNat
  case true => rfl
  case false =>
    rw [if_neg Bool.false_ne_true, State.delay, State.modMe, State.emptyV, State.modThr_cur, State.modThr_modThr]
    rfl

end Presence

/-! ### WFM (R149) -/

section Wfm

variable {s : State} {d : BitVec 5} (h : Ready s [.d d.toNat])
include h

theorem wfm_present (ha : s.me.ans = none) (he : s.exposedEmpty = 0) : exec (.wfm d) s = done s (s.wS d.toNat s.exposed) := by
  obtain ⟨hthread, hb⟩ := h
  rw [exec_wfm, execWfm, State.perform_ready _ hthread hb, consumeAll_dest, ha, if_neg (by simp), if_pos he]
  rfl

theorem wfm_waits (ha : s.me.ans = none) (he : s.exposedEmpty ≠ 0) : exec (.wfm d) s = stays s s (.fillOf s.exposedEmpty) := by
  obtain ⟨hthread, hb⟩ := h
  rw [exec_wfm, execWfm, State.perform_ready _ hthread hb, consumeAll_dest, ha, if_neg (by simp), if_neg he]
  rfl

theorem wfm_filled {ws : List Word} (ha : s.me.ans = some ws) :
    exec (.wfm d) s = done s ((s.modMe fun x => { x with ans := none }).wS d.toNat s.exposed) := by
  obtain ⟨hthread, hb⟩ := h
  rw [exec_wfm, execWfm, State.perform_ready _ hthread hb, consumeAll_dest, ha, if_pos (by simp)]
  rfl

end Wfm

/-- Settles O30: each form's performed body has one branch for each case of the statement. -/
theorem messagesAndPresence : Obligations.MessagesAndPresence := by
  unfold Obligations.MessagesAndPresence
  refine ⟨fun s vd d a b => ⟨?msg, fun h => ?rput, fun h => ?rputv⟩, fun s d x vd h => ⟨?empty, rfl, fun h0 hq => ?cleared, ?emptyv, ?reads⟩⟩
  case msg =>
    rintro ⟨hthread, hb⟩
    rw [exec_msg, execMsg, State.perform_ready _ hthread hb, ← consumeAll_userMode s [.s d.toNat, .s a.toNat, .s b.toNat]]
    have htype (w : Word) : fieldOf w 0 8 = w.toNat % 256 := fieldOf_zero w 8
    have hcore (w : Word) : fieldOf w 8 13 = w.toNat / 256 % 8192 := rfl
    simp only [htype, hcore, msg_refused_iff]
    refine ⟨fun hn => ?_, fun hal hc => ?_, fun hal hc hroom => ?_⟩
    · rw [if_pos hn]; rfl
    · rw [if_neg (not_not.2 hal), hc]; rfl
    · rw [if_neg (not_not.2 hal), hc, hroom]; rfl
  case rput =>
    obtain ⟨hthread, hb⟩ := h
    rw [exec_rput, execRput, State.perform_ready _ hthread hb]
    exact ⟨fun hc => by rw [rput_other_partition hc]; rfl, fun hc hroom => by rw [rput_sends hc hroom]; rfl⟩
  case rputv =>
    obtain ⟨hthread, hb⟩ := h
    rw [exec_rputv, execRputv, State.perform_ready _ hthread hb]
    exact ⟨fun hc => by rw [rput_other_partition hc]; rfl, fun hc hroom => by rw [rput_sends hc hroom]; rfl⟩
  case empty => exact (exec_empty s).trans (perform_nil _ h)
  case cleared =>
    have hd0 : d.toNat ≠ 0 := fun e => h0 (BitVec.eq_of_toNat_eq e)
    have hplain : ¬ (d.toNat = 0 ∨ slotOf s.cur = 0 ∧ 28 ≤ d.toNat) := by omega
    exact ⟨emptyS_eq hplain ▸ onlyMe_modMe s _, emptyS_value h d.isLt hplain, emptyS_clears h d.isLt hplain,
      fun n _ hn => emptyS_others h d.isLt hplain hn⟩
  case emptyv =>
    refine ⟨_, exec_emptyv_eq h vd, onlyMe_modMe s _, ?_, ?_⟩
    · rw [rV_modMe h rfl, clearV_vOwn_self _ _ vd.isLt, if_pos rfl, clearV_self]
    · rw [vFullOf_modMe h rfl, clearV_vOwn_self _ _ vd.isLt, if_pos rfl, clearV_vFull_self _ _ vd.isLt]
  case reads =>
    exact fun hr => ⟨alu_ready hr (exec_testp s) rfl, alu_ready hr (exec_testpVector s) rfl, wfm_present hr, wfm_waits hr,
      fun ws => wfm_filled hr⟩

end Sys2Proof.Proofs
end

section
/-!
PROOFS. SPAWN and DEC (R150-R151).
-/

namespace Sys2Proof.Proofs

open Sys2Proof Sys2Proof.Machine Sys2Proof.Cert

/-! ### SPAWN (R150) -/

theorem spawn_admits {s t u : State} {a : BitVec 5} {bs : List Byte} (h : Ready s [.s a.toNat]) (ht : t = s.consumeAll [.s a.toNat])
    (hcheck : t.checkOffset 0 (t.rS a.toNat).toNat 256 1 64 [0, 1] = none) (hrel : t.relWait = none)
    (hroom : t.pkg.tasks.length < 4096) (hthr : t.pkg.thr ≠ 3) (hread : t.sendAll.recordAt (t.rS a.toNat).toNat 256 = .ok bs)
    (hadmit : t.sendAll.admitRecord t.myPart 0 false bs = .ok u) : exec (.spawn a) s = done s u := by
  obtain ⟨hthread, hb⟩ := h
  have hfree : ¬ ((decide (4096 ≤ t.pkg.tasks.length) || decide (t.pkg.thr = 3)) = true) := by simp [hroom, hthr]
  rw [exec_spawn, execSpawn, State.perform_ready _ hthread hb, ← ht]
  dsimp only [rgtR]
  rw [hcheck, hrel]
  dsimp only
  rw [if_neg hfree, hread]
  dsimp only
  rw [hadmit]
  rfl

/-! ### DEC of a counter (R151) -/

section Dec

variable {s t : State} {a b : BitVec 5}

/-- The selector's CORE field is its last. -/
theorem selector_core (sel : Word) : fieldOf sel 19 13 = sel.toNat / 524288 := by
  have hsel := sel.isLt
  simp only [fieldOf, fld]
  omega

theorem selector_reserved (sel : Word) : fieldOf sel 12 7 = sel.toNat / 4096 % 128 := rfl

theorem selector_align (sel : Word) : fieldOf sel 0 2 = sel.toNat % 4 := fieldOf_zero sel 2

variable (h : Ready s [.s a.toNat, .s b.toNat]) (ht : t = s.consumeAll [.s a.toNat, .s b.toNat])
include h ht

theorem dec_misaligned (hal : (t.rS a.toNat).toNat % 4 ≠ 0) :
    exec (.dec a b) s = traps s 5 ((t.rS a.toNat).setWidth 64) := by
  obtain ⟨hthread, hb⟩ := h
  rw [exec_dec, execDec, State.perform_ready _ hthread hb, ← ht]
  dsimp only
  rw [selector_align, if_pos hal]
  rfl

theorem dec_reserved (hal : (t.rS a.toNat).toNat % 4 = 0) (hres : (t.rS a.toNat).toNat / 4096 % 128 ≠ 0) :
    exec (.dec a b) s = traps s 3 ((t.rS a.toNat).setWidth 64) := by
  obtain ⟨hthread, hb⟩ := h
  rw [exec_dec, execDec, State.perform_ready _ hthread hb, ← ht]
  dsimp only
  rw [selector_align, if_neg (not_not.2 hal), selector_reserved, if_pos hres]
  rfl

theorem dec_performed (hal : (t.rS a.toNat).toNat % 4 = 0) (hres : (t.rS a.toNat).toNat / 4096 % 128 = 0)
    (hrel : t.relWait = none) : exec (.dec a b) s = done s
      (if (t.rS b.toNat).toNat % 65536 = 0 ∨ t.inMyPart ((t.rS a.toNat).toNat / 524288) = false then t.sendAll
       else (t.sendAll.addUnack t.cur).sendDec t.myCore (t.rS a.toNat) ((t.rS b.toNat).toNat % 65536) (some t.cur)) := by
  obtain ⟨hthread, hb⟩ := h
  have hn : fieldOf (t.rS b.toNat) 0 16 = (t.rS b.toNat).toNat % 65536 := fieldOf_zero _ 16
  rw [exec_dec, execDec, State.perform_ready _ hthread hb, ← ht]
  dsimp only
  rw [selector_align, if_neg (not_not.2 hal), selector_reserved, if_neg (not_not.2 hres), hrel, selector_core, hn]
  simp only [Bool.or_eq_true, decide_eq_true_eq, Bool.not_eq_true']
  split <;> rfl

end Dec

theorem sendDec_eq (s : State) (src : Nat) (sel : Word) (n : Nat) (by_ : Option Nat) : s.sendDec src sel n by_ =
    s.send .request src (sel.toNat / 524288) (.dec by_ (sel.toNat / 524288) (sel.toNat % 4096) n false) := by
  rw [State.sendDec, selector_core, fieldOf_zero]
  rfl

/-! ### DEC of an event word (R151) -/

@[simp] theorem sendAll_cur (s : State) : s.sendAll.cur = s.cur := by
  unfold State.sendAll State.flushWcb
  dsimp only
  split
  · rfl
  · exact foldl_keeps State.cur (fun _ _ => by simp [State.addUnack]) _ _

theorem sendAll_myCore (s : State) : s.sendAll.myCore = s.myCore := by rw [State.myCore, sendAll_cur, State.myCore]

section DecEvent

variable {s t : State} {seg : BitVec 3} {a b : BitVec 5} (h : Ready s [.s a.toNat, .s b.toNat])
  (ht : t = s.consumeAll [.s a.toNat, .s b.toNat]) (hrel : t.relWait = none)
include h ht hrel

theorem decEvent_own {o : Nat} (hown : OwnTcm t seg.toNat (t.rS a.toNat).toNat 4 11 4 [0, 1] o) : exec (.decEvent seg a b) s =
    done s ((t.markWritten t.cur o).sendAll.decEventAt t.myPart (.sram t.myCore o) ((t.rS b.toNat).toNat % 2 ^ 31)) := by
  obtain ⟨hthread, hb⟩ := h
  obtain ⟨hcheck, htarget, hmoving, hgranule⟩ := hown
  have hwrite : t.tcmWrite t.cur o = some (t, o, false) := by rw [State.tcmWrite, hgranule]
  rw [exec_decEvent, execDecEvent, State.perform_ready _ hthread hb, ← ht]
  dsimp only [rgtR, rgtW, rgtA]
  rw [hcheck, hrel, htarget]
  dsimp only
  rw [hmoving, if_neg Bool.false_ne_true, hwrite, hgranule, fieldOf_zero]
  rfl

theorem decEvent_other {c o : Nat} (hcheck : t.checkAccess seg.toNat (t.rS a.toNat).toNat 4 11 4 [0, 1] = none)
    (htarget : t.target (t.segAddr seg.toNat (t.rS a.toNat).toNat) = .core c o) : exec (.decEvent seg a b) s =
    done s ((t.sendAll.addUnack t.cur).send .request t.myCore c
      (.decEvent (some t.cur) (t.segAddr seg.toNat (t.rS a.toNat).toNat) (.sram c o) ((t.rS b.toNat).toNat % 2 ^ 31))) := by
  obtain ⟨hthread, hb⟩ := h
  rw [exec_decEvent, execDecEvent, State.perform_ready _ hthread hb, ← ht]
  dsimp only [rgtR, rgtW, rgtA]
  rw [hcheck, hrel, htarget]
  dsimp only
  rw [sendAll_cur, sendAll_myCore, fieldOf_zero]
  rfl

end DecEvent

/-- Settles O31: each form's performed body has one branch for each case of the statement. -/
theorem taskInstructions : Obligations.TaskInstructions := by
  unfold Obligations.TaskInstructions
  refine fun s u seg a b bs => ⟨fun h => spawn_admits h rfl, fun h => ⟨⟨dec_misaligned h rfl, dec_reserved h rfl,
    fun hal hres hrel => ⟨fun hn => ?none, fun hn hc => ?sends⟩⟩, fun o _ hown hrel => decEvent_own h rfl hrel hown,
    fun c o hcheck hrel => decEvent_other h rfl hrel hcheck⟩⟩
  case none => rw [dec_performed h rfl hal hres hrel, if_pos hn]
  case sends =>
    rw [dec_performed h rfl hal hres hrel, if_neg (not_or.2 ⟨hn, by simp [hc]⟩), sendDec_eq]

end Sys2Proof.Proofs
end

section
/-!
PROOFS. The tag instructions and how a tag counts (R203-R205, R207, R222, R229, R292).
-/

namespace Sys2Proof.Proofs

open Sys2Proof Sys2Proof.Machine Sys2Proof.Cert

/-! ### The lowest tag of a mask with a property -/

theorem tagWhere_eq_some_iff (t : Thread) (m : BitVec 64) (p : TagSt → Bool) (n : Nat) :
    t.tagWhere m p = some n ↔ FirstTag m (fun j => p (t.tagOf j) = true) n := by
  rw [Thread.tagWhere, leastBelow, List.find?_range_eq_some]
  simp only [Bool.and_eq_true, List.mem_range, Bool.not_eq_true', FirstTag, ← Bool.not_eq_true]
  tauto

theorem tagWhere_eq_none_iff (t : Thread) (m : BitVec 64) (p : TagSt → Bool) :
    t.tagWhere m p = none ↔ NoTag m fun j => p (t.tagOf j) = true := by
  simp [Thread.tagWhere, leastBelow, NoTag]

theorem someSet_eq_none_iff (t : Thread) (m : BitVec 64) :
    t.someSet m = none ↔ NoTag m fun j => (t.tagOf j).set = true := tagWhere_eq_none_iff t m TagSt.set

theorem someFlying_eq_none_iff (t : Thread) (m : BitVec 64) :
    t.someFlying m = none ↔ NoTag m fun j => (t.tagOf j).inflight ≠ 0 := by
  rw [Thread.someFlying, tagWhere_eq_none_iff]
  simp

/-! ### The scope of the acquire (R222, R292) -/

theorem setScope_pkg {t : Thread} {m : BitVec 64} (h : NoTag m fun j => (t.tagOf j).set = true ∧ (t.tagOf j).sys = true) :
    t.setScope m = .pkg := by
  have hno : (t.tagWhere m fun g => g.set && g.sys) = none := by simpa [tagWhere_eq_none_iff] using h
  rw [Thread.setScope, hno]
  rfl

theorem setScope_sys {t : Thread} {m : BitVec 64} (h : ¬ NoTag m fun j => (t.tagOf j).set = true ∧ (t.tagOf j).sys = true) :
    t.setScope m = .sys := by
  have hsome : (t.tagWhere m fun g => g.set && g.sys) ≠ none := by simpa [tagWhere_eq_none_iff] using h
  exact if_pos (Option.isSome_iff_ne_none.2 hsome)

theorem oneTag_getLsbD {n : Nat} (j : Nat) (h : n < 64) : (oneTag n).getLsbD j = decide (j = n) := by
  rw [oneTag, BitVec.getLsbD_ofNat, Nat.testBit_two_pow]
  by_cases e : n = j
  · subst e; simp [h]
  · simp [e, Ne.symm e]

/-- One SET tag is acquired at the scope of what it has delivered. -/
theorem setScope_oneTag {t : Thread} {n : Nat} (h : n < 64) (hs : (t.tagOf n).set = true) :
    t.setScope (oneTag n) = if (t.tagOf n).sys then .sys else .pkg := by
  cases hsys : (t.tagOf n).sys
  · refine setScope_pkg fun j _ ⟨hj, _, hsysj⟩ => ?_
    obtain rfl : j = n := by simpa [oneTag_getLsbD j h] using hj
    simp [hsys] at hsysj
  · exact setScope_sys fun hno => hno n h ⟨by simp [oneTag_getLsbD n h], hs, hsys⟩

/-! ### The tag instructions (R204-R205) -/

/-- What WTANY and TFIRST leave when tag `n` is the lowest that they find. -/
def tagFound (t : State) (d n : Nat) : State :=
  (t.wS d (BitVec.ofNat 32 n)).acquire t.myCore (if (t.me.tagOf n).sys then .sys else .pkg)

section Search

variable {s t : State} {d a : BitVec 5} (h : Ready s [.s a.toNat, .s (a.toNat + 1), .d d.toNat])
  (ht : t = s.consumeAll [.s a.toNat, .s (a.toNat + 1), .d d.toNat])
include h ht

theorem search_found {n : Nat} (hf : FirstTag (t.pairMask a.toNat) (fun j => (t.me.tagOf j).set = true) n) :
    exec (.wtany d a) s = done s (tagFound t d.toNat n) ∧ exec (.tfirst d a) s = done s (tagFound t d.toNat n) := by
  rw [tagFound]
  obtain ⟨hthread, hb⟩ := h
  have hset : t.me.someSet (t.pairMask a.toNat) = some n := (tagWhere_eq_some_iff _ _ _ n).2 hf
  have hscope : t.me.setScope (oneTag n) = if (t.me.tagOf n).sys then .sys else .pkg := setScope_oneTag hf.1 hf.2.2.1
  rw [exec_wtany, execWtany, exec_tfirst, execTfirst, State.perform_ready _ hthread hb, State.perform_ready _ hthread hb, ← ht]
  dsimp only
  rw [hset, ← hscope]
  exact ⟨rfl, rfl⟩

variable (hno : NoTag (t.pairMask a.toNat) fun j => (t.me.tagOf j).set = true)
include hno

theorem tfirst_none : exec (.tfirst d a) s = done s (t.wS d.toNat 64) := by
  obtain ⟨hthread, hb⟩ := h
  rw [exec_tfirst, execTfirst, State.perform_ready _ hthread hb, ← ht]
  rw [(someSet_eq_none_iff _ _).2 hno]
  rfl

theorem wtany_none (hfly : NoTag (t.pairMask a.toNat) fun j => (t.me.tagOf j).inflight ≠ 0) :
    exec (.wtany d a) s = done s (t.wS d.toNat 64) := by
  obtain ⟨hthread, hb⟩ := h
  rw [exec_wtany, execWtany, State.perform_ready _ hthread hb, ← ht]
  dsimp only
  rw [(someSet_eq_none_iff _ _).2 hno, (someFlying_eq_none_iff _ _).2 hfly]
  rfl

theorem wtany_waits (hfly : ¬ NoTag (t.pairMask a.toNat) fun j => (t.me.tagOf j).inflight ≠ 0) :
    exec (.wtany d a) s = .next (s.park (.tagSet (t.pairMask a.toNat))) := by
  obtain ⟨hthread, hb⟩ := h
  obtain ⟨j, hj⟩ := Option.ne_none_iff_exists'.1 (mt (someFlying_eq_none_iff t.me (t.pairMask a.toNat)).1 hfly)
  rw [exec_wtany, execWtany, State.perform_ready _ hthread hb, ← ht]
  dsimp only
  rw [(someSet_eq_none_iff _ _).2 hno, hj]
  rfl

end Search

section All

variable {s t : State} {a : BitVec 5} (h : Ready s [.s a.toNat, .s (a.toNat + 1)])
  (ht : t = s.consumeAll [.s a.toNat, .s (a.toNat + 1)])
include h ht

theorem wtall_waits (hfly : ¬ NoTag (t.pairMask a.toNat) fun j => (t.me.tagOf j).inflight ≠ 0) :
    exec (.wtall a) s = .next (s.park (.tagIdle (t.pairMask a.toNat))) := by
  obtain ⟨hthread, hb⟩ := h
  obtain ⟨j, hj⟩ := Option.ne_none_iff_exists'.1 (mt (someFlying_eq_none_iff t.me (t.pairMask a.toNat)).1 hfly)
  rw [exec_wtall, execWtall, State.perform_ready _ hthread hb, ← ht]
  dsimp only
  rw [hj]
  rfl

theorem wtall_idle (hfly : NoTag (t.pairMask a.toNat) fun j => (t.me.tagOf j).inflight ≠ 0) : exec (.wtall a) s =
    done s (if (t.me.someSet (t.pairMask a.toNat)).isSome then t.acquire t.myCore (t.me.setScope (t.pairMask a.toNat)) else t) := by
  obtain ⟨hthread, hb⟩ := h
  rw [exec_wtall, execWtall, State.perform_ready _ hthread hb, ← ht]
  dsimp only
  rw [(someFlying_eq_none_iff _ _).2 hfly]
  rfl

theorem wtall_unset (hfly : NoTag (t.pairMask a.toNat) fun j => (t.me.tagOf j).inflight ≠ 0)
    (hno : NoTag (t.pairMask a.toNat) fun j => (t.me.tagOf j).set = true) : exec (.wtall a) s = done s t := by
  rw [wtall_idle h ht hfly, (someSet_eq_none_iff _ _).2 hno]
  rfl

theorem wtall_set (hfly : NoTag (t.pairMask a.toNat) fun j => (t.me.tagOf j).inflight ≠ 0)
    (hset : ¬ NoTag (t.pairMask a.toNat) fun j => (t.me.tagOf j).set = true) :
    exec (.wtall a) s = done s (t.acquire t.myCore (t.me.setScope (t.pairMask a.toNat))) := by
  rw [wtall_idle h ht hfly, if_pos (Option.isSome_iff_ne_none.2 (mt (someSet_eq_none_iff _ _).1 hset))]

theorem tclr_clears : exec (.tclr a) s = done s (t.modMe fun x => x.clearTags (t.pairMask a.toNat)) := by
  obtain ⟨hthread, hb⟩ := h
  rw [exec_tclr, execTclr, State.perform_ready _ hthread hb, ← ht]
  rfl

end All

theorem tstat_reads {s t : State} {d a : BitVec 5} (h : Ready s [.s a.toNat, .d d.toNat])
    (ht : t = s.consumeAll [.s a.toNat, .d d.toNat]) {g : TagSt} (hg : g = t.me.tagOf ((t.rS a.toNat).extractLsb' 0 6).toNat)
    {u : State} (hu : u = t.wS d.toNat (if (t.rS a.toNat).getLsbD 6 then g.recorded else g.status)) : exec (.tstat d a) s =
    done s (if g.set then u.acquire t.myCore (if g.sys then .sys else .pkg) else u) := by
  obtain ⟨hthread, hb⟩ := h
  rw [exec_tstat, execTstat, State.perform_ready _ hthread hb, ← ht]
  dsimp only
  rw [fieldOf_eq_extractLsb', ← hg, ← hu]
  rfl

/-- Settles O19: a search of the tags finds the lowest one with its property, or none has it. -/
theorem tagInstructions : Obligations.TagInstructions := by
  unfold Obligations.TagInstructions
  refine fun s d a n => ⟨fun h => ?search, fun h => ?all, fun h => tstat_reads h rfl rfl rfl⟩
  case search =>
    exact ⟨search_found h rfl, fun hno => ⟨tfirst_none h rfl hno, wtany_none h rfl hno, wtany_waits h rfl hno⟩⟩
  case all =>
    refine ⟨wtall_unset h rfl, fun hfly hset => ?_, wtall_waits h rfl, tclr_clears h rfl⟩
    rw [wtall_set h rfl hfly hset]
    exact ⟨fun hpkg => congrArg (fun sc => done s (State.acquire _ _ sc)) (setScope_pkg hpkg),
      fun hsys => congrArg (fun sc => done s (State.acquire _ _ sc)) (setScope_sys hsys)⟩

/-! ### How a tag counts (R203, R205) -/

/-- The first operation in flight starts the tag afresh. -/
theorem issue_idle {g : TagSt} (h : g.inflight = 0) : g.issue = { inflight := 1 } := if_pos h

theorem issue_busy {g : TagSt} (h : g.inflight ≠ 0) : g.issue = { g with inflight := g.inflight + 1 } := if_neg h

@[simp] theorem issue_inflight (g : TagSt) : g.issue.inflight = g.inflight + 1 := by
  by_cases h : g.inflight = 0
  · rw [issue_idle h, h]
  · rw [issue_busy h]

@[simp] theorem done_inflight (g : TagSt) (err : Bool) (c : Nat) : (g.done err c).inflight = g.inflight - 1 := rfl

theorem done_set_iff (g : TagSt) (err : Bool) (c : Nat) : (g.done err c).set = true ↔ g.inflight ≤ 1 := by
  simp only [TagSt.done, beq_iff_eq]
  omega

theorem done_err (g : TagSt) (err : Bool) (c : Nat) : (g.done err c).err = (g.err || err) := by
  cases err <;> cases h : g.err <;> simp [TagSt.done, h]

/-- The cause of the first failure stays. -/
theorem done_cause_failed {g : TagSt} (err : Bool) (c : Nat) (h : g.err = true) : (g.done err c).cause = g.cause := by
  simp [TagSt.done, h]

theorem done_cause_first {g : TagSt} (c : Nat) (h : g.err = false) : (g.done true c).cause = c := by
  simp [TagSt.done, h]

/-- What the issue of an engine operation does (R203, R207): it counts on its tag and in the core's queue, and one act is
pending. -/
theorem engineIssue_counts {t : State} (tag : Nat) (k : ActKind) (h : (t.thr? t.cur).isSome = true) (hslot : t.cur < imageBase) :
    (t.engineIssue tag k).me = { t.me with tags := t.me.tags.put tag (t.me.tagOf tag).issue }
    ∧ ((t.engineIssue tag k).core t.myCore).copies = (t.core t.myCore).copies + 1
    ∧ (t.engineIssue tag k).acts.look t.nextAct = some { flows := [], kind := k }
    ∧ (t.engineIssue tag k).memory = t.memory
    ∧ ∀ id, id ≠ t.cur → (t.engineIssue tag k).thr? id = t.thr? id := by
  have hissue : t.tagIssue t.cur tag = t.modMe fun x => { x with tags := x.tags.put tag (x.tagOf tag).issue } := by
    rw [State.tagIssue, State.modTag, modAny_slot t _ hslot, State.modMe]
  rw [State.engineIssue, hissue]
  refine ⟨State.modMe_me _ h, ?_, ?_, ?_, fun id hid => State.modThr_thr?_ne t _ hid⟩
  · have hcore := core_congr (State.modMe_cores t fun x => { x with tags := x.tags.put tag (x.tagOf tag).issue }) t.myCore
    rw [State.postFree, core_congr (State.post_cores _ _ _), State.modCore_core, hcore]
  · simp [State.postFree, State.post]
  · simp [State.postFree]

/-- Settles O20: a tag counts one more at issue and one less at completion; the issue of an engine operation is one change of the
thread's tags, one of its core's queue, and one act. -/
theorem tagCounting : Obligations.TagCounting := by
  unfold Obligations.TagCounting
  refine ⟨fun g err c => ⟨issue_inflight g, issue_idle, issue_busy, done_inflight g err c, done_set_iff g err c,
    done_err g err c,
    done_cause_failed err c, done_cause_first c, rfl, fun h => ?once⟩, fun t tag k h hslot => ?engine⟩
  case once =>
    rw [issue_idle h]
    exact ⟨rfl, rfl⟩
  case engine =>
    obtain ⟨hme, hcopies, hact, hmemory, hother⟩ := engineIssue_counts tag k h hslot
    refine ⟨?_, fun n hn => ?_, hcopies, hact, hmemory, hother, ?_, ?_⟩
    · rw [hme, Thread.tagOf, Tab.lookD_put_self, issue_inflight]
    · rw [hme]
      exact Tab.lookD_put_ne _ _ _ hn
    · rw [hme]
    · rw [hme]

end Sys2Proof.Proofs
end

section
/-!
PROOFS. Copies: what a control word plans, and the issue of a planned copy (R206-R209).
-/

namespace Sys2Proof.Proofs

open Sys2Proof Sys2Proof.Machine Sys2Proof.Cert

/-! ### Plans and their issue -/

theorem planCopy_copies {t : State} {ctl : Word} {a b : Nat} (hint : Nat)
    (hd : t.footprint (fieldOf ctl 8 3) a (fieldOf ctl 16 16 * 64) rgtW = none)
    (hs : t.footprint (fieldOf ctl 12 3) b (fieldOf ctl 16 16 * 64) rgtR = none) : t.planCopy ctl hint a b none =
    .ok ⟨t.cur, fieldOf ctl 0 6, hint, none,
      [(t.segAddr (fieldOf ctl 8 3) a, t.segAddr (fieldOf ctl 12 3) b, fieldOf ctl 16 16)]⟩ := by
  rw [State.planCopy]
  rw [hd, hs]

/-- A fill reads no source. -/
theorem planCopy_fills {t : State} {ctl : Word} {a : Nat} (hint b : Nat) (w : Word)
    (hd : t.footprint (fieldOf ctl 8 3) a (fieldOf ctl 16 16 * 64) rgtW = none) : t.planCopy ctl hint a b (some w) =
    .ok ⟨t.cur, fieldOf ctl 0 6, hint, some w, [(t.segAddr (fieldOf ctl 8 3) a, 0, fieldOf ctl 16 16)]⟩ := by
  rw [State.planCopy]
  dsimp only
  rw [hd]

theorem issueCopy_planned {t : State} {op : CopyOp} (h : t.issueWait op.tag = none) (after : State → State) :
    t.issueCopy (.ok op) after = .ok (after (t.sendAll.copyIssue op)) := by
  rw [State.issueCopy, h]

/-- The copy that CPYG performs when its count word holds `n`: at most the bound's rows. -/
def boundedCopy (t : State) (ctl : Word) (hint a : Nat) (bs : List Byte) (n : Word) : CopyOp :=
  ⟨t.cur, fieldOf ctl 0 6, hint, none, [(t.segAddr (fieldOf ctl 8 3) a, t.segAddr (fieldOf ctl 12 3) (wordAt bs 0),
    min n.toNat (wordAt bs 16) * wordAt bs 4 / 64)]⟩

/-- A tag once a copy with a bound has read its count: it keeps the greatest. -/
def countedTag (bound : Nat) (n : Word) (g : TagSt) : TagSt :=
  { g with
    shape := g.shape || decide (bound < n.toNat)
    recorded := if g.recorded.toNat < n.toNat then n else g.recorded }

/-! ### The copy instructions -/

section Instructions

variable {s t : State} {hint : BitVec 3} {d a b : BitVec 5} {bs : List Byte} {op : CopyOp}
  (h : Ready s [.s d.toNat, .s a.toNat, .s b.toNat]) (ht : t = s.consumeAll [.s d.toNat, .s a.toNat, .s b.toNat])
include h ht

theorem cpy_issues (hplan : t.planCopy (t.rS d.toNat) hint.toNat (t.rS a.toNat).toNat (t.rS b.toNat).toNat none = .ok op)
    (hroom : t.issueWait op.tag = none) : exec (.cpy hint d a b) s = done s (t.sendAll.copyIssue op) := by
  rw [exec_cpy, execCpy, State.perform_ready _ h.1 h.2, ← ht, hplan, issueCopy_planned hroom]
  rfl

theorem cpyf_issues (hplan : t.planCopy (t.rS d.toNat) hint.toNat (t.rS a.toNat).toNat 0 (some (t.rS b.toNat)) = .ok op)
    (hroom : t.issueWait op.tag = none) : exec (.cpyf hint d a b) s = done s (t.sendAll.copyIssue op) := by
  rw [exec_cpyf, execCpyf, State.perform_ready _ h.1 h.2, ← ht, hplan, issueCopy_planned hroom]
  rfl

variable (hread : t.readRecord (t.rS b.toNat).toNat 32 = .ok bs)
include hread

theorem cpys_issues
    (hplan : t.planStride (t.rS d.toNat) hint.toNat (t.rS a.toNat).toNat (t.rS b.toNat).toNat bs = .ok op)
    (hroom : t.issueWait op.tag = none) : exec (.cpys hint d a b) s = done s (t.sendAll.copyIssue op) := by
  rw [exec_cpys, execCpys, State.perform_ready _ h.1 h.2, ← ht, hread]
  dsimp only
  rw [hplan, issueCopy_planned hroom]
  rfl

/-- CPYG once its shape record and its footprints have passed their checks and its count is read: it traps above the bound
where the record asks for that, and else copies at most the bound's rows. -/
theorem cpyg_counted {n : Word} (hrow : wordAt bs 4 % 64 = 0) (hz : spaceZeros (BitVec.ofNat 64 (dwordAt bs 8)).toNat = true)
    (hspace : spaceOf (BitVec.ofNat 64 (dwordAt bs 8)) < 2) (hal : (BitVec.ofNat 64 (dwordAt bs 8)).toNat % 4 = 0)
    (hd : t.footprint (fieldOf (t.rS d.toNat) 8 3) (t.rS a.toNat).toNat (wordAt bs 16 * wordAt bs 4) rgtW = none)
    (hs : t.footprint (fieldOf (t.rS d.toNat) 12 3) (wordAt bs 0) (wordAt bs 16 * wordAt bs 4) rgtR = none)
    (hcount : t.readCount (BitVec.ofNat 64 (dwordAt bs 8)) = .ok n) : exec (.cpyg hint d a b) s = .next (s.finish
      (if wordAt bs 16 < n.toNat ∧ wordAt bs 20 % 2 = 1 then .trap 14 (n.zeroExtend 64)
       else t.issueCopy (.ok (boundedCopy t (t.rS d.toNat) hint.toNat (t.rS a.toNat).toNat bs n)) fun u =>
        u.modTag t.cur (fieldOf (t.rS d.toNat) 0 6) (countedTag (wordAt bs 16) n))) := by
  rw [exec_cpyg, execCpyg, State.perform_ready _ h.1 h.2, ← ht, hread]
  dsimp only
  rw [if_neg (not_not.2 hrow), hz, if_neg (by decide), if_neg (Nat.not_le.2 hspace), if_neg (not_not.2 hal), hd, hs, hcount]
  dsimp only
  simp only [Bool.and_eq_true, decide_eq_true_eq]
  rfl

end Instructions

/-- Settles O21: each copy plans its rows from its operands, and a planned copy for which there is room is issued. -/
theorem copyIssue : Obligations.CopyIssue := by
  unfold Obligations.CopyIssue
  simp only [← fieldOf_eq_extractLsb']
  refine fun s hint d a b bs op n h => ⟨fun hroom hd => ⟨fun hs => ?cpy, ?cpyf⟩, fun hread hplan hroom => ?cpys,
    fun hread hrow hz hspace hal hd hs hcount => ⟨fun hn hasks => ?above, fun hn hroom => ?within⟩⟩
  case cpy => exact cpy_issues h rfl (planCopy_copies _ hd hs) hroom
  case cpyf => exact cpyf_issues h rfl (planCopy_fills _ _ _ hd) hroom
  case cpys => exact cpys_issues h rfl hread hplan hroom
  case above =>
    rw [cpyg_counted h rfl hread hrow hz hspace hal hd hs hcount, if_pos ⟨hn, hasks⟩]
    rfl
  case within =>
    rw [cpyg_counted h rfl hread hrow hz hspace hal hd hs hcount, if_neg (by omega),
      issueCopy_planned (op := boundedCopy _ _ _ _ bs n) hroom]
    rfl

end Sys2Proof.Proofs
end

section
/-!
PROOFS. Counted waits, triggers and operations near memory (R210-R213).
-/

namespace Sys2Proof.Proofs

open Sys2Proof Sys2Proof.Machine Sys2Proof.Cert

/-! ### Counted waits (R210) -/

section Waits

variable {s t u : State} {seg : BitVec 3} {d a b : BitVec 5} {l : Loc} (h : Ready s [.s a.toNat, .s b.toNat, .d d.toNat])
  (ht : t = s.consumeAll [.s a.toNat, .s b.toNat, .d d.toNat])
include h ht

/-- A WAITC that its watch has answered writes the value that the watch brings. -/
theorem waitc_answered {w : Word} {ws : List Word} (ha : t.me.ans = some (w :: ws)) : exec (.waitc d seg a b) s =
    done s (((t.modMe fun x => { x with ans := none }).wS d.toNat w).acquire t.myCore (t.seg seg.toNat).scope) := by
  have hcore : (t.modMe fun x => { x with ans := none }).myCore = t.myCore := congrArg coreOf (State.modMe_cur t _)
  rw [exec_waitc, execWaitc, State.perform_ready _ h.1 h.2, ← ht, ha]
  dsimp only
  rw [hcore]
  rfl

variable (ha : t.me.ans = none) (hp : t.counterPlace seg.toNat (t.rS a.toNat).toNat = .ok (u, l))
include ha hp

theorem waitc_reached (hr : (t.rS b.toNat).toNat ≤ (u.counterOwn l).toNat ∨ t.dryWord t.myPart l = true) :
    exec (.waitc d seg a b) s = done s ((u.wS d.toNat (u.counterOwn l)).acquire u.myCore (t.seg seg.toNat).scope) := by
  rw [exec_waitc, execWaitc, State.perform_ready _ h.1 h.2, ← ht, ha]
  dsimp only
  rw [hp]
  dsimp only
  rw [if_pos (by simpa using hr)]
  rfl

theorem waitc_watches (hb : (u.counterOwn l).toNat < (t.rS b.toNat).toNat) (hdry : t.dryWord t.myPart l = false)
    (hroom : u.watchFull l = false) : exec (.waitc d seg a b) s =
    stays s (u.postFree (.watch u.cur l (t.rS b.toNat) (t.seg seg.toNat).scope none)) .counter := by
  rw [exec_waitc, execWaitc, State.perform_ready _ h.1 h.2, ← ht, ha]
  dsimp only
  rw [hp]
  dsimp only
  rw [hdry, Bool.or_false, if_neg (by simpa using hb), hroom, if_neg Bool.false_ne_true]
  rfl

end Waits

/-! ### Triggers (R211-R212) -/

/-- The value that fires a trigger as it is armed. -/
def metAtOnce (u : State) (l : Loc) (thr : Word) : Option Word :=
  if thr.toNat ≤ (u.counterOwn l).toNat then some (u.counterOwn l) else none

/-- A thread's trigger armed in `w` for the counter that `u` reads. -/
def armed (u w : State) (l : Loc) (thr : Word) (f : Fire) : State :=
  (w.postFree (.trigger u.cur l thr f (metAtOnce u l thr))).modMe fun x => { x with armed := x.armed + 1 }

/-- A trigger that is met as it is armed needs no watch. -/
theorem watch_has_room {u : State} {l : Loc} {thr : Word} (h : thr.toNat ≤ (u.counterOwn l).toNat ∨ u.watchFull l = false) :
    ¬ (((metAtOnce u l thr).isNone && u.watchFull l) = true) := by
  rw [metAtOnce, Bool.and_eq_true]
  rintro ⟨hnone, hfull⟩
  rcases h with hr | hr
  · rw [if_pos hr] at hnone
    exact Bool.false_ne_true hnone
  · exact Bool.false_ne_true (hr.symm.trans hfull)

section Triggers

variable {s t u : State} {seg : BitVec 3} {d a b : BitVec 5} {l : Loc} {bs : List Byte} {op : CopyOp}
  (h : Ready s [.s d.toNat, .s a.toNat, .s b.toNat]) (ht : t = s.consumeAll [.s d.toNat, .s a.toNat, .s b.toNat])
  (hp : t.counterPlace seg.toNat (t.rS a.toNat).toNat = .ok (u, l)) (hread : u.readRecord (t.rS d.toNat).toNat 32 = .ok bs)
  (hhint : wordAt bs 24 % 4 ≠ 3) (hrel : u.relWait = none) (harmed : u.me.armed < 16)
  (hroom : (t.rS b.toNat).toNat ≤ (u.counterOwn l).toNat ∨ u.watchFull l = false)
include h ht hp hread hhint hrel harmed hroom

theorem trig_dec (hkind : wordAt bs 0 = 2) : exec (.trig d seg a b) s = done s (armed u u.sendAll l (t.rS b.toNat)
    (.dec (BitVec.ofNat 32 (wordAt bs 8)) (BitVec.ofNat 32 (wordAt bs 4 % 65536)))) := by
  have hwatch := watch_has_room hroom
  rw [metAtOnce] at hwatch
  rw [exec_trig, execTrig, State.perform_ready _ h.1 h.2, ← ht]
  dsimp only
  rw [hp]
  dsimp only
  rw [hread]
  dsimp only
  rw [if_neg (by simp [hkind, hhint]), if_pos hkind]
  dsimp only
  rw [hrel]
  dsimp only
  rw [if_neg (Nat.not_le.2 harmed), if_neg Bool.false_ne_true, if_neg hwatch]
  rfl

theorem trig_copy (hkind : wordAt bs 0 < 2)
    (hplan : u.planCopy (BitVec.ofNat 32 (wordAt bs 4)) (wordAt bs 24 % 4) (dwordAt bs 8) (dwordAt bs 16)
      (if wordAt bs 0 = 1 then some (BitVec.ofNat 32 (wordAt bs 16)) else none) = .ok op)
    (htag : (u.me.tagOf op.tag).inflight < 255) :
    exec (.trig d seg a b) s = done s (armed u (u.sendAll.tagIssue u.cur op.tag) l (t.rS b.toNat) (.copy op)) := by
  have hwatch := watch_has_room hroom
  rw [metAtOnce] at hwatch
  rw [exec_trig, execTrig, State.perform_ready _ h.1 h.2, ← ht]
  dsimp only
  rw [hp]
  dsimp only
  rw [hread]
  dsimp only
  rw [if_neg (by simp [Nat.not_lt.2 (Nat.le_of_lt hkind), hhint]), if_neg (Nat.ne_of_lt hkind), hplan]
  dsimp only
  rw [hrel]
  dsimp only
  rw [if_neg (Nat.not_le.2 harmed), if_neg (by simpa using htag), if_neg hwatch]
  rfl

end Triggers

/-! ### Operations near memory (R213) -/

/-- The operation that an NCMP or NRED of a region describes by its record. -/
def nearOp (t : State) (seg off len : Nat) (bs : List Byte) (reduce : Bool) : NearOp :=
  { slot := t.cur, tag := fieldOf (BitVec.ofNat 32 (wordAt bs 0)) 0 6, reduce := reduce
    op := fieldOf (BitVec.ofNat 32 (wordAt bs 0)) 8 2, float := (BitVec.ofNat 32 (wordAt bs 0)).getLsbD 12
    region := fieldOf (t.segAddr seg off) 0 48, other := fieldOf (t.segAddr seg (dwordAt bs 8)) 0 48
    pattern := BitVec.ofNat 32 (wordAt bs 8), len := len, res := t.segAddr 0 (wordAt bs 4) }

theorem near_issues {s t : State} {seg : BitVec 3} {d a b : BitVec 5} {bs : List Byte} {reduce : Bool}
    (h : Ready s [.s d.toNat, .s a.toNat, .s b.toNat]) (ht : t = s.consumeAll [.s d.toNat, .s a.toNat, .s b.toNat])
    (hregion : t.regionCheck seg.toNat (t.rS a.toNat).toNat (t.rS b.toNat).toNat = none)
    (hoff : (t.rS a.toNat).toNat % 256 = 0) (hlen : (t.rS b.toNat).toNat % 256 = 0)
    (hread : t.readRecord (t.rS d.toNat).toNat 32 = .ok bs)
    (hop : fieldOf (BitVec.ofNat 32 (wordAt bs 0)) 8 2 ≠ 3)
    (hcmp : reduce = false → fieldOf (BitVec.ofNat 32 (wordAt bs 0)) 8 2 ≠ 2)
    (hres : t.checkOffset 0 (wordAt bs 4) 4 rgtW 4 [0, 1] = none)
    (hother : reduce = false → fieldOf (BitVec.ofNat 32 (wordAt bs 0)) 8 2 = 0 →
      t.regionCheck seg.toNat (dwordAt bs 8) (t.rS b.toNat).toNat = none)
    (hroom : t.issueWait (fieldOf (BitVec.ofNat 32 (wordAt bs 0)) 0 6) = none) : s.near reduce d seg a b =
    done s (t.sendAll.engineIssue (fieldOf (BitVec.ofNat 32 (wordAt bs 0)) 0 6)
      (.near (nearOp t seg.toNat (t.rS a.toNat).toNat (t.rS b.toNat).toNat bs reduce))) := by
  have hlegal : ¬ ((decide (fieldOf (BitVec.ofNat 32 (wordAt bs 0)) 8 2 = 3)
      || !reduce && decide (fieldOf (BitVec.ofNat 32 (wordAt bs 0)) 8 2 = 2)) = true) := by
    simpa [hop] using hcmp
  have hsecond : (if (!reduce && decide (fieldOf (BitVec.ofNat 32 (wordAt bs 0)) 8 2 = 0)) = true then
      t.regionCheck seg.toNat (dwordAt bs 8) (t.rS b.toNat).toNat else none) = none := by
    split
    case isTrue hc =>
      obtain ⟨hr, h0⟩ : reduce = false ∧ fieldOf (BitVec.ofNat 32 (wordAt bs 0)) 8 2 = 0 := by simpa using hc
      exact hother hr h0
    case isFalse => rfl
  rw [State.near, State.perform_ready _ h.1 h.2, ← ht]
  dsimp only
  rw [hregion]
  dsimp only
  rw [if_neg (by simp [hoff, hlen]), hread]
  dsimp only
  rw [if_neg hlegal, hres]
  dsimp only
  rw [hsecond]
  dsimp only
  rw [hroom]
  rfl

/-- Settles O22: each instruction's performed body has one branch for each case of the statement. -/
theorem countersNearMemory : Obligations.CountersNearMemory := by
  unfold Obligations.CountersNearMemory
  simp only [← fieldOf_eq_extractLsb']
  refine fun s seg d a b u l bs => ⟨fun h => ⟨fun w ws => waitc_answered h rfl, fun ha hp => ⟨waitc_reached h rfl ha hp,
    waitc_watches h rfl ha hp⟩⟩, fun h => ⟨fun hp hread hhint hrel harmed hroom =>
    ⟨trig_dec h rfl hp hread hhint hrel harmed hroom,
    fun op => trig_copy h rfl hp hread hhint hrel harmed hroom⟩,
    fun hregion hoff hlen hread hop hres hroom => ⟨fun hcmp hother => ?ncmp,
    ?nred⟩⟩⟩
  case ncmp =>
    exact (exec_ncmp s).trans (near_issues h rfl hregion hoff hlen hread hop (fun _ => hcmp) hres (fun _ => hother) hroom)
  case nred => exact (exec_nred s).trans (near_issues h rfl hregion hoff hlen hread hop nofun hres nofun hroom)

end Sys2Proof.Proofs
end

section
/-!
PROOFS. What sending the combined stores leaves (R170, R172), what readings of registers and of the template window rest on,
FENCE and DRAIN (R199-R200).
-/

namespace Sys2Proof.Proofs

open Sys2Proof Sys2Proof.Machine Sys2Proof.Cert

/-! ### What a reading rests on -/

/-- A register is read from the thread's own registers and from those of the forme that its kind names. -/
structure SameView (s u : State) : Prop where
  cur : u.cur = s.cur
  regs : u.me.regs = s.me.regs
  kind : u.me.kind = s.me.kind
  formes : (u.core s.myCore).formes = (s.core s.myCore).formes

section View

variable {s u : State} (h : SameView s u)
include h

theorem under_congr : u.under u.cur = s.under s.cur := by
  have hkind : (u.thr u.cur).kind = (s.thr s.cur).kind := h.kind
  have hformes : (u.core (coreOf u.cur)).formes = (s.core (coreOf s.cur)).formes := by rw [h.cur]; exact h.formes
  rw [State.under, State.under, State.formeOf, State.formeOf, hkind, hformes]

theorem rS_congr (m : Nat) : u.rS m = s.rS m := by
  have hregs : (u.thr u.cur).regs = (s.thr s.cur).regs := h.regs
  rw [State.rS, State.rS, State.sOf, State.sOf, hregs, under_congr h]

theorem rV_congr (m : Nat) : u.rV m = s.rV m := by
  have hregs : (u.thr u.cur).regs = (s.thr s.cur).regs := h.regs
  rw [State.rV, State.rV, State.vOf, State.vOf, hregs, under_congr h]

theorem rK_congr (m : Nat) : u.rK m = s.rK m := by
  have hregs : (u.thr u.cur).regs = (s.thr s.cur).regs := h.regs
  rw [State.rK, State.rK, State.kOf, State.kOf, hregs, under_congr h]

end View

theorem myCore_congr {s u : State} (h : u.cur = s.cur) : u.myCore = s.myCore := congrArg coreOf h

theorem target_congr {s u : State} (h : u.cur = s.cur) (a : Addr) : u.target a = s.target a := by
  rw [State.target, State.target, myCore_congr h]

theorem partOf_congr {s u : State} (h : u.pkg = s.pkg) (c : Nat) : u.partOf c = s.partOf c := by
  rw [State.partOf, State.partOf, State.partOfStorey, State.partOfStorey, h]

theorem myPart_congr {s u : State} (h : u.cur = s.cur) (hp : u.pkg = s.pkg) : u.myPart = s.myPart := by
  rw [State.myPart, State.myPart, myCore_congr h, partOf_congr hp]

theorem liveCounter_congr {s u : State} (h : u.pkg = s.pkg) (c o : Nat) : u.liveCounter c o = s.liveCounter c o := by
  rw [State.liveCounter, State.liveCounter, h]

theorem window_congr {s u : State} {id : Nat} (hk : (u.anyThr? id).map Thread.kind = (s.anyThr? id).map Thread.kind)
    (hp : u.pkg = s.pkg) : u.window id = s.window id := by
  have htask (n : Nat) : u.task? n = s.task? n := by rw [State.task?, State.task?, hp]
  rw [State.window, State.window, hk]
  simp only [htask]

theorem granuleAt_congr {s u : State} {id : Nat} (hk : (u.anyThr? id).map Thread.kind = (s.anyThr? id).map Thread.kind)
    (hp : u.pkg = s.pkg) (o : Nat) : u.granuleAt id o = s.granuleAt id o := by
  rw [State.granuleAt, State.granuleAt, window_congr hk hp]

theorem wordFull_congr {s u : State} (h : u.memory = s.memory) (c o : Nat) : u.wordFull c o = s.wordFull c o := by
  rw [State.wordFull, State.wordFull, h]

theorem syncQueues_congr {s u : State} (h : u.memory = s.memory) (c o : Nat) : u.syncQueues c o = s.syncQueues c o := by
  rw [State.syncQueues, State.syncQueues, h]

theorem tcmByte_congr {s u : State} (hc : u.cur = s.cur) (hm : u.memory.sram = s.memory.sram) (o : Nat) :
    tcmByte u o = tcmByte s o := by
  rw [tcmByte, tcmByte, myCore_congr hc, hm]

/-! ### Sending what the core combines (R170, R172) -/

/-- A reading of the state into which neither a write-combining buffer, nor an UNACK, nor a request on its way enters. -/
structure OffSending {γ : Type} (g : State → γ) : Prop where
  combined : ∀ s c (f : List WcEntry → List WcEntry), g (State.modCore s c fun x => { x with wcb := f x.wcb }) = g s
  counted : ∀ s id, g (State.addUnack s id) = g s
  posted : ∀ s fl k, g (State.post s fl k) = g s

theorem flushWcb_keeps {γ : Type} {g : State → γ} (hg : OffSending g) (s : State) (core : Nat) (p : WcEntry → Bool) :
    g (s.flushWcb core p) = g s := by
  unfold State.flushWcb
  dsimp only
  split
  · rfl
  · exact (foldl_keeps g (fun _ _ => (hg.posted _ _ _).trans (hg.counted _ _)) _ _).trans
      (hg.combined s core fun l => l.filter fun e => !p e)

theorem offSending_cur : OffSending State.cur := ⟨fun _ _ _ => rfl, fun _ _ => State.modThr_cur _ _ _, fun _ _ _ => rfl⟩

theorem offSending_pkg : OffSending State.pkg := ⟨fun _ _ _ => rfl, fun _ _ => State.modThr_pkg _ _ _, fun _ _ _ => rfl⟩

theorem offSending_images : OffSending State.images :=
  ⟨fun _ _ _ => rfl, fun _ _ => State.modThr_images _ _ _, fun _ _ _ => rfl⟩

/-- What a thread holds besides its UNACK. -/
theorem offSending_thr {γ : Type} {r : Thread → γ} (hr : ∀ x n, r { x with unack := n } = r x) (id : Nat) :
    OffSending fun s => (s.thr? id).map r := by
  refine ⟨fun _ _ _ => rfl, fun s j => ?_, fun _ _ _ => rfl⟩
  rw [State.addUnack]
  by_cases e : id = j
  · rw [e, State.modThr_thr?_self, Option.map_map]
    exact congrArg (Option.map · (s.thr? j)) (funext fun x => hr x _)
  · rw [State.modThr_thr?_ne s _ e]

/-- What a core holds besides its write-combining buffer. -/
theorem offSending_core {γ : Type} {r : Core → γ} (hr : ∀ x l, r { x with wcb := l } = r x) (c : Nat) :
    OffSending fun s => r (s.core c) := by
  refine ⟨fun s d f => ?_, fun s id => by rw [State.addUnack, core_congr (State.modThr_cores _ _ _)], fun _ _ _ => rfl⟩
  by_cases e : c = d
  · rw [e, State.modCore_core, hr]
  · rw [State.modCore_core_ne s _ e]

theorem flushWcb_me {γ : Type} {r : Thread → γ} (hr : ∀ x n, r { x with unack := n } = r x) (s : State) (core : Nat)
    (p : WcEntry → Bool) : r (s.flushWcb core p).me = r s.me := by
  have hthr := flushWcb_keeps (offSending_thr hr s.cur) s core p
  have hcur : (s.flushWcb core p).cur = s.cur := flushWcb_keeps offSending_cur s core p
  have read (u : State) (id : Nat) : r (u.thr id) = ((u.thr? id).map r).getD (r {}) := by
    rw [State.thr_eq]
    cases u.thr? id <;> rfl
  rw [State.me, hcur, State.me, read, read]
  exact congrArg (Option.getD · _) hthr

@[simp] theorem sendAll_pkg (s : State) : s.sendAll.pkg = s.pkg := flushWcb_keeps offSending_pkg _ _ _

theorem sendAll_me {γ : Type} {r : Thread → γ} (hr : ∀ x n, r { x with unack := n } = r x) (s : State) :
    r s.sendAll.me = r s.me := flushWcb_me hr s _ _

theorem sendAll_core {γ : Type} {r : Core → γ} (hr : ∀ x l, r { x with wcb := l } = r x) (s : State) (c : Nat) :
    r (s.sendAll.core c) = r (s.core c) := flushWcb_keeps (offSending_core hr c) s _ _

theorem sendAll_sameView (s : State) : SameView s s.sendAll where
  cur := sendAll_cur s
  regs := sendAll_me (r := Thread.regs) (fun _ _ => rfl) s
  kind := sendAll_me (r := Thread.kind) (fun _ _ => rfl) s
  formes := sendAll_core (r := Core.formes) (fun _ _ => rfl) s _

@[simp] theorem sendAll_pc (s : State) : s.sendAll.me.pc = s.me.pc := sendAll_me (r := Thread.pc) (fun _ _ => rfl) s

@[simp] theorem sendAll_movingBytes (s : State) (c o n : Nat) : (s.sendAll.core c).movingBytes o n = (s.core c).movingBytes o n :=
  sendAll_core (r := fun x => x.movingBytes o n) (fun _ _ => rfl) s c

theorem sendAll_kind (s : State) (id : Nat) : (s.sendAll.anyThr? id).map Thread.kind = (s.anyThr? id).map Thread.kind := by
  have himages : s.sendAll.images = s.images := flushWcb_keeps offSending_images _ _ _
  rw [State.anyThr?, State.anyThr?, himages]
  split
  · exact flushWcb_keeps (offSending_thr (r := Thread.kind) (fun _ _ => rfl) id) s _ _
  · rfl

theorem sendAll_granuleAt (s : State) (id o : Nat) : s.sendAll.granuleAt id o = s.granuleAt id o :=
  granuleAt_congr (sendAll_kind s id) (sendAll_pkg s) o

theorem sendAll_isSome (s : State) (id : Nat) : (s.sendAll.thr? id).isSome = (s.thr? id).isSome := by
  have h := flushWcb_keeps (offSending_thr (r := fun _ => ()) (fun _ _ => rfl) id) s s.myCore fun _ => true
  rw [State.sendAll]
  simpa using congrArg Option.isSome h

/-- Sending every entry leaves the buffer empty. -/
theorem sendAll_wcb (s : State) : (s.sendAll.core s.myCore).wcb = [] := by
  unfold State.sendAll State.flushWcb
  dsimp only
  split
  case isTrue h => simpa using h
  case isFalse =>
    refine (foldl_keeps (fun u => (State.core u s.myCore).wcb) (fun u e => ?_) _ _).trans ?_
    · rw [core_congr (State.post_cores _ _ _), State.addUnack, core_congr (State.modThr_cores _ _ _)]
    · rw [State.modCore_core]
      simp

/-! ### FENCE and DRAIN (R199-R200) -/

/-- A release waits for nothing but UNACK = 0. -/
theorem relWait_eq_unackZero {s : State} {w : Wait} (h : s.relWait = some w) : w = .unackZero := by
  unfold State.relWait at h
  split at h
  · cases h
  · exact (Option.some.inj h).symm

section Fences

variable {s : State} (h : (s.thr? s.cur).isSome = true)
include h

theorem fence_acquires (scope : BitVec 3) :
    exec (.fence 0 scope) s = done s (s.acquire s.myCore (Scope.ofCode scope.toNat)) := by
  rw [exec_fence, execFence, perform_nil _ h]
  rfl

/-- A fence that releases, and DRAIN, wait for the thread's own stores. -/
theorem release_waits {w : Wait} (hw : s.relWait = some w) {kind : BitVec 5} (hk : kind ≠ 0) (scope : BitVec 3) :
    exec (.fence kind scope) s = .next (s.park w) ∧ exec .drain s = .next (s.park w) := by
  rw [exec_fence, execFence, exec_drain, execDrain, perform_nil _ h, perform_nil _ h, if_neg hk, hw]
  exact ⟨rfl, rfl⟩

theorem release_sends (hw : s.relWait = none) {kind : BitVec 5} (hk : kind ≠ 0) (scope : BitVec 3) :
    exec (.fence kind scope) s =
      done s (if kind = 2 then s.sendAll.acquire s.myCore (Scope.ofCode scope.toNat) else s.sendAll)
    ∧ exec .drain s = done s s.sendAll := by
  rw [exec_fence, execFence, exec_drain, execDrain, perform_nil _ h, perform_nil _ h, if_neg hk, hw]
  exact ⟨rfl, rfl⟩

end Fences

/-- An acquire brings no line into the core's cache. -/
theorem acquire_cache_subset (s : State) (core : Nat) (sc : Scope) {l : CacheLine}
    (hl : l ∈ ((s.acquire core sc).core core).cache) : l ∈ (s.core core).cache := by
  by_cases e : sc = .core
  · rwa [State.acquire, if_pos e] at hl
  · rw [acquire_cache s core e] at hl
    exact List.mem_of_mem_filter hl

theorem ofCode_ne_core {scope : BitVec 3} (h : scope ≠ 0) : Scope.ofCode scope.toNat ≠ .core := by
  revert scope
  decide

/-- Settles O12: an acquire filters the cache; a release waits, or sends every entry of the write-combining buffer. -/
theorem fenceResults : Obligations.FenceResults := by
  unfold Obligations.FenceResults
  refine fun s scope h => ⟨fence_acquires h scope, fun hw => ?sends, fun w hw => ?waits, acquire_memory _ _ _,
    fun l => acquire_cache_subset s _ _, fun hscope l hl => ?dropped⟩
  case sends =>
    have hrel := release_sends h hw (kind := 1) (by decide) scope
    exact ⟨hrel.1, (release_sends h hw (kind := 2) (by decide) scope).1, hrel.2, sendAll_wcb s, sendAll_memory s⟩
  case waits =>
    have hrel := release_waits h hw (kind := 1) (by decide) scope
    exact ⟨relWait_eq_unackZero hw, hrel.1, (release_waits h hw (kind := 2) (by decide) scope).1, hrel.2⟩
  case dropped =>
    rw [acquire_cache s _ (ofCode_ne_core hscope)] at hl
    simpa using (List.mem_filter.1 hl).2

end Sys2Proof.Proofs
end

section
/-!
PROOFS. Loads of one piece: where they read, and what a scalar register receives (R190-R191, R364).
-/

namespace Sys2Proof.Proofs

open Sys2Proof Sys2Proof.Machine Sys2Proof.Cert

/-! ### One piece -/

/-- An access of `n` bytes that lies in one granule. -/
def onePiece (a : Addr) (n : Nat) (bs : List Byte) : Req := { a := a, n := n, start := a, size := n, bytes := bs }

@[simp] theorem onePiece_a (a : Addr) (n : Nat) (bs : List Byte) : (onePiece a n bs).a = a := rfl
@[simp] theorem onePiece_n (a : Addr) (n : Nat) (bs : List Byte) : (onePiece a n bs).n = n := rfl
@[simp] theorem onePiece_start (a : Addr) (n : Nat) (bs : List Byte) : (onePiece a n bs).start = a := rfl
@[simp] theorem onePiece_size (a : Addr) (n : Nat) (bs : List Byte) : (onePiece a n bs).size = n := rfl
@[simp] theorem onePiece_bytes (a : Addr) (n : Nat) (bs : List Byte) : (onePiece a n bs).bytes = bs := rfl

/-- The sizes of a scalar access. -/
def ScalarSize (n : Nat) : Prop := n = 1 ∨ n = 2 ∨ n = 4

theorem splitEvery_within {unit : Nat} {q : Req} (f : Nat) (h : q.n ≤ unit - q.a.toNat % unit) : splitEvery unit f q = [q] := by
  cases f with
  | zero => rfl
  | succ f =>
    rw [splitEvery]
    exact if_pos h

/-- An aligned scalar access does not cross a granule. -/
theorem scalar_within {a : Addr} {n : Nat} (hn : ScalarSize n) (h : a.toNat % n = 0) : n ≤ 256 - a.toNat % 256 := by
  rcases hn with rfl | rfl | rfl <;> omega

theorem loadReqs_scalar {a : Addr} {n : Nat} (hn : ScalarSize n) (h : a.toNat % n = 0) : loadReqs a n = [onePiece a n []] :=
  splitEvery_within 3 (scalar_within hn h)

theorem storeReqs_scalar {a : Addr} {n : Nat} {bs : List Byte} (hn : ScalarSize n) (h : a.toNat % n = 0) (hb : bs.length = n) :
    storeReqs a bs = [onePiece a n bs] := by
  subst hb
  exact splitEvery_within 3 (scalar_within hn h)

/-- An access that passes its checks is aligned. -/
theorem aligned_of_checkAccess {t : State} {seg n need align : Nat} {off : Int} {spaces : List Nat}
    (h : t.checkAccess seg off n need align spaces = none) : (t.segAddr seg off).toNat % align = 0 := by
  by_contra hal
  unfold State.checkAccess at h
  dsimp only at h
  rw [if_pos hal] at h
  split at h
  · cases h
  · split at h <;> cases h

/-- The flight port splits what touches a remap window, and nothing else. -/
theorem unitReqs_one {t : State} {q : Req} (h : ∀ va, t.target q.a = .global va →
    t.windowAt t.myPart va = none ∧ t.windowAt t.myPart (va + q.n - 1) = none) : t.unitReqs q = [q] := by
  unfold State.unitReqs
  split
  case h_1 va hva =>
    rw [(h va hva).1, (h va hva).2]
    rfl
  case h_2 => rfl

@[simp] theorem getMany_length (m : Mem) (a n : Nat) : (m.getMany a n).length = n := by simp [Mem.getMany]

@[simp] theorem sramRead_length (t : State) (c o n : Nat) : (t.sramRead c o n).length = n := getMany_length _ _ _

@[simp] theorem readLoc_length (t : State) (part : Nat) (l : Loc) (n : Nat) : (t.readLoc part l n).length = n := by
  cases l <;> simp [State.readLoc]

theorem overlay_length (l : Loc) (bs : List Byte) (p : Loc × List Byte) : (overlay l bs p).length = bs.length := by
  unfold overlay
  split
  · rfl
  · simp

/-- A thread's own stores change bytes of what it reads, not their number. -/
@[simp] theorem readOwn_length (t : State) (id part : Nat) (l : Loc) (n : Nat) : (t.readOwn id part l n).length = n :=
  (foldl_keeps List.length (fun bs p => overlay_length l bs p) _ _).trans (readLoc_length t part l n)

/-! ### Where a load of one piece reads -/

section Load

variable {t : State} {seg n : Nat} {a : Addr} {dest : LoadDest}

/-- A load of one piece from the own TCM is known at issue. -/
theorem loadInto_own {o : Nat} (ht : t.target a = .own o) (hm : (t.core t.myCore).movingBytes o n = false) :
    t.loadInto seg [onePiece a n []] a dest = .ok (t.deliver dest (t.sramRead t.myCore (t.tcmRead t.cur o) n)) := by
  have hone : ([onePiece a n []].flatMap t.unitReqs) = [onePiece a n []] := by
    rw [List.flatMap_singleton, unitReqs_one fun va hva => by rw [onePiece_a, ht] at hva; cases hva]
  rw [State.loadInto, hone, State.gather, onePiece_a, ht]
  simp [State.gather, gotBytes, State.readLoc, hm]

section Core

variable {c w : Nat} (ht : t.target a = .core c w)
include ht

theorem flatMap_unitReqs_core : ([onePiece a n []].flatMap t.unitReqs) = [onePiece a n []] := by
  rw [List.flatMap_singleton, unitReqs_one fun va hva => by rw [onePiece_a, ht] at hva; cases hva]

/-- From another core of the storey: known at issue, unless the core is fenced or the bytes are moving. -/
theorem loadInto_near (hs : storeyOf c = storeyOf t.myCore) : t.loadInto seg [onePiece a n []] a dest =
    if t.coreFenced c then .trap 7 a
    else if (t.core c).movingBytes w n then .park (.split c w n)
    else .ok (t.deliver dest (if (t.core c).guarded (addrOff a) n then List.replicate n 0
      else t.readOwn t.cur t.myPart (.sram c w) n)) := by
  have hnear : (!t.inMyStorey c) = false := by simp [State.inMyStorey, hs]
  rw [State.loadInto, flatMap_unitReqs_core ht, State.gather, onePiece_a, ht]
  simp only [onePiece_n, onePiece_start, onePiece_size, hnear, Bool.false_eq_true, if_false]
  by_cases hf : t.coreFenced c = true
  · simp only [hf, if_true]
  · by_cases hm : (t.core c).movingBytes w n = true
    · simp only [hf, hm, Bool.false_eq_true, if_false, if_true]
    · simp only [hf, hm, Bool.false_eq_true, if_false, State.gather, gotBytes]
      exact congrArg (fun bs => Res.ok (t.deliver dest bs)) (List.append_nil _)

/-- From further away: one request, which names the place. -/
theorem loadInto_far (hs : storeyOf c ≠ storeyOf t.myCore) : t.loadInto seg [onePiece a n []] a dest =
    .hold (t.post [(0, t.myCore, c)] (.load t.cur t.me.pc a (t.seg seg).hint.toNat
      [{ loc := .sram c w, n := n, foot := addrOff a, size := n, addr := a }] dest)) (.reply t.nextAct) := by
  have hfar : (!t.inMyStorey c) = true := by simp [State.inMyStorey, hs]
  rw [State.loadInto, flatMap_unitReqs_core ht, State.gather, onePiece_a, ht]
  simp [State.gather, State.sendLoad, State.unitOf, hfar]

end Core

section Global

variable {va : Nat} (ht : t.target a = .global va) (h0 : t.windowAt t.myPart va = none)
  (h1 : t.windowAt t.myPart (va + n - 1) = none)
include ht h0 h1

theorem loadInto_global : t.loadInto seg [onePiece a n []] a dest =
    match t.globalPiece (t.seg seg) va n .read with
    | .wait w => .park w
    | .hit u bs => .hold (u.postFree (.reply t.cur t.me.pc a dest bs false false none)) (.reply u.nextAct)
    | .go u l f => .hold (u.post [(0, u.myCore, u.unitOf l)] (.load u.cur t.me.pc a (t.seg seg).hint.toNat
        [{ loc := l, n := n, addr := a, fill := f }] dest)) (.reply u.nextAct) := by
  have hone : ([onePiece a n []].flatMap t.unitReqs) = [onePiece a n []] := by
    rw [List.flatMap_singleton, unitReqs_one fun va' hva => ?_]
    rw [onePiece_a, ht] at hva
    cases hva
    exact ⟨h0, h1⟩
  rw [State.loadInto, hone, State.gather, onePiece_a, ht]
  simp only [onePiece_n, onePiece_start]
  cases t.globalPiece (t.seg seg) va n .read <;> simp [State.gather, State.sendLoad, gotBytes]

end Global

end Load

/-! ### One piece of global memory outside the remap windows -/

section Piece

variable {t v : State} {g : Seg} {va n : Nat} {acc : Access} {e : TlbEntry} (h0 : t.windowAt t.myPart va = none)
include h0

theorem globalPiece_waits {w : Wait} (ht : t.translate t.myCore t.myPart va acc = .wait w) :
    t.globalPiece g va n acc = .wait w := by
  rw [State.globalPiece, State.remapRead, h0]
  dsimp only
  rw [ht]

variable (ht : t.translate t.myCore t.myPart va acc = .ok v e)
include ht

/-- Past the cache: a request follows what the core still combines of the line. -/
theorem globalPiece_uncached (hc : g.has rgtC = false ∨ e.c = false) :
    t.globalPiece g va n acc = .go (v.flushLine (.phys e.cls (e.phys va) e.key)) (.phys e.cls (e.phys va) e.key) none := by
  have hgo : (!(g.has rgtC && e.c) || t.sketching) = true := by rcases hc with h | h <;> simp [h]
  rw [State.globalPiece, State.remapRead, h0]
  dsimp only
  rw [ht]
  exact if_pos hgo

/-- A line that the core's cache holds answers. -/
theorem globalPiece_cached {line : CacheLine} (hc : g.has rgtC = true) (he : e.c = true) (hs : t.sketching = false)
    (hl : v.cachedLine t.myCore t.myPart (va / 256) e.cls (e.phys va / 256) = some line) :
    t.globalPiece g va n acc = .hit v ((line.bytes.drop (va % 256)).take n) := by
  have hgo : (!(g.has rgtC && e.c) || t.sketching) = false := by simp [hc, he, hs]
  rw [State.globalPiece, State.remapRead, h0]
  dsimp only
  rw [ht]
  dsimp only
  rw [hgo, if_neg Bool.false_ne_true, hl]

end Piece

/-! ### What a scalar register receives (R190) -/

theorem needs_cache : Needs rgtC [5] := by unfold Needs; decide

theorem has_cache_iff (g : Seg) : g.has rgtC = true ↔ g.rights.getLsbD 5 = true := by
  rw [has_iff needs_cache]
  simp

theorem has_cache_eq (g : Seg) : g.has rgtC = g.rights.getLsbD 5 := Bool.eq_iff_iff.2 (has_cache_iff g)

@[simp] theorem deliver_scalar (t : State) (d n : Nat) (signed : Bool) (bs : List Byte) :
    t.deliver (.scalar d n signed) bs = given t d (scalarOf n signed bs) := rfl

/-- A load's bytes as its form extends them. -/
theorem scalarOf_full {n : Nat} {bs : List Byte} (signed : Bool) (h : bs.length = n) : scalarOf n signed bs =
    if signed then BitVec.ofInt 32 (sval (8 * n) (leNat bs)) else BitVec.ofNat 32 (leNat bs) := by
  rw [scalarOf, List.take_of_length_le (Nat.le_of_eq h)]

/-- The signed value of the low bits of a vector is its own. -/
theorem sval_toNat {n : Nat} (v : BitVec n) (h : 0 < n) : sval n v.toNat = v.toInt := by
  have hlt := v.isLt
  have hpow : 2 ^ n = 2 * 2 ^ (n - 1) := by
    rw [← Nat.pow_succ', Nat.succ_eq_add_one, Nat.sub_add_cancel h]
  rw [sval, BitVec.toInt_eq_toNat_cond, Nat.mod_eq_of_lt hlt]
  by_cases hs : v.toNat < 2 ^ (n - 1)
  · rw [if_pos hs, if_pos (by omega)]
  · rw [if_neg hs, if_neg (by omega)]

theorem sramRead_one (t : State) (o : Nat) : leNat (t.sramRead t.myCore o 1) = (tcmByte t o).toNat := by
  simp [State.sramRead, Mem.getMany, tcmByte, sramAddr, leNat]

theorem sramRead_two (t : State) (o : Nat) :
    leNat (t.sramRead t.myCore o 2) = (tcmByte t (o + 1) ++ tcmByte t o : BitVec 16).toNat := by
  rw [append_toNat]
  simp [State.sramRead, Mem.getMany, tcmByte, sramAddr, leNat, List.range_succ, Nat.add_assoc]
  omega

theorem sramRead_four (t : State) (o : Nat) : leNat (t.sramRead t.myCore o 4) = (tcmWordAt t o).toNat := by
  rw [tcmWordAt, append_toNat, append_toNat, append_toNat]
  simp [State.sramRead, Mem.getMany, tcmByte, sramAddr, leNat, List.range_succ, Nat.add_assoc]
  omega

/-! ### Scalar loads -/

section Scalar

variable {i : Instr} {s t : State} {d a : BitVec 5} {seg : BitVec 3} {imm : BitVec 10} {n : Nat} {signed : Bool} {addr : Addr}
  (hi : exec i s = s.scalarLoad d a seg imm n signed) (h : Ready s [.s a.toNat, .d d.toNat])
  (ht : t = s.consumeAll [.s a.toNat, .d d.toNat]) (hn : ScalarSize n)
  (ha : addr = t.segAddr seg.toNat ((t.rS a.toNat).toNat + imm.toInt * n))
  (hc : t.checkAccess seg.toNat ((t.rS a.toNat).toNat + imm.toInt * n) n 1 n (if n = 4 then [0, 1, 3] else [0, 1]) = none)
include hi h ht hn ha hc

/-- A scalar load that passes its checks loads one piece. -/
theorem scalarLoad_checked : exec i s =
    .next (s.finish (t.loadInto seg.toNat [onePiece addr n []] addr (.scalar d.toNat n signed))) := by
  have hal := aligned_of_checkAccess hc
  rw [← ha] at hal
  have hreqs : loadReqs addr n = [onePiece addr n []] := loadReqs_scalar hn hal
  rw [hi, State.scalarLoad, State.perform_ready _ h.1 h.2, ← ht]
  dsimp only [offsetOf, scalarSpaces, rgtR]
  rw [hc, ← ha, hreqs]

theorem scalarLoad_own {o : Nat} (htarget : t.target addr = .own o) (hm : (t.core t.myCore).movingBytes o n = false)
    (hg : t.granuleAt t.cur o = none) {v : Word} (hv : scalarOf n signed (t.sramRead t.myCore o n) = v) :
    exec i s = done s (given t d.toNat v) := by
  have hread : t.tcmRead t.cur o = o := by rw [State.tcmRead, hg]
  rw [scalarLoad_checked hi h ht hn ha hc, loadInto_own htarget hm, hread, deliver_scalar, hv]
  rfl

/-- From another core of the storey (R191). -/
theorem scalarLoad_near {c w : Nat} (htarget : t.target addr = .core c w) (hs : storeyOf c = storeyOf t.myCore) :
    (t.coreFenced c = true → exec i s = traps s 7 addr)
    ∧ (t.coreFenced c = false → (t.core c).movingBytes w n = true → exec i s = .next (s.park (.split c w n)))
    ∧ (t.coreFenced c = false → (t.core c).movingBytes w n = false →
      ∀ bs, bs = (if (t.core c).guarded (addrOff addr) n then List.replicate n 0 else t.readOwn t.cur t.myPart (.sram c w) n) →
        exec i s = done s (given t d.toNat
          (if signed then BitVec.ofInt 32 (sval (8 * n) (leNat bs)) else BitVec.ofNat 32 (leNat bs)))) := by
  rw [scalarLoad_checked hi h ht hn ha hc, loadInto_near htarget hs]
  refine ⟨fun hf => ?_, fun hf hm => ?_, fun hf hm bs hbs => ?_⟩
  · rw [if_pos hf]; rfl
  · rw [hf, if_neg Bool.false_ne_true, if_pos hm]; rfl
  · have hlen : bs.length = n := by rw [hbs]; split <;> simp
    rw [hf, if_neg Bool.false_ne_true, hm, if_neg Bool.false_ne_true, ← hbs, deliver_scalar, scalarOf_full signed hlen]
    rfl

end Scalar

/-- The instruction forms of a scalar load, with the size and the extension of each. -/
theorem exec_of_mem_loads {s : State} {d a : BitVec 5} {seg : BitVec 3} {imm : BitVec 10} {p : Instr × Nat × Bool}
    (hp : p ∈ ([(.ldb d a seg imm, 1, true), (.ldbu d a seg imm, 1, false), (.ldh d a seg imm, 2, true),
      (.ldhu d a seg imm, 2, false), (.ldw d a seg imm, 4, false)] : List (Instr × Nat × Bool))) :
    exec p.1 s = s.scalarLoad d a seg imm p.2.1 p.2.2 ∧ ScalarSize p.2.1 := by
  simp only [List.mem_cons, List.not_mem_nil, or_false] at hp
  rcases hp with rfl | rfl | rfl | rfl | rfl
  · exact ⟨exec_ldb s, .inl rfl⟩
  · exact ⟨exec_ldbu s, .inl rfl⟩
  · exact ⟨exec_ldh s, .inr (.inl rfl)⟩
  · exact ⟨exec_ldhu s, .inr (.inl rfl)⟩
  · exact ⟨exec_ldw s, .inr (.inr rfl)⟩

/-- What each form makes of the bytes of the own TCM. -/
theorem scalarOf_byte (t : State) (o : Nat) : scalarOf 1 true (t.sramRead t.myCore o 1) = (tcmByte t o).signExtend 32
    ∧ scalarOf 1 false (t.sramRead t.myCore o 1) = (tcmByte t o).setWidth 32 := by
  rw [scalarOf_full _ (sramRead_length _ _ _ _), scalarOf_full _ (sramRead_length _ _ _ _), sramRead_one]
  exact ⟨congrArg (BitVec.ofInt 32) (sval_toNat (tcmByte t o) (by decide)), BitVec.ofNat_toNat 32 _⟩

theorem scalarOf_half (t : State) (o : Nat) :
    scalarOf 2 true (t.sramRead t.myCore o 2) = (tcmByte t (o + 1) ++ tcmByte t o : BitVec 16).signExtend 32
    ∧ scalarOf 2 false (t.sramRead t.myCore o 2) = (tcmByte t (o + 1) ++ tcmByte t o : BitVec 16).setWidth 32 := by
  rw [scalarOf_full _ (sramRead_length _ _ _ _), scalarOf_full _ (sramRead_length _ _ _ _), sramRead_two]
  exact ⟨congrArg (BitVec.ofInt 32) (sval_toNat (tcmByte t (o + 1) ++ tcmByte t o : BitVec 16) (by decide)),
    BitVec.ofNat_toNat 32 _⟩

theorem scalarOf_word (t : State) (o : Nat) : scalarOf 4 false (t.sramRead t.myCore o 4) = tcmWordAt t o := by
  rw [scalarOf_full _ (sramRead_length _ _ _ _), sramRead_four]
  exact (BitVec.ofNat_toNat 32 _).trans (BitVec.setWidth_eq _)

/-- Settles O7: a scalar load is one piece, and the piece is read where its address leads. -/
theorem scalarLoads : Obligations.ScalarLoads := by
  unfold Obligations.ScalarLoads
  refine fun s d a seg imm o h => ⟨?byte, ?half, ?word, fun p hp => ?away⟩
  case byte =>
    rintro ⟨hc, htarget, hm, hg⟩
    have hv := scalarOf_byte (s.consumeAll [.s a.toNat, .d d.toNat]) o
    exact ⟨scalarLoad_own (exec_ldb s) h rfl (.inl rfl) rfl hc htarget hm hg hv.1,
      scalarLoad_own (exec_ldbu s) h rfl (.inl rfl) rfl hc htarget hm hg hv.2⟩
  case half =>
    rintro ⟨hc, htarget, hm, hg⟩
    have hv := scalarOf_half (s.consumeAll [.s a.toNat, .d d.toNat]) o
    exact ⟨scalarLoad_own (exec_ldh s) h rfl (.inr (.inl rfl)) rfl hc htarget hm hg hv.1,
      scalarLoad_own (exec_ldhu s) h rfl (.inr (.inl rfl)) rfl hc htarget hm hg hv.2⟩
  case word =>
    rintro ⟨hc, htarget, hm, hg⟩
    exact scalarLoad_own (exec_ldw s) h rfl (.inr (.inr rfl)) rfl hc htarget hm hg (scalarOf_word _ o)
  case away =>
    obtain ⟨hi, hn⟩ := exec_of_mem_loads (s := s) hp
    intro n addr dest value asks hc
    refine ⟨fun c w htarget => ⟨fun hs => ?near, fun hs => ?far⟩, fun va htarget h0 h1 => ⟨fun w hw => ?waits,
      fun v e hv => ⟨fun hcache => ?uncached, fun line hcache he hsk hl => ?cached⟩⟩⟩
    case near =>
      obtain ⟨hfenced, hsplit, hgiven⟩ := scalarLoad_near hi h rfl hn rfl hc htarget hs
      exact ⟨hfenced, hsplit, fun hf hm => hgiven hf hm _ rfl⟩
    case far => rw [scalarLoad_checked hi h rfl hn rfl hc, loadInto_far htarget hs]; rfl
    case waits =>
      rw [scalarLoad_checked hi h rfl hn rfl hc, loadInto_global htarget h0 h1, globalPiece_waits h0 hw]
      rfl
    case uncached =>
      rw [scalarLoad_checked hi h rfl hn rfl hc, loadInto_global htarget h0 h1,
        globalPiece_uncached h0 hv (by rwa [has_cache_eq])]
      rfl
    case cached =>
      rw [scalarLoad_checked hi h rfl hn rfl hc, loadInto_global htarget h0 h1,
        globalPiece_cached h0 hv (by rwa [has_cache_eq]) he hsk hl]
      rfl

end Sys2Proof.Proofs
end

section
/-!
PROOFS. Writes of the own TCM: through the template window with its copy faults, and of the bytes themselves (R83, R107-R109,
R169, R190, R397).
-/

namespace Sys2Proof.Proofs

open Sys2Proof Sys2Proof.Machine Sys2Proof.Cert

/-! ### The thread of a slot -/

@[simp] theorem modThr_isSome (s : State) (id : Nat) (f : Thread → Thread) (n : Nat) :
    ((s.modThr id f).thr? n).isSome = (s.thr? n).isSome := by
  by_cases e : n = id
  · rw [e, State.modThr_thr?_self, Option.isSome_map]
  · rw [State.modThr_thr?_ne s f e]

/-- A step that is taken or not keeps what it keeps where it is taken. -/
theorem ite_keeps {γ : Type} {g : State → γ} (p : Prop) [Decidable p] {f : State → State} (hf : ∀ u, g (f u) = g u) (u : State) :
    g (if p then f u else u) = g u := by
  split
  · exact hf u
  · rfl

@[simp] theorem consumeAll_isSome (s : State) (ops : List Opnd) (n : Nat) :
    ((s.consumeAll ops).thr? n).isSome = (s.thr? n).isSome := by
  have held (u : State) (id : Nat) (f : Regs → Regs) : ((u.modRegs id f).thr? n).isSome = (u.thr? n).isSome :=
    modThr_isSome _ _ _ _
  have acquired (u : State) (c : Nat) (sc : Scope) : (u.acquire c sc).thr? n = u.thr? n := thr?_congr (acquire_threads u c sc) n
  have consumed : ((s.consume ops).thr? n).isSome = (s.thr? n).isSome := by
    by_cases hslot : slotOf s.cur ≠ 0
    · rw [State.consume_off ops hslot]
    · rw [State.consume, if_neg hslot]
      extract_lets hold s1 s2 s3
      have h1 : (s1.thr? n).isSome = (s.thr? n).isSome := ite_keeps (g := fun u => (u.thr? n).isSome) _ (f := fun u =>
        (hold u 28 ((u.core s.myCore).rxReq.headD 0)).modCore s.myCore fun c => { c with rxReq := c.rxReq.drop 1 })
        (fun u => held u _ _) s
      have h2 : (s2.thr? n).isSome = (s1.thr? n).isSome := ite_keeps (g := fun u => (u.thr? n).isSome) _ (f := fun u =>
        (hold u 30 ((u.core s.myCore).rxColl.headD 0)).modCore s.myCore fun c => { c with rxColl := c.rxColl.drop 1 })
        (fun u => held u _ _) s1
      have h3 : (s3.thr? n).isSome = (s2.thr? n).isSome := ite_keeps (g := fun u => (u.thr? n).isSome) _
        (f := fun u => hold u.drawWord.2 29 u.drawWord.1) (fun u => held u.drawWord.2 _ _) s2
      rw [← h1, ← h2, ← h3]
      exact ite_keeps (g := fun u => (u.thr? n).isSome) _ (f := fun u => hold u.drawWord.2 31 u.drawWord.1)
        (fun u => held u.drawWord.2 _ _) s3
  unfold State.consumeAll State.observe
  dsimp only
  split
  · exact consumed
  · rw [acquired, State.modMe_isSome, consumed]

theorem thr?_cur {t : State} (h : (t.thr? t.cur).isSome = true) : t.thr? t.cur = some t.me := by
  obtain ⟨x, hx⟩ := Option.isSome_iff_exists.1 h
  rw [hx]
  exact congrArg some (State.thr_of_some hx).symm

theorem anyThr?_cur {t : State} (h : (t.thr? t.cur).isSome = true) (hslot : t.cur < imageBase) :
    t.anyThr? t.cur = some t.me := by
  rw [State.anyThr?, if_pos hslot, thr?_cur h]

theorem coreOfAny_slot (t : State) {id : Nat} (h : id < imageBase) : t.coreOfAny id = coreOf id := if_pos h

/-! ### The copy of a granule (R107-R108) -/

theorem copyGranule_keeps {γ : Type} {g : State → γ} (hg : ∀ s f, g (State.modMemory s f) = g s) (s : State)
    (core src dst : Nat) : g (s.copyGranule core src dst) = g s := by
  rw [State.copyGranule]
  generalize List.range 64 = l
  exact (foldl_keeps g (f := fun (u : State) i => u.setWordFull core (dst * 256 + 4 * i) (u.wordFull core (src * 256 + 4 * i)))
    (fun u i => by rw [State.setWordFull, hg]) l _).trans (hg _ _)

@[simp] theorem copyGranule_cur (s : State) (core src dst : Nat) : (s.copyGranule core src dst).cur = s.cur :=
  copyGranule_keeps (g := State.cur) (fun _ _ => rfl) s core src dst

@[simp] theorem copyGranule_threads (s : State) (core src dst : Nat) : (s.copyGranule core src dst).threads = s.threads :=
  copyGranule_keeps (g := State.threads) (fun _ _ => rfl) s core src dst

@[simp] theorem moveWatches_cur (s : State) (id core src dst : Nat) : (s.moveWatches id core src dst).cur = s.cur := rfl
@[simp] theorem moveWatches_threads (s : State) (id core src dst : Nat) : (s.moveWatches id core src dst).threads = s.threads := rfl
@[simp] theorem moveWatches_memory (s : State) (id core src dst : Nat) : (s.moveWatches id core src dst).memory = s.memory := rfl

theorem setWordFull_sram (s : State) (core off : Nat) (b : Bool) : (s.setWordFull core off b).memory.sram = s.memory.sram := rfl

theorem copyGranule_sram (s : State) (core src dst : Nat) : (s.copyGranule core src dst).memory.sram =
    s.memory.sram.setMany (sramAddr core (dst * 256)) (s.memory.sram.getMany (sramAddr core (src * 256)) 256) := by
  rw [State.copyGranule]
  generalize List.range 64 = l
  refine (foldl_keeps (fun u : State => u.memory.sram)
    (f := fun (u : State) i => u.setWordFull core (dst * 256 + 4 * i) (u.wordFull core (src * 256 + 4 * i)))
    (fun u i => setWordFull_sram u _ _ _) l _).trans ?_
  dsimp only [State.modMemory]

theorem mem_insertNat (n m : Nat) (l : List Nat) : m ∈ insertNat n l ↔ m = n ∨ m ∈ l := by
  induction l with
  | nil => simp [insertNat]
  | cons x r ih =>
    unfold insertNat
    split
    case isTrue e => subst e; simp
    case isFalse =>
      split
      · simp
      · simp only [List.mem_cons, ih]
        tauto

/-- The full/empty bit of a word after that of a word is set. -/
theorem wordFull_setWordFull (s : State) (core off core' off' : Nat) (b : Bool) :
    (s.setWordFull core off b).wordFull core' off' = if wordNo core' off' = wordNo core off then b else s.wordFull core' off' := by
  cases b
  · simp [State.wordFull, State.setWordFull, State.modMemory, mem_insertNat]
  · simp [State.wordFull, State.setWordFull, State.modMemory, Bool.or_comm]

/-- Two words of different granules are different words. -/
theorem wordNo_granule_ne {core x y i j : Nat} (hi : i < 64) (hj : j < 64) (h : x ≠ y ∨ i ≠ j) :
    wordNo core (x * 256 + 4 * i) ≠ wordNo core (y * 256 + 4 * j) := by
  unfold wordNo sramAddr
  omega

/-- The bits of the first words of a granule are copied one after another. -/
theorem foldl_setWordFull {core src dst : Nat} (hne : dst ≠ src) (s : State) (n : Nat) (hn : n ≤ 64) {c : Nat} (hc : c < 64) :
    let u := (List.range n).foldl (fun s i => s.setWordFull core (dst * 256 + 4 * i) (s.wordFull core (src * 256 + 4 * i))) s
    u.wordFull core (src * 256 + 4 * c) = s.wordFull core (src * 256 + 4 * c)
    ∧ (c < n → u.wordFull core (dst * 256 + 4 * c) = s.wordFull core (src * 256 + 4 * c)) := by
  induction n with
  | zero => exact ⟨rfl, fun h => absurd h (Nat.not_lt_zero c)⟩
  | succ n ih =>
    obtain ⟨hsrc, hdst⟩ := ih (by omega)
    dsimp only at hsrc hdst ⊢
    rw [List.range_succ, List.foldl_append, List.foldl_cons, List.foldl_nil]
    refine ⟨?_, fun hlt => ?_⟩
    · rw [wordFull_setWordFull, if_neg (wordNo_granule_ne hc (by omega) (.inl hne.symm)), hsrc]
    · by_cases e : c = n
      · subst e
        rw [wordFull_setWordFull, if_pos rfl, hsrc]
      · rw [wordFull_setWordFull, if_neg (wordNo_granule_ne hc (by omega) (.inr e)), hdst (by omega)]

theorem copyGranule_wordFull {s : State} {core src dst c : Nat} (hne : dst ≠ src) (hc : c < 64) :
    (s.copyGranule core src dst).wordFull core (dst * 256 + 4 * c) = s.wordFull core (src * 256 + 4 * c) := by
  rw [State.copyGranule]
  exact (foldl_setWordFull hne (s.modMemory _) 64 (Nat.le_refl _) hc).2 hc

theorem takeGranule_modCore {s w : State} {core k x : Nat} (h : s.takeGranule core k = some (x, w)) :
    ∃ f, w = s.modCore core f := by
  have free {o : Option Nat}
      (h : o.map (fun g => (g, s.modCore core fun c => { c with taken := insertNat g c.taken })) = some (x, w)) :
      ∃ f, w = s.modCore core f := by
    obtain ⟨g, -, e⟩ := Option.map_eq_some_iff.1 h
    cases e
    exact ⟨_, rfl⟩
  unfold State.takeGranule at h
  dsimp only at h
  split at h
  · split at h
    · cases h
      exact ⟨_, rfl⟩
    · exact free h
  · exact free h

/-! ### The place that a write reaches (R107-R109) -/

/-- The state in which the issuing impression owns a copy, in granule `x`, of what its template granule `g` read. -/
def granuleCopied (t w : State) (g x : Nat) : State :=
  ((w.copyGranule t.myCore (t.granuleMap t.cur g) x).moveWatches t.cur t.myCore (t.granuleMap t.cur g) x).modThr t.cur
    fun y => { y with own := y.own.put g (.owned x) }

/-- Outside the template window a write reaches its own offset. -/
theorem tcmWrite_outside {t : State} {id o : Nat} (h : t.granuleAt id o = none) : t.tcmWrite id o = some (t, o, false) := by
  rw [State.tcmWrite, h]

/-- Where a write finds a place, its state is the one before, or has one granule more taken and copied. -/
theorem tcmWrite_cases {t u : State} {o o' : Nat} {fault : Bool} (hslot : t.cur < imageBase)
    (h : t.tcmWrite t.cur o = some (u, o', fault)) :
    (u = t ∧ fault = false) ∨ ∃ f g x, u = granuleCopied t (t.modCore t.myCore f) g x ∧ fault = true := by
  unfold State.tcmWrite at h
  rw [coreOfAny_slot t hslot] at h
  split at h
  case h_1 g f launch sz hg hw =>
    split at h
    case h_1 => cases h; exact .inl ⟨rfl, rfl⟩
    case h_2 => cases h; exact .inl ⟨rfl, rfl⟩
    case h_3 =>
      split at h
      case h_1 => cases h
      case h_2 x w hx =>
        obtain ⟨f, rfl⟩ := takeGranule_modCore hx
        dsimp only at h
        rw [modAny_slot _ _ hslot] at h
        cases h
        exact .inr ⟨f, g, x, rfl, rfl⟩
  case h_2 => cases h; exact .inl ⟨rfl, rfl⟩

/-- What a taken granule leaves: every reading that the cores, the memory, the acts and the thread's granules do not enter. -/
theorem tcmWrite_keeps {γ : Type} {g : State → γ} (hcore : ∀ s c f, g (State.modCore s c f) = g s)
    (hmem : ∀ s f, g (State.modMemory s f) = g s) (hwatch : ∀ s id c a b, g (State.moveWatches s id c a b) = g s)
    (hthr : ∀ s id f, g (State.modThr s id f) = g s) {t u : State} {o o' : Nat} {fault : Bool} (hslot : t.cur < imageBase)
    (h : t.tcmWrite t.cur o = some (u, o', fault)) : g u = g t := by
  rcases tcmWrite_cases hslot h with ⟨rfl, -⟩ | ⟨f, k, x, rfl, -⟩
  · rfl
  · rw [granuleCopied, hthr, hwatch, copyGranule_keeps hmem, hcore]

section Place

variable {t u : State} {o o' : Nat} {fault : Bool} (hslot : t.cur < imageBase) (h : t.tcmWrite t.cur o = some (u, o', fault))
include hslot h

theorem tcmWrite_cur : u.cur = t.cur :=
  tcmWrite_keeps (fun _ _ _ => rfl) (fun _ _ => rfl) (fun _ _ _ _ _ => rfl) (fun _ _ _ => State.modThr_cur _ _ _) hslot h

theorem tcmWrite_cycle : u.cycle = t.cycle :=
  tcmWrite_keeps (fun _ _ _ => rfl) (fun _ _ => rfl) (fun _ _ _ _ _ => rfl) (fun _ _ _ => State.modThr_cycle _ _ _) hslot h

theorem claimed_cur (p : Nat) : (claimed t u p fault).cur = t.cur := by
  have hslot' : t.cur < imageBase := hslot
  have hfault : (if fault then u.copyFault else u).cur = t.cur := by
    split
    · exact (State.modMe_cur u _).trans (tcmWrite_cur hslot h)
    · exact tcmWrite_cur hslot h
  unfold claimed
  dsimp only
  split
  · exact hfault
  · rw [State.markWritten, modAny_slot _ _ hslot', State.modThr_cur, hfault]

end Place

/-- A write of own bytes is performed where it finds its place, in the state that it has claimed. -/
theorem writeOwn_cur {t : State} (o : Nat) (bs : List Byte) (hslot : t.cur < imageBase) : t.writeOwn t.cur o bs =
    (t.tcmWrite t.cur o).map fun r => (claimed t r.1 o r.2.2).writeLoc t.myPart 0 (.sram t.myCore r.2.1) bs := by
  rw [State.writeOwn]
  cases h : t.tcmWrite t.cur o with
  | none => rfl
  | some r =>
    obtain ⟨u, o', fault⟩ := r
    have hcur := tcmWrite_cur hslot h
    have hcycle := tcmWrite_cycle hslot h
    have hfault : (u.modAny t.cur fun x => { x with early := x.early + 24, copying := max x.copying t.cycle + 24 }) =
        u.copyFault := by
      rw [State.copyFault, modAny_slot _ _ hslot, State.modMe, hcur, hcycle]
    dsimp only [Option.map_some]
    rw [hfault, coreOfAny_slot t hslot]
    rfl

/-! ### The template window of an impression (R107-R109) -/

section Impression

variable {t : State} {o g f launch sz n i b c : Nat} (hthread : (t.thr? t.cur).isSome = true) (hslot : t.cur < imageBase)
  (hg : t.granuleAt t.cur o = some g) (hw : t.window t.cur = some (f, launch, sz)) (hk : t.me.kind = .impression n f i b c)
include hthread hslot hg hw hk

theorem tcmWrite_owned {x : Nat} (hx : t.me.own.look g = some (.owned x)) :
    t.tcmWrite t.cur o = some (t, x * 256 + o % 256, false) := by
  rw [State.tcmWrite, hg, hw, anyThr?_cur hthread hslot]
  dsimp only [Option.map_some, Option.getD_some]
  rw [hk, hx]

theorem tcmWrite_takes (hx : ∀ x, t.me.own.look g ≠ some (.owned x)) : t.tcmWrite t.cur o =
    (t.takeGranule t.myCore launch).map fun r => (granuleCopied t r.2 g r.1, r.1 * 256 + o % 256, true) := by
  have hcopy (w : State) (x : Nat) : ((w.copyGranule t.myCore (t.granuleMap t.cur g) x).moveWatches t.cur t.myCore
      (t.granuleMap t.cur g) x).modAny t.cur (fun y => { y with own := y.own.put g (.owned x) }) = granuleCopied t w g x :=
    modAny_slot _ _ hslot
  rw [State.tcmWrite, hg, hw, anyThr?_cur hthread hslot, coreOfAny_slot t hslot]
  dsimp only [Option.map_some, Option.getD_some]
  rw [hk]
  split
  case h_1 => simp_all
  case h_2 _ _ y e _ => exact absurd e (hx y)
  case h_3 =>
    cases e : t.takeGranule (coreOf t.cur) launch with
    | none => rw [State.myCore, e]; rfl
    | some r => rw [State.myCore, e]; exact congrArg (fun y => some (y, r.1 * 256 + o % 256, true)) (hcopy r.2 r.1)

end Impression

end Sys2Proof.Proofs
end

section
/-!
PROOFS. Scalar stores: the bytes that a write of local memory leaves, and where one piece goes (R83, R107-R109, R170, R172,
R190-R191).
-/

namespace Sys2Proof.Proofs

open Sys2Proof Sys2Proof.Machine Sys2Proof.Cert

/-! ### The bytes of a number -/

theorem getElem_leBytes {n w i : Nat} (h : i < (leBytes n w).length) : (leBytes n w)[i] = BitVec.ofNat 8 (w / 256 ^ i) := by
  induction n generalizing w i with
  | zero => simp [leBytes] at h
  | succ n ih =>
    cases i with
    | zero => simp [leBytes]
    | succ i =>
      simp only [leBytes, List.getElem_cons_succ, ih]
      rw [Nat.div_div_eq_div_mul, Nat.pow_succ']

/-- The bytes of a register, in little-endian order. -/
theorem getElem_leBytes_word {n i : Nat} (w : Word) (h : i < (leBytes n w.toNat).length) :
    (leBytes n w.toNat)[i] = w.extractLsb' (8 * i) 8 := by
  rw [getElem_leBytes h, ← BitVec.toNat_inj, BitVec.toNat_ofNat, BitVec.extractLsb'_toNat, Nat.shiftRight_eq_div_pow,
    Nat.pow_mul]

/-! ### Writes of local memory -/

/-- The write of bytes at consecutive addresses that leaves those at the offsets `live`. -/
def putBytes (live : Nat → Bool) (base : Nat) (m : Mem) (bi : Byte × Nat) : Mem :=
  if live bi.2 then m else m.set (base + bi.2) bi.1

theorem foldl_putBytes_free {live : Nat → Bool} (base : Nat) (bs : List Byte) (k : Nat) (m : Mem)
    (h : ∀ i, i < bs.length → live (k + i) = false) :
    (bs.zipIdx k).foldl (putBytes live base) m = m.setMany (base + k) bs := by
  induction bs generalizing k m with
  | nil => rfl
  | cons b r ih =>
    have h0 : live k = false := h 0 (Nat.succ_pos _)
    have hput : putBytes live base m (b, k) = m.set (base + k) b := by simp [putBytes, h0]
    have hnext (i : Nat) (hi : i < r.length) : live (k + 1 + i) = false := by
      rw [Nat.add_assoc, Nat.add_comm 1]
      exact h (i + 1) (Nat.succ_lt_succ hi)
    rw [List.zipIdx_cons, List.foldl_cons, hput, ih (k + 1) _ hnext]
    rfl

theorem foldl_putBytes_live {live : Nat → Bool} (base : Nat) (bs : List Byte) (k : Nat) (m : Mem)
    (h : ∀ i, i < bs.length → live (k + i) = true) : (bs.zipIdx k).foldl (putBytes live base) m = m := by
  induction bs generalizing k with
  | nil => rfl
  | cons b r ih =>
    have h0 : live k = true := h 0 (Nat.succ_pos _)
    have hput : putBytes live base m (b, k) = m := by simp [putBytes, h0]
    have hnext (i : Nat) (hi : i < r.length) : live (k + 1 + i) = true := by
      rw [Nat.add_assoc, Nat.add_comm 1]
      exact h (i + 1) (Nat.succ_lt_succ hi)
    rw [List.zipIdx_cons, List.foldl_cons, hput, ih (k + 1) hnext]

theorem sramWrite_sram_low (t : State) (core : Nat) {o : Nat} (bs : List Byte) (h : o < 0x1000) :
    (t.sramWrite core o bs).memory.sram =
      bs.zipIdx.foldl (putBytes (fun i => (t.liveCounter core (o + i)).isSome) (sramAddr core o)) t.memory.sram := by
  rw [State.sramWrite, if_pos h]
  simp only [State.modMemory, sramAddr, ← Nat.add_assoc]
  rfl

theorem sramWrite_sram_free (t : State) (core o : Nat) (bs : List Byte)
    (h : ∀ i, i < bs.length → t.liveCounter core (o + i) = none) :
    (t.sramWrite core o bs).memory.sram = t.memory.sram.setMany (sramAddr core o) bs := by
  by_cases hlow : o < 0x1000
  · rw [sramWrite_sram_low t core bs hlow, foldl_putBytes_free, Nat.add_zero]
    · intro i hi
      rw [Nat.zero_add, h i hi]
      rfl
  · rw [State.sramWrite, if_neg hlow]
    rfl

/-- A live task's counter stands below the template window. -/
theorem liveCounter_low {t : State} {core o : Nat} (h : t.liveCounter core o ≠ none) : o < 0x1000 := by
  by_contra hge
  exact h (if_pos (Nat.le_of_not_lt hge))

theorem sramWrite_sram_live (t : State) (core o : Nat) (bs : List Byte) (ho : t.liveCounter core o ≠ none)
    (h : ∀ i, i < bs.length → t.liveCounter core (o + i) ≠ none) : (t.sramWrite core o bs).memory.sram = t.memory.sram := by
  rw [sramWrite_sram_low t core bs (liveCounter_low ho), foldl_putBytes_live]
  intro i hi
  rw [Nat.zero_add, Option.isSome_iff_ne_none]
  exact h i hi

/-- The counter of a word is the counter of each of its bytes. -/
theorem liveCounter_word (t : State) (core : Nat) {o n i : Nat} (hn : ScalarSize n) (ho : o % n = 0) (hi : i < n) :
    t.liveCounter core (o + i) = t.liveCounter core o := by
  have hword : (o + i) / 4 * 4 = o / 4 * 4 ∧ (0x1000 ≤ o + i ↔ 0x1000 ≤ o) := by
    rcases hn with rfl | rfl | rfl <;> omega
  simp only [State.liveCounter, hword.1, hword.2]

/-- What a write of local memory leaves of the memories: its own bytes only, or none where a live task counts. -/
theorem writeLoc_sram_memory (t : State) (part hint core o : Nat) (bs : List Byte) :
    (t.writeLoc part hint (.sram core o) bs).memory = (t.sramWrite core o bs).memory := rfl

theorem sramWrite_elsewhere (t : State) (core o : Nat) (bs : List Byte) :
    (t.sramWrite core o bs).memory.stack = t.memory.stack ∧ (t.sramWrite core o bs).memory.pool = t.memory.pool
    ∧ (t.sramWrite core o bs).memory.host = t.memory.host := by
  unfold State.sramWrite
  split <;> exact ⟨rfl, rfl, rfl⟩

/-! ### Where a store of one piece goes -/

/-- The request of one piece that the issuing thread's UNACK counts. -/
def storeAsks (u : State) (addr : Addr) (hint : Nat) (q : Put) : State :=
  (u.addUnack u.cur).post [(0, u.myCore, u.unitOf q.loc)] (.store u.cur addr hint [q])

/-- A request counts once more in what the thread's stores owe. -/
theorem owed_storeAsks {u : State} (h : (u.thr? u.cur).isSome = true) (addr : Addr) (hint : Nat) (q : Put) :
    (storeAsks u addr hint q).owed u.cur = u.owed u.cur + 1 := by
  have hunack : ((storeAsks u addr hint q).thr u.cur).unack = (u.thr u.cur).unack + 1 :=
    congrArg Thread.unack (State.modThr_thr_self (fun x => { x with unack := x.unack + 1 }) h)
  have hcombined : (storeAsks u addr hint q).combined u.cur = u.combined u.cur := by
    have hcore : (storeAsks u addr hint q).core (coreOf u.cur) = u.core (coreOf u.cur) := core_congr (State.modThr_cores u _ _) _
    rw [State.combined, State.combined, hcore]
  rw [State.owed, hunack, hcombined, State.owed]
  omega

@[simp] theorem updateLine_cur (t : State) (core : Nat) (p : Loc × List Byte) : (t.updateLine core p).cur = t.cur := by
  unfold State.updateLine
  split <;> rfl

@[simp] theorem flushLine_cur (t : State) (l : Loc) : (t.flushLine l).cur = t.cur := by
  unfold State.flushLine
  split
  · exact flushWcb_keeps offSending_cur _ _ _
  · rfl

/-- A piece past the buffer goes in one request, behind what the buffer holds of its line. -/
theorem sendPieces_plain (t : State) (hint : Nat) (first : Addr) {p : OutPiece} (h : p.cached = false) :
    t.sendPieces hint first [p] =
      storeAsks ((t.updateLine t.myCore (p.put.loc, p.put.bytes)).flushLine p.put.loc) first hint p.put := by
  have hcur : ((t.updateLine t.myCore (p.put.loc, p.put.bytes)).flushLine p.put.loc).cur = t.cur := by simp
  rw [State.sendPieces, storeAsks, myCore_congr hcur, hcur]
  simp [h]

/-- A piece of a cached line joins the buffer. -/
theorem sendPieces_cached (t : State) (hint : Nat) (first : Addr) {p : OutPiece} {l : PClass × Nat} (h : p.cached = true)
    (hl : p.put.loc.line = some l) : t.sendPieces hint first [p] =
      (t.updateLine t.myCore (p.put.loc, p.put.bytes)).combine l.1 l.2 hint p.addr [p.put] := by
  simp [State.sendPieces, h, hl]

section Store

variable {t : State} {seg n : Nat} {a : Addr} {bs : List Byte}

/-- The piece that a store of one piece sends to a place. -/
def putAt (a : Addr) (n : Nat) (bs : List Byte) (l : Loc) : Put :=
  { loc := l, bytes := bs, foot := addrOff a, size := n, addr := a }

/-- How a store's pieces decide its outcome. -/
def storeResult : StoreRes → Res
  | .ok s => .ok s
  | .wait w => .park w
  | .full a => .trap 10 a
  | .refused a => .trap 6 a

theorem storeFrom_one : t.storeFrom seg [onePiece a n bs] = storeResult (t.scatter (t.seg seg) [onePiece a n bs] [] a) := by
  have hfirst : ([onePiece a n bs].map Req.a).headD 0 = a := rfl
  rw [State.storeFrom, hfirst]
  cases t.scatter (t.seg seg) [onePiece a n bs] [] a <;> rfl

theorem storeFrom_own {o : Nat} (ht : t.target a = .own o) (hm : (t.core t.myCore).movingBytes o n = false) (hb : bs ≠ []) :
    t.storeFrom seg [onePiece a n bs] = match t.writeOwn t.cur o bs with
      | none => .trap 10 a
      | some u => .ok u := by
  have hbytes : bs.isEmpty = false := by simpa using hb
  rw [storeFrom_one, State.scatter, onePiece_a, ht]
  simp only [onePiece_n, onePiece_bytes, onePiece_start, hm, hbytes, Bool.false_eq_true, if_false]
  cases t.writeOwn t.cur o bs <;> rfl

theorem storeFrom_core {c w : Nat} (ht : t.target a = .core c w) (h : (t.thr? t.cur).isSome = true) :
    t.storeFrom seg [onePiece a n bs] =
      if t.unackWait = none then .ok (storeAsks t a (t.seg seg).hint.toNat (putAt a n bs (.sram c w)))
      else .park (.unackRoom 1) := by
  have hscatter : t.scatter (t.seg seg) [onePiece a n bs] [] a =
      t.sendStore (t.seg seg).hint.toNat a [{ put := putAt a n bs (.sram c w), addr := a, cached := false }] := by
    rw [State.scatter, onePiece_a, ht]
    rfl
  have hsend : t.sendPieces (t.seg seg).hint.toNat a [{ put := putAt a n bs (.sram c w), addr := a, cached := false }] =
      storeAsks t a (t.seg seg).hint.toNat (putAt a n bs (.sram c w)) := sendPieces_plain _ _ _ rfl
  have hroom : t.unackRoom t.cur t.me 1 = decide (t.owed t.cur + 1 ≤ 1023) := rfl
  rw [storeFrom_one, hscatter, State.sendStore, hsend, owed_storeAsks h, State.unackWait, State.unackWaitN, hroom]
  by_cases hle : t.owed t.cur + 1 ≤ 1023
  · simp [hle, storeResult]
  · simp [hle, storeResult]

section Global

variable {va : Nat} (ht : t.target a = .global va)
include ht

theorem storeFrom_window (h : t.windowAt t.myPart va ≠ none) : t.storeFrom seg [onePiece a n bs] = .trap 6 a := by
  rw [storeFrom_one, State.scatter, onePiece_a, ht]
  dsimp only
  rw [if_pos (Option.isSome_iff_ne_none.2 h)]
  rfl

variable {v : State} {e : TlbEntry} (h : t.windowAt t.myPart va = none) (hv : t.translate t.myCore t.myPart va .write = .ok v e)
include h hv

theorem scatter_global (g : Seg) : t.scatter g [onePiece a n bs] [] a = v.sendStore g.hint.toNat a
    [{ put := putAt a n bs (.phys e.cls (e.phys va) e.key), addr := a, cached := g.has rgtC && e.c && !bs.isEmpty }] := by
  rw [State.scatter, onePiece_a, ht]
  dsimp only
  rw [h, hv]
  rfl

/-- A store to a page that the cache may not hold is one request; one that stands in the buffer first leaves it. -/
theorem storeFrom_uncached {u : State} (hc : (t.seg seg).has rgtC = false ∨ e.c = false)
    (hu : u = storeAsks ((v.updateLine v.myCore (.phys e.cls (e.phys va) e.key, bs)).flushLine (.phys e.cls (e.phys va) e.key)) a
      (t.seg seg).hint.toNat (putAt a n bs (.phys e.cls (e.phys va) e.key)))
    (hroom : u.owed v.cur ≤ 1023) : t.storeFrom seg [onePiece a n bs] = .ok u := by
  have hcached : ((t.seg seg).has rgtC && e.c && !bs.isEmpty) = false := by rcases hc with hc | hc <;> simp [hc]
  rw [storeFrom_one, scatter_global ht h hv, hcached, State.sendStore, sendPieces_plain _ _ _ rfl]
  exact hu ▸ congrArg storeResult (if_pos (hroom.trans (Nat.le_max_left _ _)))

theorem storeFrom_cached {u : State} (hc : (t.seg seg).has rgtC = true) (he : e.c = true) (hb : bs ≠ [])
    (hu : u = (v.updateLine v.myCore (.phys e.cls (e.phys va) e.key, bs)).combine e.cls (e.phys va / 256) (t.seg seg).hint.toNat a
      [putAt a n bs (.phys e.cls (e.phys va) e.key)])
    (hroom : u.owed v.cur ≤ 1023) : t.storeFrom seg [onePiece a n bs] = .ok u := by
  have hcached : ((t.seg seg).has rgtC && e.c && !bs.isEmpty) = true := by simpa [hc, he] using hb
  rw [storeFrom_one, scatter_global ht h hv, hcached, State.sendStore, sendPieces_cached _ _ _ rfl rfl]
  exact hu ▸ congrArg storeResult (if_pos (hroom.trans (Nat.le_max_left _ _)))

end Global

end Store

/-! ### What a taken granule leaves (R107-R108) -/

section Granule

variable {t w : State} (g x : Nat)

theorem granuleCopied_memory : (granuleCopied t w g x).memory = (w.copyGranule t.myCore (t.granuleMap t.cur g) x).memory := by
  rw [granuleCopied, State.modThr_memory, moveWatches_memory]

variable {f : Core → Core} (hw : w = t.modCore t.myCore f)
include hw

theorem granuleCopied_cur : (granuleCopied t w g x).cur = t.cur := by
  rw [granuleCopied, State.modThr_cur, moveWatches_cur, copyGranule_cur, hw]
  rfl

theorem granuleCopied_me (h : (t.thr? t.cur).isSome = true) :
    (granuleCopied t w g x).me = { t.me with own := t.me.own.put g (.owned x) } := by
  have hthreads : ((w.copyGranule t.myCore (t.granuleMap t.cur g) x).moveWatches t.cur t.myCore (t.granuleMap t.cur g) x).threads =
      t.threads := by
    rw [moveWatches_threads, copyGranule_threads, hw]
    rfl
  rw [State.me, granuleCopied_cur g x hw, granuleCopied, State.modThr_thr_self _ (by rwa [thr?_congr hthreads]), State.thr,
    hthreads]
  rfl

theorem granuleCopied_sram : (granuleCopied t w g x).memory.sram = t.memory.sram.setMany (sramAddr t.myCore (x * 256))
    (t.memory.sram.getMany (sramAddr t.myCore (t.granuleMap t.cur g * 256)) 256) := by
  rw [granuleCopied_memory g x, copyGranule_sram, hw]
  rfl

theorem granuleCopied_wordFull {c : Nat} (hne : x ≠ t.granuleMap t.cur g) (hc : c < 64) :
    (granuleCopied t w g x).wordFull t.myCore (x * 256 + 4 * c) = t.wordFull t.myCore (t.granuleMap t.cur g * 256 + 4 * c) := by
  rw [wordFull_congr (granuleCopied_memory g x), copyGranule_wordFull hne hc, hw]
  rfl

theorem granuleCopied_tcmByte (hm : t.memory.sram.wf = true) {c : Nat} (hc : c < 256) :
    tcmByte (granuleCopied t w g x) (x * 256 + c) = tcmByte t (t.granuleMap t.cur g * 256 + c) := by
  have hlen : c < (t.memory.sram.getMany (sramAddr t.myCore (t.granuleMap t.cur g * 256)) 256).length := by simpa using hc
  have hat : t.myCore * 524288 + (x * 256 + c) = sramAddr t.myCore (x * 256) + c := by rw [sramAddr]; omega
  rw [tcmByte, myCore_congr (granuleCopied_cur g x hw), granuleCopied_sram g x hw, hat, Mem.get_setMany _ _ _ _ hm hlen, tcmByte]
  simp [Mem.getMany, sramAddr, Nat.add_assoc]

theorem granuleCopied_outside {c : Nat} (hc : c < t.myCore * 524288 + x * 256 ∨ t.myCore * 524288 + x * 256 + 256 ≤ c) :
    (granuleCopied t w g x).memory.sram.get c = t.memory.sram.get c := by
  rw [granuleCopied_sram g x hw]
  exact Mem.get_setMany_ne _ _ (by rw [getMany_length]; exact hc)

end Granule

/-! ### Scalar stores -/

/-- A write of the thread's own 4 KiB map, or of its pc, changes no reading of a register. -/
theorem sameView_modMe {s : State} {f : Thread → Thread} (h : (s.thr? s.cur).isSome = true) (hr : (f s.me).regs = s.me.regs)
    (hk : (f s.me).kind = s.me.kind) : SameView s (s.modMe f) where
  cur := State.modMe_cur s f
  regs := (congrArg Thread.regs (State.modMe_me f h)).trans hr
  kind := (congrArg Thread.kind (State.modMe_me f h)).trans hk
  formes := by rw [core_congr (State.modMe_cores s f)]

theorem SameView.trans {s u v : State} (h : SameView s u) (h' : SameView u v) : SameView s v where
  cur := h'.cur.trans h.cur
  regs := h'.regs.trans h.regs
  kind := h'.kind.trans h.kind
  formes := by
    have hcore : u.myCore = s.myCore := myCore_congr h.cur
    rw [← h.formes, ← hcore, h'.formes]

theorem writeLoc_cur (s : State) (part hint : Nat) (l : Loc) (bs : List Byte) : (s.writeLoc part hint l bs).cur = s.cur :=
  writeLoc_keeps ⟨fun _ _ _ => rfl, fun _ _ => rfl, fun _ _ => rfl, fun _ _ => rfl, fun _ _ _ _ => rfl⟩ s part hint l bs

theorem writeLoc_me (s : State) (part hint : Nat) (l : Loc) (bs : List Byte) : (s.writeLoc part hint l bs).me = s.me :=
  me_congr (writeLoc_keeps offMemory_threads s part hint l bs) (writeLoc_cur s part hint l bs)

theorem sameView_writeLoc (s : State) (part hint : Nat) (l : Loc) (bs : List Byte) : SameView s (s.writeLoc part hint l bs) where
  cur := writeLoc_cur s part hint l bs
  regs := congrArg Thread.regs (writeLoc_me s part hint l bs)
  kind := congrArg Thread.kind (writeLoc_me s part hint l bs)
  formes := by rw [core_congr (writeLoc_cores s part hint l bs)]

theorem leBytes_ne_nil {n : Nat} (hn : ScalarSize n) (w : Nat) : leBytes n w ≠ [] := by
  rw [← List.length_pos_iff, leBytes_length]
  rcases hn with rfl | rfl | rfl <;> decide

section Scalar

variable {i : Instr} {s t : State} {d a : BitVec 5} {seg : BitVec 3} {imm : BitVec 10} {n : Nat} {addr : Addr}
  (hi : exec i s = s.scalarStore d a seg imm n) (h : Ready s [.s a.toNat, .s d.toNat])
  (ht : t = s.consumeAll [.s a.toNat, .s d.toNat]) (hn : ScalarSize n)
  (ha : addr = t.segAddr seg.toNat ((t.rS a.toNat).toNat + imm.toInt * n))
  (hc : t.checkAccess seg.toNat ((t.rS a.toNat).toNat + imm.toInt * n) n 2 n (if n = 4 then [0, 1, 3] else [0, 1]) = none)
include hi h ht hn ha hc

/-- A scalar store that passes its checks stores one piece. -/
theorem scalarStore_checked : exec i s =
    .next (s.finish (t.storeFrom seg.toNat [onePiece addr n (leBytes n (t.rS d.toNat).toNat)])) := by
  have hal := aligned_of_checkAccess hc
  rw [← ha] at hal
  have hreqs : storeReqs addr (leBytes n (t.rS d.toNat).toNat) = [onePiece addr n (leBytes n (t.rS d.toNat).toNat)] :=
    storeReqs_scalar hn hal (leBytes_length _ _)
  rw [hi, State.scalarStore, State.perform_ready _ h.1 h.2, ← ht]
  dsimp only [offsetOf, scalarSpaces, rgtW]
  rw [hc, ← ha, hreqs]

/-- In the own TCM a store is a write of its bytes, or traps where the template has no granule left. -/
theorem scalarStore_own {o : Nat} (hslot : s.cur < imageBase) (htarget : t.target addr = .own o)
    (hm : (t.core t.myCore).movingBytes o n = false) :
    (t.tcmWrite t.cur o = none → exec i s = traps s 10 addr)
    ∧ (∀ u o' fault, t.tcmWrite t.cur o = some (u, o', fault) → exec i s = done s
        ((claimed t u o fault).writeLoc t.myPart 0 (.sram t.myCore o') (leBytes n (t.rS d.toNat).toNat))) := by
  have hslot' : t.cur < imageBase := by rw [ht, consumeAll_cur]; exact hslot
  rw [scalarStore_checked hi h ht hn ha hc, storeFrom_own htarget hm (leBytes_ne_nil hn _), writeOwn_cur o _ hslot']
  refine ⟨fun hnone => ?_, fun u o' fault hsome => ?_⟩
  · rw [hnone]; rfl
  · rw [hsome]; rfl

end Scalar

/-- The instruction forms of a scalar store, with the size of each. -/
theorem exec_of_mem_stores {s : State} {d a : BitVec 5} {seg : BitVec 3} {imm : BitVec 10} {p : Instr × Nat}
    (hp : p ∈ ([(.stb d a seg imm, 1), (.sth d a seg imm, 2), (.stw d a seg imm, 4)] : List (Instr × Nat))) :
    exec p.1 s = s.scalarStore d a seg imm p.2 ∧ ScalarSize p.2 := by
  simp only [List.mem_cons, List.not_mem_nil, or_false] at hp
  rcases hp with rfl | rfl | rfl
  · exact ⟨exec_stb s, .inl rfl⟩
  · exact ⟨exec_sth s, .inr (.inl rfl)⟩
  · exact ⟨exec_stw s, .inr (.inr rfl)⟩

/-- The offset of an aligned access of the own TCM is aligned. -/
theorem own_aligned {t : State} {a : Addr} {n o : Nat} (hn : ScalarSize n) (h : t.target a = .own o) (ha : a.toNat % n = 0) :
    o % n = 0 := by
  have ho : o = a.toNat % 2 ^ 19 := by
    unfold State.target at h
    split at h
    · cases h
    · split at h
      · exact (Target.own.inj h).symm.trans (fieldOf_zero a 19)
      · cases h
    · cases h
  rw [ho]
  rcases hn with rfl | rfl | rfl <;> omega

/-! ### What a scalar store leaves -/

theorem markWritten_eq {t : State} (hslot : t.cur < imageBase) (o : Nat) :
    t.markWritten t.cur o = t.modMe fun x => { x with written := setBit x.written (o / 4096) true } := modAny_slot _ _ hslot

section Left

variable {t u : State} {o n : Nat} {w pc : Word} (hthread : (t.thr? t.cur).isSome = true) (hslot : t.cur < imageBase)
  (hu : u = ((t.markWritten t.cur o).writeLoc t.myPart 0 (.sram t.myCore o) (leBytes n w.toNat)).setPc pc)

include hu in
theorem stored_memory : u.memory = ((t.markWritten t.cur o).sramWrite t.myCore o (leBytes n w.toNat)).memory := by
  rw [hu, setPc_memory, writeLoc_sram_memory]

include hslot in
theorem liveCounter_markWritten (c k : Nat) : (t.markWritten t.cur o).liveCounter c k = t.liveCounter c k :=
  liveCounter_congr (by rw [markWritten_eq hslot, State.modMe_pkg]) c k

include hslot in
theorem markWritten_memory : (t.markWritten t.cur o).memory = t.memory := by rw [markWritten_eq hslot, State.modMe_memory]

include hslot hu

theorem stored_sram_live (hn : ScalarSize n) (ho : o % n = 0) (h : t.liveCounter t.myCore o ≠ none) :
    u.memory.sram = t.memory.sram := by
  rw [stored_memory hu, sramWrite_sram_live _ _ _ _ (by rwa [liveCounter_markWritten hslot]) fun i hi => ?_,
    markWritten_memory hslot]
  rwa [liveCounter_markWritten hslot, liveCounter_word t _ hn ho (by simpa using hi)]

theorem stored_sram_free (hn : ScalarSize n) (ho : o % n = 0) (h : t.liveCounter t.myCore o = none) :
    u.memory.sram = t.memory.sram.setMany (sramAddr t.myCore o) (leBytes n w.toNat) := by
  rw [stored_memory hu, sramWrite_sram_free _ _ _ _ fun i hi => ?_, markWritten_memory hslot]
  rwa [liveCounter_markWritten hslot, liveCounter_word t _ hn ho (by simpa using hi)]

theorem stored_elsewhere :
    u.memory.stack = t.memory.stack ∧ u.memory.pool = t.memory.pool ∧ u.memory.host = t.memory.host := by
  rw [stored_memory hu, ← markWritten_memory hslot (o := o)]
  exact sramWrite_elsewhere _ _ _ _

theorem stored_outside (hn : ScalarSize n) (ho : o % n = 0) {c : Nat}
    (hc : c < t.myCore * 524288 + o ∨ t.myCore * 524288 + o + n ≤ c) : u.memory.sram.get c = t.memory.sram.get c := by
  by_cases h : t.liveCounter t.myCore o = none
  · rw [stored_sram_free hslot hu hn ho h]
    exact Mem.get_setMany_ne _ _ (by rw [leBytes_length]; exact hc)
  · rw [stored_sram_live hslot hu hn ho h]

include hthread

theorem stored_view : SameView t u ∧ u.me.pc = pc := by
  have hwrite := sameView_writeLoc (t.markWritten t.cur o) t.myPart 0 (.sram t.myCore o) (leBytes n w.toNat)
  have hview : SameView t ((t.markWritten t.cur o).writeLoc t.myPart 0 (.sram t.myCore o) (leBytes n w.toNat)) := by
    refine SameView.trans ?_ hwrite
    rw [markWritten_eq hslot]
    exact sameView_modMe hthread rfl rfl
  have hstands : (((t.markWritten t.cur o).writeLoc t.myPart 0 (.sram t.myCore o) (leBytes n w.toNat)).thr?
      ((t.markWritten t.cur o).writeLoc t.myPart 0 (.sram t.myCore o) (leBytes n w.toNat)).cur).isSome = true := by
    rw [hview.cur, thr?_congr (writeLoc_keeps offMemory_threads _ _ _ _ _), markWritten_eq hslot, State.modMe_isSome]
    exact hthread
  rw [hu]
  exact ⟨hview.trans (sameView_modMe hstands rfl rfl), congrArg Thread.pc (State.modMe_me _ hstands)⟩

theorem stored_tcmByte (hm : t.memory.sram.wf = true) (hn : ScalarSize n) (ho : o % n = 0)
    (h : t.liveCounter t.myCore o = none) {c : Nat} (hc : c < n) : tcmByte u (o + c) = w.extractLsb' (8 * c) 8 := by
  have hlen : c < (leBytes n w.toNat).length := by rwa [leBytes_length]
  have hat : t.myCore * 524288 + (o + c) = sramAddr t.myCore o + c := by rw [sramAddr, Nat.add_assoc]
  rw [tcmByte, myCore_congr (stored_view hthread hslot hu).1.cur, stored_sram_free hslot hu hn ho h, hat,
    Mem.get_setMany _ _ _ _ hm hlen, getElem_leBytes_word]

end Left

/-- What a scalar store of `n` bytes to offset `o` of the own TCM leaves (R83, R190). -/
def Stored (s t : State) (n o : Nat) (w : Word) (u : State) : Prop :=
  (t.liveCounter t.myCore o = none → ∀ c, c < n → tcmByte u (o + c) = w.extractLsb' (8 * c) 8)
  ∧ (t.liveCounter t.myCore o ≠ none → u.memory.sram = s.memory.sram)
  ∧ (∀ c, c < t.myCore * 524288 + o ∨ t.myCore * 524288 + o + n ≤ c → u.memory.sram.get c = s.memory.sram.get c)
  ∧ u.memory.stack = s.memory.stack ∧ u.memory.pool = s.memory.pool ∧ u.memory.host = s.memory.host
  ∧ u.me.pc = s.me.pc + 4
  ∧ ∀ m, u.rS m = t.rS m ∧ u.rV m = t.rV m ∧ u.rK m = t.rK m

section Scalar

variable {i : Instr} {s t : State} {d a : BitVec 5} {seg : BitVec 3} {imm : BitVec 10} {n : Nat} {addr : Addr}
  (hi : exec i s = s.scalarStore d a seg imm n) (h : Ready s [.s a.toNat, .s d.toNat])
  (ht : t = s.consumeAll [.s a.toNat, .s d.toNat]) (hn : ScalarSize n)
  (ha : addr = t.segAddr seg.toNat ((t.rS a.toNat).toNat + imm.toInt * n))
include hi h ht hn ha

theorem scalarStore_stored (hslot : s.cur < imageBase) (hm : MemoryOk s) {o : Nat}
    (hown : OwnTcm t seg.toNat ((t.rS a.toNat).toNat + imm.toInt * n) n 2 n (if n = 4 then [0, 1, 3] else [0, 1]) o) :
    ∃ u, exec i s = .next u ∧ Stored s t n o (t.rS d.toNat) u := by
  obtain ⟨hc, htarget, hmoving, hg⟩ := hown
  rw [← ha] at htarget
  have hcur : t.cur = s.cur := by rw [ht, consumeAll_cur]
  have hslot' : t.cur < imageBase := by rw [hcur]; exact hslot
  have hthread : (t.thr? t.cur).isSome = true := by rw [hcur, ht, consumeAll_isSome]; exact h.1
  have hmemory : t.memory = s.memory := by rw [ht, consumeAll_memory]
  have hsram : t.memory.sram.wf = true := by rw [hmemory]; exact ((Memory.wf_iff _).1 hm).1
  have ho : o % n = 0 := own_aligned hn htarget (by rw [ha]; exact aligned_of_checkAccess hc)
  have hclaimed : claimed t t o false = t.markWritten t.cur o := by
    unfold claimed
    rw [hg]
    rfl
  have hexec := (scalarStore_own hi h ht hn ha hc hslot htarget hmoving).2 t o false (tcmWrite_outside hg)
  rw [hclaimed] at hexec
  obtain ⟨hview, hpc⟩ := stored_view (u := _) (n := n) (w := t.rS d.toNat) hthread hslot' rfl
  refine ⟨_, hexec, fun hlive c hcn => stored_tcmByte hthread hslot' rfl hsram hn ho hlive hcn, fun hlive => ?_,
    fun c hc => ?_, ?_, ?_, ?_, hpc, fun m => ⟨rS_congr hview m, rV_congr hview m, rK_congr hview m⟩⟩
  · rw [stored_sram_live hslot' rfl hn ho hlive, hmemory]
  · rw [stored_outside hslot' rfl hn ho hc, hmemory]
  · rw [(stored_elsewhere hslot' rfl).1, hmemory]
  · rw [(stored_elsewhere hslot' rfl).2.1, hmemory]
  · rw [(stored_elsewhere hslot' rfl).2.2, hmemory]

end Scalar

/-- Settles O8: a store to the own TCM is a write of the register's low bytes where it finds its place; any other store is
one piece that leaves the core. -/
theorem scalarStores : Obligations.ScalarStores := by
  unfold Obligations.ScalarStores
  intro s d a seg imm o h hslot hm t off stored
  have hcur : t.cur = s.cur := consumeAll_cur _ _
  have hslot' : t.cur < imageBase := hcur ▸ hslot
  have hthread : (t.thr? t.cur).isSome = true := by rw [hcur, consumeAll_isSome]; exact h.1
  have hsram : t.memory.sram.wf = true := by rw [consumeAll_memory]; exact ((Memory.wf_iff _).1 hm).1
  refine ⟨fun hown => scalarStore_stored (exec_stb s) h rfl (.inl rfl) rfl hslot hm hown,
    fun hown => scalarStore_stored (exec_sth s) h rfl (.inr (.inl rfl)) rfl hslot hm hown,
    fun hown => scalarStore_stored (exec_stw s) h rfl (.inr (.inr rfl)) rfl hslot hm hown,
    fun g f launch sz n i b c hg hw hk => ?template, fun p hp => ?place⟩
  case template =>
    refine ⟨fun x hx => tcmWrite_owned hthread hslot' hg hw hk hx, fun hx => ?_⟩
    have htakes := tcmWrite_takes hthread hslot' hg hw hk hx
    refine ⟨fun hnone => by rw [htakes, hnone]; rfl, fun x w hx' hne => ?_⟩
    obtain ⟨fc, hfc⟩ := takeGranule_modCore hx'
    have hme := granuleCopied_me g x hfc hthread
    refine ⟨granuleCopied t w g x, by rw [htakes, hx']; rfl, ?_, fun k hk => ?_, fun c => granuleCopied_tcmByte g x hfc hsram,
      fun c => granuleCopied_wordFull g x hfc hne, fun c => granuleCopied_outside g x hfc, ?_, ?_⟩
    · rw [hme]
      exact Tab.look_put_self _ _ _
    · rw [hme]
      exact Tab.look_put_ne _ _ hk
    · rw [hme]
    · rw [hme]
  case place =>
    obtain ⟨hi, hn⟩ := exec_of_mem_stores (s := s) hp
    intro n addr bytes g asks hc
    have hchecked := scalarStore_checked hi h rfl hn rfl hc
    refine ⟨fun hat => scalarStore_own hi h rfl hn rfl hc hslot hat.2.1 hat.2.2,
      fun c w htarget => ⟨fun hroom => ?asked, fun hroom => ?waits⟩, fun va htarget => ⟨fun hwin => ?window,
      fun hwin v e hv => ⟨fun hcache hroom => ?uncached, fun hcache he hroom => ?cached⟩⟩⟩
    case asked => rw [hchecked, storeFrom_core htarget hthread, if_pos hroom]; rfl
    case waits => rw [hchecked, storeFrom_core htarget hthread, if_neg hroom]; rfl
    case window => rw [hchecked, storeFrom_window htarget hwin]; rfl
    case uncached =>
      rw [hchecked, storeFrom_uncached htarget hwin hv (by rwa [has_cache_eq]) rfl hroom]
      rfl
    case cached =>
      rw [hchecked, storeFrom_cached htarget hwin hv (by rwa [has_cache_eq]) he (leBytes_ne_nil hn _) rfl hroom]
      rfl

end Sys2Proof.Proofs
end

section
/-!
PROOFS. Synchronising accesses and FECLR (R192-R195).
-/

namespace Sys2Proof.Proofs

open Sys2Proof Sys2Proof.Machine Sys2Proof.Cert

/-! ### The queues of a word (R193) -/

/-- At a word at which nothing waits there is nothing to serve. -/
theorem serve_of_empty {t : State} {c o : Nat} (h : t.syncQueues c o = {}) : t.serve c o = t := by
  rw [State.serve, h]
  change State.serveWord 1 t c o = t
  rw [State.serveWord, h]
  split <;> rfl

@[simp] theorem setWordFull_syncQueues (t : State) (c o : Nat) (b : Bool) (c' o' : Nat) :
    (t.setWordFull c o b).syncQueues c' o' = t.syncQueues c' o' := rfl

@[simp] theorem writeLoc_sram_syncQueues (t : State) (part hint core o : Nat) (bs : List Byte) (c' o' : Nat) :
    (t.writeLoc part hint (.sram core o) bs).syncQueues c' o' = t.syncQueues c' o' := by
  rw [State.syncQueues, writeLoc_sram_memory, State.sramWrite]
  split <;> rfl

/-- Where no live task counts, an access at a word at which nothing waits goes now if the word's bit lets it. -/
theorem syncNow_of_empty {t : State} {c o : Nat} (hl : t.liveCounter c o = none) (hq : t.syncQueues c o = {}) (op : SyncOp) :
    t.syncNow c o op = match op with
      | .ldfe | .ldff => t.wordFull c o
      | .stfe => !t.wordFull c o
      | .stff => true := by
  cases op <;> simp [State.syncNow, hl, hq]

theorem syncNow_load_waits {t : State} {c o : Nat} {op : SyncOp} (hl : t.liveCounter c o = none) (hw : t.wordFull c o = false)
    (hop : op = .ldfe ∨ op = .ldff) : t.syncNow c o op = false := by
  rcases hop with rfl | rfl <;> simp [State.syncNow, hl, hw]

theorem syncNow_stfe_waits {t : State} {c o : Nat} (hl : t.liveCounter c o = none) (hw : t.wordFull c o = true) :
    t.syncNow c o .stfe = false := by
  simp [State.syncNow, hl, hw]

/-- A request that waits stands at the tail of its queue, and the words stay. -/
theorem syncWait_queues (t : State) (c o : Nat) (r : SyncReq) : (t.syncWait c o r).syncQueues c o =
    if r.op.store then { t.syncQueues c o with empty := (t.syncQueues c o).empty ++ [r] }
    else { t.syncQueues c o with full := (t.syncQueues c o).full ++ [r] } := by
  unfold State.syncWait State.setSyncQueues
  cases r.op.store <;> simp [State.syncQueues, State.modMemory]

theorem syncWait_sram (t : State) (c o : Nat) (r : SyncReq) : (t.syncWait c o r).memory.sram = t.memory.sram := by
  unfold State.syncWait State.setSyncQueues
  dsimp only [State.modMemory]
  cases r.op.store <;> simp

theorem syncWait_cur (t : State) (c o : Nat) (r : SyncReq) : (t.syncWait c o r).cur = t.cur := rfl

theorem tcmWord_eq (t : State) (o : Nat) : t.tcmWord t.myCore o = tcmWordAt t o := by
  rw [State.tcmWord, sramRead_four]
  exact (BitVec.ofNat_toNat 32 _).trans (BitVec.setWidth_eq _)

/-! ### One access (R192-R194) -/

/-- The request of a synchronising access. -/
def syncReq (t : State) (op : SyncOp) (d : Nat) (addr : Addr) (scope : Scope) : SyncReq :=
  ⟨t.cur, op, if op.store then 0 else d, t.rS d, false, t.me.pc, addr, scope⟩

/-- The rights that a synchronising access needs: S, and R or W. -/
theorem syncRights (op : SyncOp) : (rgtS + if op.store then rgtW else rgtR) = if op.store then 18 else 17 := by
  cases op <;> rfl

section Access

variable {i : Instr} {s t0 t : State} {op : SyncOp} {d a : BitVec 5} {seg : BitVec 3} {imm : BitVec 10} {addr : Addr}
  (hi : exec i s = s.syncAccess op d a seg imm)
  (h : Ready s (if op.store then [.s a.toNat, .s d.toNat] else [.s a.toNat, .d d.toNat]))
  (ht0 : t0 = s.consumeAll (if op.store then [.s a.toNat, .s d.toNat] else [.s a.toNat, .d d.toNat]))
  (ha : addr = t0.segAddr seg.toNat ((t0.rS a.toNat).toNat + imm.toInt * 4))
  (hc : t0.checkAccess seg.toNat ((t0.rS a.toNat).toNat + imm.toInt * 4) 4 (if op.store then 18 else 17) 4 [1] = none)
  (hrel : op.store = true → t0.relWait = none) (ht : t = if op.store then t0.sendAll else t0)
include hi h ht0 ha hc hrel ht

/-- An access that passes its checks: in the own TCM the place that a write reaches decides (R107-R109); at a word of
another core a store, and a load from another storey, is one request. -/
theorem syncAccess_checked :
    (∀ o, t.target addr = .own o → (t.core t.myCore).movingBytes o 4 = false → t.tcmWrite t.cur o = none →
      exec i s = traps s 10 addr)
    ∧ (∀ o u o' fault v r, t.target addr = .own o → (t.core t.myCore).movingBytes o 4 = false →
      t.tcmWrite t.cur o = some (u, o', fault) → r = syncReq t op d.toNat addr (t0.seg seg.toNat).scope →
      v = (if (t.granuleAt t.cur o).isSome || !op.store then (if fault then u.copyFault else u)
        else (if fault then u.copyFault else u).markWritten t.cur o) →
      (v.syncNow t.myCore o' op = true → exec i s = done s (if op.store then (v.syncAt t.myCore o' r).serve t.myCore o'
        else (((v.syncAt t.myCore o' r).serve t.myCore o').wS d.toNat (v.tcmWord t.myCore o')).acquire v.myCore
          (t0.seg seg.toNat).scope))
      ∧ (v.syncNow t.myCore o' op = false → exec i s = holds s (v.syncWait t.myCore o' r) (.reply 0)))
    ∧ (∀ c o, t.target addr = .core c o → op.store = false → storeyOf c ≠ storeyOf t.myCore → exec i s =
      holds s (t.send .request t.myCore c (.sync (syncReq t op d.toNat addr (t0.seg seg.toNat).scope) c o)) (.reply t.nextAct))
    ∧ (∀ c o, t.target addr = .core c o → op.store = true → t.unackWait = none → exec i s =
      done s ((t.addUnack t.cur).send .request t.myCore c (.sync
        { syncReq t op d.toNat addr (t0.seg seg.toNat).scope with remote := true } c o))) := by
  have hwait : (if op.store then t0.relWait else none) = none := by
    split
    case isTrue hs => exact hrel hs
    case isFalse => rfl
  rw [hi, State.syncAccess, State.perform_ready _ h.1 h.2, ← ht0]
  dsimp only [offsetOf]
  rw [syncRights, Nat.cast_ofNat, hc, ← ha]
  dsimp only
  rw [hwait]
  dsimp only
  rw [← ht]
  refine ⟨fun o htarget hm hnone => ?_, fun o u o' fault v r htarget hm hsome hr hv => ?_, fun c o htarget hs hfar => ?_,
    fun c o htarget hs hroom => ?_⟩
  · rw [htarget]
    dsimp only
    rw [hm, if_neg Bool.false_ne_true, hnone]
    rfl
  · rw [htarget]
    dsimp only
    rw [hm, if_neg Bool.false_ne_true, hsome]
    dsimp only
    rw [← hv]
    refine ⟨fun hnow => ?_, fun hnow => ?_⟩
    · rw [hnow, hr, if_pos rfl]
      cases op.store <;> rfl
    · rw [hnow, hr]
      rfl
  · have haway : (op.store || !t.inMyStorey c || t.flowBusy c) = true := by simp [State.inMyStorey, hfar]
    rw [htarget]
    dsimp only
    rw [if_pos haway, syncReq, hs]
    rfl
  · rw [htarget]
    dsimp only
    rw [syncReq, hs, hroom]
    rfl

end Access

/-! ### Accesses of a word at which nothing waits -/

section Here

variable {i : Instr} {s t : State} {op : SyncOp} {d a : BitVec 5} {seg : BitVec 3} {imm : BitVec 10} {o : Nat}

/-- LDFE and LDFF of a full word (R192). -/
theorem syncLoad_here (hi : exec i s = s.syncAccess op d a seg imm) (hop : op = .ldfe ∨ op = .ldff)
    (h : Ready s [.s a.toNat, .d d.toNat]) (ht : t = s.consumeAll [.s a.toNat, .d d.toNat])
    (hhere : SyncHere t seg.toNat ((t.rS a.toNat).toNat + imm.toInt * 4) 17 o) (hfull : t.wordFull t.myCore o = true) :
    exec i s = done s (((if op = .ldfe then t.setWordFull t.myCore o false else t).wS d.toNat (tcmWordAt t o)).acquire t.myCore
      (t.seg seg.toNat).scope) := by
  obtain ⟨⟨hc, htarget, hm, hg⟩, hl, hq⟩ := hhere
  have hs : op.store = false := by rcases hop with rfl | rfl <;> rfl
  have hnow : t.syncNow t.myCore o op = true := by
    rw [syncNow_of_empty hl hq]
    rcases hop with rfl | rfl <;> exact hfull
  have hat (r : SyncReq) (hr : r.op = op) : (t.syncAt t.myCore o r).serve t.myCore o =
      if op = .ldfe then t.setWordFull t.myCore o false else t := by
    rw [State.syncAt, hl, hr]
    rcases hop with rfl | rfl <;> exact serve_of_empty hq
  obtain ⟨-, hown, -⟩ := syncAccess_checked (t0 := t) (t := t) hi (by rw [hs]; exact h) (by rw [hs]; exact ht) rfl
    (by rw [hs]; exact hc) (fun e => absurd (hs.symm.trans e) Bool.false_ne_true) (by rw [hs]; rfl)
  have hexec := (hown o t o false t _ htarget hm (tcmWrite_outside hg) rfl (by rw [hs]; simp)).1 hnow
  rw [hs, if_neg Bool.false_ne_true, hat _ rfl, tcmWord_eq] at hexec
  exact hexec

/-- A store's word once what the core combines is sent and the 4 KiB of the word are marked. -/
theorem sendAll_markWritten (hslot : t.cur < imageBase) : (t.sendAll.markWritten t.cur o).memory = t.memory
    ∧ (t.sendAll.markWritten t.cur o).cur = t.cur ∧ (t.sendAll.markWritten t.cur o).pkg = t.pkg
    ∧ ((t.sendAll.markWritten t.cur o).thr? t.cur).isSome = (t.thr? t.cur).isSome := by
  rw [State.markWritten, modAny_slot _ _ hslot]
  refine ⟨?_, ?_, ?_, ?_⟩
  · rw [State.modThr_memory, sendAll_memory]
  · rw [State.modThr_cur, sendAll_cur]
  · rw [State.modThr_pkg, sendAll_pkg]
  · rw [modThr_isSome, sendAll_isSome]

section StoreHere

variable (hi : exec i s = s.syncAccess op d a seg imm) (hs : op.store = true)
  (h : Ready s [.s a.toNat, .s d.toNat]) (ht : t = s.consumeAll [.s a.toNat, .s d.toNat])
  (hown : OwnTcm t seg.toNat ((t.rS a.toNat).toNat + imm.toInt * 4) 4 18 4 [1] o) (hrel : t.relWait = none)
include hi hs h ht hown hrel

/-- STFE and STFF of an own word outside the template window: performed once the core's stores are sent, or waiting. -/
theorem syncStore_own {v : State} {r : SyncReq} (hv : v = t.sendAll.markWritten t.cur o)
    (hr : r = syncReq t.sendAll op d.toNat (t.segAddr seg.toNat ((t.rS a.toNat).toNat + imm.toInt * 4)) (t.seg seg.toNat).scope) :
    (v.syncNow t.myCore o op = true → exec i s = done s ((v.syncAt t.myCore o r).serve t.myCore o))
    ∧ (v.syncNow t.myCore o op = false → exec i s = holds s (v.syncWait t.myCore o r) (.reply 0)) := by
  obtain ⟨hc, htarget, hm, hg⟩ := hown
  have hcore : t.sendAll.myCore = t.myCore := myCore_congr (sendAll_cur t)
  have hg' : t.sendAll.granuleAt t.sendAll.cur o = none := by rw [sendAll_cur, sendAll_granuleAt, hg]
  obtain ⟨-, hplace, -⟩ := syncAccess_checked (t0 := t) (t := t.sendAll) hi (by rw [hs]; exact h) (by rw [hs]; exact ht) rfl
    (by rw [hs]; exact hc) (fun _ => hrel) (by rw [hs]; rfl)
  have hexec := hplace o t.sendAll o false v r (by rw [target_congr (sendAll_cur t), htarget])
    (by rw [sendAll_movingBytes, hcore, hm]) (tcmWrite_outside hg') hr (by rw [hg', hs, hv, sendAll_cur]; simp)
  rw [hcore, hs, if_pos rfl] at hexec
  exact hexec

variable (hslot : s.cur < imageBase)
include hslot

/-- Where no live task counts and nothing waits, the access leaves the word written and full. -/
theorem syncStore_here (hl : t.liveCounter t.myCore o = none) (hq : t.syncQueues t.myCore o = {})
    (hbit : op = .stfe → t.wordFull t.myCore o = false) :
    exec i s = done s (((t.sendAll.markWritten t.cur o).setWordFull t.myCore o true).writeLoc t.myPart 0 (.sram t.myCore o)
      (leBytes 4 (t.rS d.toNat).toNat)) := by
  have hslot' : t.cur < imageBase := by rw [ht, consumeAll_cur]; exact hslot
  obtain ⟨hmem, hcur, hpkg, -⟩ := sendAll_markWritten (o := o) hslot'
  have hlive : (t.sendAll.markWritten t.cur o).liveCounter t.myCore o = none := by rw [liveCounter_congr hpkg, hl]
  have hqueues : (t.sendAll.markWritten t.cur o).syncQueues t.myCore o = {} := by rw [syncQueues_congr hmem, hq]
  have hpart : ((t.sendAll.markWritten t.cur o).partOf t.myCore).getD 16 = t.myPart := by rw [partOf_congr hpkg]; rfl
  have hvalue : t.sendAll.rS d.toNat = t.rS d.toNat := rS_congr (sendAll_sameView t) _
  have hnow : (t.sendAll.markWritten t.cur o).syncNow t.myCore o op = true := by
    rw [syncNow_of_empty hlive hqueues, wordFull_congr hmem]
    cases op
    case ldfe => cases hs
    case ldff => cases hs
    case stfe => exact congrArg (!·) (hbit rfl)
    case stff => rfl
  have hat (r : SyncReq) (hr : r.op = op) (hw : r.value = t.rS d.toNat) :
      (t.sendAll.markWritten t.cur o).syncAt t.myCore o r = ((t.sendAll.markWritten t.cur o).setWordFull t.myCore o true).writeLoc
        t.myPart 0 (.sram t.myCore o) (leBytes 4 (t.rS d.toNat).toNat) := by
    rw [State.syncAt, hlive, hr, hw, hpart]
    cases op
    case ldfe => cases hs
    case ldff => cases hs
    case stfe => rfl
    case stff => rfl
  rw [(syncStore_own hi hs h ht hown hrel rfl rfl).1 hnow, hat _ rfl hvalue, serve_of_empty]
  rw [writeLoc_sram_syncQueues, setWordFull_syncQueues, hqueues]

end StoreHere

end Here

/-! ### Accesses that wait (R193) -/

/-- An access that waits stands at the tail of its queue, and its thread waits past it; the words stay. -/
theorem holds_syncWait {s v : State} (hthread : (v.thr? v.cur).isSome = true) (c o : Nat) (r : SyncReq) :
    ∃ u, holds s (v.syncWait c o r) (.reply 0) = .next u ∧ u.syncQueues c o = (v.syncWait c o r).syncQueues c o
      ∧ u.memory.sram = v.memory.sram ∧ u.me.pc = s.me.pc + 4 ∧ u.me.park = some (.reply 0) := by
  have hme := State.modMe_me (s := v.syncWait c o r) (fun x => { x with pc := s.me.pc + 4, recs := [], park := some (.reply 0) })
    hthread
  refine ⟨_, rfl, ?_, ?_, ?_, ?_⟩
  · exact syncQueues_congr (State.modMe_memory _ _) c o
  · exact (congrArg Memory.sram (State.modMe_memory _ _)).trans (syncWait_sram v c o r)
  · exact congrArg Thread.pc hme
  · exact congrArg Thread.park hme

/-! ### FECLR (R195) -/

section Feclr

variable {s t : State} {seg : BitVec 3} {a b : BitVec 5} (h : Ready s [.s a.toNat, .s b.toNat])
  (ht : t = s.consumeAll [.s a.toNat, .s b.toNat])
include h ht

theorem feclr_none (hn : t.rS b.toNat = 0) : exec (.feclr seg a b) s = done s t := by
  rw [exec_feclr, execFeclr, State.perform_ready _ h.1 h.2, ← ht]
  dsimp only
  rw [hn]
  rfl

theorem feclr_away {c o : Nat} (hn : (t.rS b.toNat).toNat ≠ 0)
    (hc : t.checkAccess seg.toNat (t.rS a.toNat).toNat (4 * (t.rS b.toNat).toNat) 18 4 [1] = none)
    (htarget : t.target (t.segAddr seg.toNat (t.rS a.toNat).toNat) = .core c o) (hroom : t.unackWait = none) :
    exec (.feclr seg a b) s =
      done s ((t.addUnack t.cur).send .request t.myCore c (.feclr t.cur c o (t.rS b.toNat).toNat)) := by
  rw [exec_feclr, execFeclr, State.perform_ready _ h.1 h.2, ← ht]
  dsimp only [rgtW, rgtS]
  rw [if_neg hn, hc, htarget, hroom]
  rfl

/-- One own word at which nothing waits is left empty. -/
theorem feclr_here {o : Nat} (hslot : s.cur < imageBase) (hn : t.rS b.toNat = 1)
    (hhere : SyncHere t seg.toNat (t.rS a.toNat).toNat 18 o) :
    exec (.feclr seg a b) s = done s ((t.markWritten t.cur o).setWordFull t.myCore o false) := by
  obtain ⟨⟨hc, htarget, hm, hg⟩, hl, hq⟩ := hhere
  have hslot' : t.cur < imageBase := by rw [ht, consumeAll_cur]; exact hslot
  have hserve : ((t.markWritten t.cur o).setWordFull t.myCore o false).serve t.myCore o =
      (t.markWritten t.cur o).setWordFull t.myCore o false := by
    refine serve_of_empty ?_
    rw [setWordFull_syncQueues, syncQueues_congr (markWritten_memory hslot'), hq]
  have hclear : State.clearOwn 1 t o = some ((t.markWritten t.cur o).setWordFull t.myCore o false) := by
    rw [State.clearOwn, tcmWrite_outside hg]
    simp [hg, State.clearOwn, State.clearWords, liveCounter_markWritten hslot', hl, hserve]
  have hone : (t.rS b.toNat).toNat = 1 := by rw [hn]; rfl
  rw [exec_feclr, execFeclr, State.perform_ready _ h.1 h.2, ← ht]
  dsimp only [rgtW, rgtS]
  rw [hone, if_neg Nat.one_ne_zero, Nat.mul_one, hc, htarget]
  dsimp only
  rw [hm, if_neg Bool.false_ne_true, hclear]
  rfl

end Feclr

/-! ### Accesses that wait, and those in the template window or away -/

section Waits

variable {i : Instr} {s t : State} {op : SyncOp} {d a : BitVec 5} {seg : BitVec 3} {imm : BitVec 10} {o : Nat}

/-- LDFE and LDFF of an empty word. -/
theorem syncLoad_waits (hi : exec i s = s.syncAccess op d a seg imm) (hop : op = .ldfe ∨ op = .ldff)
    (h : Ready s [.s a.toNat, .d d.toNat]) (ht : t = s.consumeAll [.s a.toNat, .d d.toNat])
    (hown : OwnTcm t seg.toNat ((t.rS a.toNat).toNat + imm.toInt * 4) 4 17 4 [1] o) (hl : t.liveCounter t.myCore o = none)
    (hw : t.wordFull t.myCore o = false) :
    ∃ u r, exec i s = .next u ∧ r.slot = t.cur ∧ r.op = op ∧ r.d = d.toNat
      ∧ (u.syncQueues t.myCore o).full = (t.syncQueues t.myCore o).full ++ [r]
      ∧ u.memory.sram = s.memory.sram ∧ u.me.pc = s.me.pc + 4 ∧ u.me.park = some (.reply 0) := by
  obtain ⟨hc, htarget, hm, hg⟩ := hown
  have hs : op.store = false := by rcases hop with rfl | rfl <;> rfl
  have hthread : (t.thr? t.cur).isSome = true := by rw [ht, consumeAll_cur, consumeAll_isSome]; exact h.1
  have hmemory : t.memory = s.memory := by rw [ht, consumeAll_memory]
  obtain ⟨-, hplace, -⟩ := syncAccess_checked (t0 := t) (t := t) hi (by rw [hs]; exact h) (by rw [hs]; exact ht) rfl
    (by rw [hs]; exact hc) (fun e => absurd (hs.symm.trans e) Bool.false_ne_true) (by rw [hs]; rfl)
  obtain ⟨r, hr⟩ : ∃ r, r = syncReq t op d.toNat (t.segAddr seg.toNat ((t.rS a.toNat).toNat + imm.toInt * 4))
    (t.seg seg.toNat).scope := ⟨_, rfl⟩
  have hrop : r.op = op := by rw [hr]; rfl
  have hrd : r.d = d.toNat := by rw [hr, syncReq, hs]; rfl
  have hexec := (hplace o t o false t r htarget hm (tcmWrite_outside hg) hr (by rw [hs]; simp)).2 (syncNow_load_waits hl hw hop)
  obtain ⟨u, hu, hqueues, hsram, hpc, hpark⟩ := holds_syncWait (s := s) hthread t.myCore o r
  refine ⟨u, r, hexec.trans hu, by rw [hr]; rfl, hrop, hrd, ?_, by rw [hsram, hmemory], hpc, hpark⟩
  rw [hqueues, syncWait_queues, hrop, hs]
  rfl

/-- STFE of a full word. -/
theorem stfe_waits (h : Ready s [.s a.toNat, .s d.toNat]) (ht : t = s.consumeAll [.s a.toNat, .s d.toNat])
    (hown : OwnTcm t seg.toNat ((t.rS a.toNat).toNat + imm.toInt * 4) 4 18 4 [1] o) (hrel : t.relWait = none)
    (hslot : s.cur < imageBase) (hl : t.liveCounter t.myCore o = none) (hw : t.wordFull t.myCore o = true) :
    ∃ u r, exec (.stfe d a seg imm) s = .next u ∧ r.slot = t.cur ∧ r.op = .stfe ∧ r.value = t.rS d.toNat
      ∧ (u.syncQueues t.myCore o).empty = (t.syncQueues t.myCore o).empty ++ [r]
      ∧ u.memory.sram = s.memory.sram ∧ u.me.pc = s.me.pc + 4 ∧ u.me.park = some (.reply 0) := by
  have hslot' : t.cur < imageBase := by rw [ht, consumeAll_cur]; exact hslot
  have hthread : (t.thr? t.cur).isSome = true := by rw [ht, consumeAll_cur, consumeAll_isSome]; exact h.1
  have hmemory : t.memory = s.memory := by rw [ht, consumeAll_memory]
  obtain ⟨hmem, hcur, hpkg, hsome⟩ := sendAll_markWritten (o := o) hslot'
  have hnow : (t.sendAll.markWritten t.cur o).syncNow t.myCore o .stfe = false :=
    syncNow_stfe_waits (by rw [liveCounter_congr hpkg, hl]) (by rw [wordFull_congr hmem, hw])
  obtain ⟨r, hr⟩ : ∃ r, r = syncReq t.sendAll .stfe d.toNat (t.segAddr seg.toNat ((t.rS a.toNat).toNat + imm.toInt * 4))
    (t.seg seg.toNat).scope := ⟨_, rfl⟩
  have hslotOf : r.slot = t.cur := by rw [hr]; exact sendAll_cur t
  have hvalue : r.value = t.rS d.toNat := by rw [hr]; exact rS_congr (sendAll_sameView t) _
  have hrop : r.op = .stfe := by rw [hr]; rfl
  have hexec := (syncStore_own (i := .stfe d a seg imm) (op := .stfe) rfl rfl h ht hown hrel rfl hr).2 hnow
  obtain ⟨u, hu, hqueues, hsram, hpc, hpark⟩ := holds_syncWait (s := s) (v := t.sendAll.markWritten t.cur o)
    (by rw [hcur, hsome, hthread]) t.myCore o r
  refine ⟨u, r, hexec.trans hu, hslotOf, hrop, hvalue, ?_, by rw [hsram, hmem, hmemory], hpc, hpark⟩
  rw [hqueues, syncWait_queues, syncQueues_congr hmem, hrop]
  rfl

end Waits

/-- Settles O10: an access of an own word is performed or waits as its bit, its queues and its place say; one away is a
request. -/
theorem syncAccesses : Obligations.SyncAccesses := by
  unfold Obligations.SyncAccesses
  refine ⟨fun s d a seg imm o hslot => ⟨?loads, ?stores⟩, fun s d a seg imm o op hslot h => ?loadWaits,
    fun s d a seg imm o hslot h => ?storeWaits, fun s d a seg imm op => ?places,
    fun s seg a b o hslot h => ⟨?none, ?away, ?one⟩⟩
  case loads =>
    intro h t hhere hfull
    exact ⟨syncLoad_here (op := .ldfe) rfl (.inl rfl) h rfl hhere hfull,
      syncLoad_here (op := .ldff) rfl (.inr rfl) h rfl hhere hfull⟩
  case stores =>
    intro h t hhere hrel u
    obtain ⟨hown, hl, hq⟩ := hhere
    exact ⟨fun hbit => syncStore_here (op := .stfe) rfl rfl h rfl hown hrel hslot hl hq fun _ => hbit,
      syncStore_here (op := .stff) rfl rfl h rfl hown hrel hslot hl hq nofun⟩
  case loadWaits =>
    intro t hown hl hw i hop
    have hi : exec i s = s.syncAccess op d a seg imm := by rcases hop with rfl | rfl <;> rfl
    exact syncLoad_waits hi hop h rfl hown hl hw
  case storeWaits =>
    intro t hown hl hrel hw
    exact stfe_waits h rfl hown hrel hslot hl hw
  case places =>
    intro i ops h t0 off addr hc hrel t req
    have hi : exec i s = s.syncAccess op d a seg imm := by cases op <;> rfl
    have hops : ops = if op.store then [.s a.toNat, .s d.toNat] else [.s a.toNat, .d d.toNat] := by cases op <;> rfl
    obtain ⟨hfull, hplace, hfar, hstore⟩ := syncAccess_checked (t0 := t0) (t := t) hi (hops ▸ h)
      (congrArg s.consumeAll hops) rfl hc hrel rfl
    have hreq : req = { syncReq t op d.toNat addr (t0.seg seg.toNat).scope with remote := op.store } := rfl
    refine ⟨hfull, fun o u o' htarget hm hsome => ?_, fun c o htarget hs => ?_, fun c o htarget hs => ?_⟩
    · refine hplace o u o' true _ _ htarget hm hsome rfl ?_
      cases op.store <;> simp [claimed]
    · rw [hreq, hs]
      exact hfar c o htarget hs
    · rw [hreq, hs]
      exact hstore c o htarget hs
  case none => exact feclr_none h rfl
  case away => exact fun c hn hc htarget hroom => feclr_away h rfl hn hc htarget hroom
  case one => exact fun hn hhere => feclr_here h rfl hslot hn hhere

end Sys2Proof.Proofs
end

section
/-!
PROOFS. Atomics: the own TCM, and requests (R196-R198).
-/

namespace Sys2Proof.Proofs

open Sys2Proof Sys2Proof.Machine Sys2Proof.Cert

/-! ### The order of an atomic (R197-R198) -/

theorem orderReleases_iff {n : Nat} (h : n ≤ 4) : orderReleases n = true ↔ 2 ≤ n := by
  simp only [orderReleases, Bool.or_eq_true, beq_iff_eq]
  omega

/-- Short of SC, an acquire is in orders 1 and 3. -/
theorem orderAcquires_iff {order : BitVec 3} (h : order ≠ 4) : orderAcquires order.toNat = true ↔ order = 1 ∨ order = 3 := by
  revert order
  decide

theorem toNat_eq_four {order : BitVec 3} : order.toNat = 4 ↔ order = 4 := by
  revert order
  decide

/-! ### The operators (R196) -/

theorem amoNew_min (old x exp : Word) : amoNew 6 old x exp = if x.toInt < old.toInt then x else old := by
  simp [amoNew, BitVec.slt]

theorem amoNew_max (old x exp : Word) : amoNew 7 old x exp = if old.toInt < x.toInt then x else old := by
  simp [amoNew, BitVec.slt]

theorem amoNew_minu (old x exp : Word) : amoNew 8 old x exp = if x.toNat < old.toNat then x else old := by
  simp [amoNew, BitVec.ult]

theorem amoNew_maxu (old x exp : Word) : amoNew 9 old x exp = if old.toNat < x.toNat then x else old := by
  simp [amoNew, BitVec.ult]

/-- An atomic on a word of local memory reads it and writes the operator's result. -/
theorem amoAt_sram {v : State} (part w op : Nat) (x exp : Word) : v.amoAt part (.sram v.myCore w) op x exp =
    (tcmWordAt v w, v.writeLoc part 0 (.sram v.myCore w) (leBytes 4 (amoNew op (tcmWordAt v w) x exp).toNat)) := by
  rw [← tcmWord_eq]
  rfl

/-! ### One atomic -/

/-- The operands of an atomic, which reads d where it compares with it. -/
def amoOps (op : Nat) (d a b : BitVec 5) : List Opnd :=
  .s a.toNat :: .s b.toNat :: ((if op = 2 then [.s d.toNat] else []).append [.d d.toNat])

/-- The request of an atomic away from the own TCM. -/
def amoAsks (u : State) (pc : Word) (addr : Addr) (l : Loc) (op : Nat) (x exp : Word) (d order : Nat) (scope : Scope) : State :=
  (u.addUnack u.cur).send .request u.myCore (u.unitOf l) (.amo u.cur pc addr l op x exp d order scope)

/-- Before a release the core's stores are sent; nothing that the atomic reads of its thread changes. -/
theorem sent_keeps {n : Nat} {t0 t : State} (ht : t = if 2 ≤ n then t0.sendAll else t0) : SameView t0 t ∧ t.pkg = t0.pkg
    ∧ t.me.pc = t0.me.pc ∧ ∀ c o k, (t.core c).movingBytes o k = (t0.core c).movingBytes o k := by
  by_cases hn : 2 ≤ n
  · rw [if_pos hn] at ht
    subst ht
    exact ⟨sendAll_sameView t0, sendAll_pkg t0, sendAll_pc t0, sendAll_movingBytes t0⟩
  · rw [if_neg hn] at ht
    subst ht
    exact ⟨⟨rfl, rfl, rfl, rfl⟩, rfl, rfl, fun _ _ _ => rfl⟩

section Amo

variable {i : Instr} {s t0 t : State} {op : Nat} {order seg : BitVec 3} {d a b : BitVec 5} {addr : Addr}
  (hi : exec i s = s.amo op order d a seg b) (h : Ready s (amoOps op d a b)) (ht0 : t0 = s.consumeAll (amoOps op d a b))
  (ha : addr = t0.segAddr seg.toNat (t0.rS a.toNat).toNat)
  (hc : t0.checkAccess seg.toNat (t0.rS a.toNat).toNat 4 11 4 [0, 1] = none) (horder : order.toNat ≤ 4)
  (hrel : 2 ≤ order.toNat → t0.relWait = none) (ht : t = if 2 ≤ order.toNat then t0.sendAll else t0)
include hi h ht0 ha hc horder hrel ht

/-- What an atomic that passes its checks does with its place. -/
theorem amo_checked :
    (∀ w, t.target addr = .own w → (t.core t.myCore).movingBytes w 4 = false → t.tcmWrite t.cur w = none →
      exec i s = traps s 10 addr)
    ∧ (∀ w u w' fault v, t.target addr = .own w → (t.core t.myCore).movingBytes w 4 = false →
      t.tcmWrite t.cur w = some (u, w', fault) → v = claimed t u w fault →
      (order.toNat = 4 → exec i s = holds s (v.postFree (.scHold t.cur t.me.pc addr (.sram t.myCore w') op (t.rS b.toNat)
        (t.rS d.toNat) d.toNat (t0.seg seg.toNat).scope false)) (.reply v.nextAct))
      ∧ (order.toNat ≠ 4 → ∀ r x, r = v.amoAt t.myPart (.sram t.myCore w') op (t.rS b.toNat) (t.rS d.toNat) →
        x = r.2.wS d.toNat r.1 →
        exec i s = done s (if orderAcquires order.toNat then x.acquire t.myCore (t0.seg seg.toNat).scope else x)))
    ∧ (∀ c w, t.target addr = .core c w → t.unackWait = none → exec i s = holds s
      (amoAsks t t.me.pc addr (.sram c w) op (t.rS b.toNat) (t.rS d.toNat) d.toNat order.toNat (t0.seg seg.toNat).scope)
      (.reply t.nextAct))
    ∧ (∀ va, t.target addr = .global va → t.windowAt t.myPart va ≠ none → exec i s = traps s 6 addr)
    ∧ (∀ va v e l, t.target addr = .global va → t.windowAt t.myPart va = none →
      t.translate t.myCore t.myPart va .atomic = .ok v e → l = Loc.phys e.cls (e.phys va) e.key →
      (e.cls = .host → exec i s = traps s 4 addr)
      ∧ (e.cls ≠ .host → (v.flushLine l).unackWait = none → exec i s = holds s
        (amoAsks (v.flushLine l) t.me.pc addr l op (t.rS b.toNat) (t.rS d.toNat) d.toNat order.toNat (t0.seg seg.toNat).scope)
        (.reply (v.flushLine l).nextAct))) := by
  have hwait : (if orderReleases order.toNat then t0.relWait else none) = none := by
    split
    case isTrue hr => exact hrel ((orderReleases_iff horder).1 hr)
    case isFalse => rfl
  have hsent : (if orderReleases order.toNat then t0.sendAll else t0) = t := by
    rw [ht]
    simp only [orderReleases_iff horder]
  have hexec : s.amo op order d a seg b = s.perform (amoOps op d a b) _ := rfl
  rw [hi, hexec, State.perform_ready _ h.1 h.2, ← ht0]
  dsimp only [rgtR, rgtW, rgtA]
  rw [hc, hwait, ← ha, hsent]
  dsimp only
  refine ⟨fun w htarget hm hnone => ?_, fun w u w' fault v htarget hm hsome hv => ⟨fun h4 => ?_, fun h4 r x hr hx => ?_⟩,
    fun c w htarget hroom => ?_, fun va htarget hwin => ?_, fun va v e l htarget hwin hv hl =>
      ⟨fun hhost => ?_, fun hhost hroom => ?_⟩⟩
  · rw [htarget]
    dsimp only
    rw [hm, if_neg Bool.false_ne_true, hnone]
    rfl
  · rw [htarget]
    dsimp only
    rw [hm, if_neg Bool.false_ne_true, hsome]
    dsimp only
    rw [if_pos h4, hv]
    rfl
  · rw [htarget]
    dsimp only
    rw [hm, if_neg Bool.false_ne_true, hsome]
    dsimp only
    rw [if_neg h4, hx, hr, hv]
    rfl
  · rw [htarget]
    dsimp only
    rw [hroom]
    rfl
  · rw [htarget]
    dsimp only
    rw [if_pos (Option.isSome_iff_ne_none.2 hwin)]
    rfl
  · rw [htarget]
    dsimp only
    rw [hwin, hv]
    dsimp only
    rw [if_pos hhost]
    rfl
  · rw [htarget]
    dsimp only
    rw [hwin, hv]
    dsimp only
    rw [if_neg hhost, ← hl, hroom]
    rfl

/-- What an atomic on an own word gives, with the operator's result `new`: at its home at once, or at the end of the window
of an SC atomic. -/
def amoGives (s t m : State) (order seg : BitVec 3) (d a b : BitVec 5) (w op : Nat) (new : Word) :
    Host.Outcome State Fault Refusal :=
  let u := (m.writeLoc t.myPart 0 (.sram t.myCore w) (leBytes 4 new.toNat)).wS d.toNat (tcmWordAt m w)
  if order = 4 then
    .next ((m.postFree (.scHold t.cur s.me.pc (t.segAddr seg.toNat (t.rS a.toNat).toNat)
        (.sram t.myCore w) op (t.rS b.toNat) (t.rS d.toNat) d.toNat (t.seg seg.toNat).scope false)).modMe fun x =>
      { x with pc := s.me.pc + 4, recs := [], park := some (.reply m.nextAct) })
  else done s (if order = 1 ∨ order = 3 then u.acquire t.myCore (t.seg seg.toNat).scope else u)

/-- In the own TCM. -/
theorem amo_own {w w' : Nat} {u v : State} {fault : Bool} {new : Word} (hslot : s.cur < imageBase)
    (htarget : t0.target addr = .own w) (hm : (t0.core t0.myCore).movingBytes w 4 = false)
    (htake : t.tcmWrite t.cur w = some (u, w', fault)) (hv : v = claimed t u w fault)
    (hnew : new = amoNew op (tcmWordAt v w') (t0.rS b.toNat) (t0.rS d.toNat)) :
    exec i s = amoGives s t0 v order seg d a b w' op new := by
  obtain ⟨hview, hpkg, hpc, hmoving⟩ := sent_keeps ht
  have hcore : t.myCore = t0.myCore := myCore_congr hview.cur
  have hpc' : t.me.pc = s.me.pc := by rw [hpc, ht0, consumeAll_pc]
  have hvcore : v.myCore = t0.myCore := by
    rw [hv, myCore_congr (claimed_cur (by rw [hview.cur, ht0, consumeAll_cur]; exact hslot) htake w), hcore]
  obtain ⟨-, hplace, -⟩ := amo_checked hi h ht0 ha hc horder hrel ht
  obtain ⟨hsc, hnow⟩ := hplace w u w' fault v (by rw [target_congr hview.cur, htarget]) (by rw [hcore, hmoving, hm]) htake hv
  rw [amoGives, ← ha]
  by_cases h4 : order = 4
  · rw [if_pos h4, hsc (toNat_eq_four.2 h4), hview.cur, hpc', hcore, rS_congr hview, rS_congr hview]
    rfl
  · rw [if_neg h4, hnow (mt toNat_eq_four.1 h4) _ _ rfl rfl, hcore, ← hvcore, amoAt_sram, rS_congr hview, rS_congr hview,
      ← hnew, myPart_congr hview.cur hpkg]
    simp only [orderAcquires_iff h4]

end Amo

/-- The instruction forms of an atomic, with the operator of each. -/
theorem exec_of_mem_atomics {s : State} {order seg : BitVec 3} {d a b : BitVec 5} {p : Instr × Nat}
    (hp : p ∈ ([(.amoadd order d a seg b, 0), (.amoswap order d a seg b, 1), (.amocas order d a seg b, 2),
      (.amoand order d a seg b, 3), (.amoor order d a seg b, 4), (.amoxor order d a seg b, 5), (.amomin order d a seg b, 6),
      (.amomax order d a seg b, 7), (.amominu order d a seg b, 8), (.amomaxu order d a seg b, 9)] : List (Instr × Nat))) :
    exec p.1 s = s.amo p.2 order d a seg b := by
  simp only [List.mem_cons, List.not_mem_nil, or_false] at hp
  rcases hp with rfl | rfl | rfl | rfl | rfl | rfl | rfl | rfl | rfl | rfl <;> rfl

/-- Settles O11: an atomic on an own word is a read and a write of it in the state that has claimed its place; one away is a
request. -/
theorem atomicResults : Obligations.AtomicResults := by
  unfold Obligations.AtomicResults
  intro s order seg d a b o hslot horder sent ready gives
  refine ⟨fun t w hg => tcmWrite_outside hg, fun u o' fault => ⟨?values, ?compares, fun p hp h => ?places⟩⟩
  case values =>
    rintro ⟨h, ⟨hc, htarget, hm⟩, hrel, htake⟩ t old x
    have hcur : (sent t).cur = s.cur := (sent_keeps (t0 := t) (t := sent t) rfl).1.cur.trans (consumeAll_cur _ _)
    have key {i : Instr} {op : Nat} (hi : exec i s = s.amo op order d a seg b)
        (hops : amoOps op d a b = [.s a.toNat, .s b.toNat, .d d.toNat]) {new : Word}
        (hnew : new = amoNew op old x (t.rS d.toNat)) :
        exec i s = amoGives s t (claimed (sent t) u o fault) order seg d a b o' op new :=
      amo_own hi (hops ▸ h) (congrArg s.consumeAll hops.symm) rfl hc horder hrel rfl hslot htarget hm
        (by rw [hcur]; exact htake) rfl hnew
    exact ⟨key (op := 0) rfl rfl rfl, key (op := 1) rfl rfl rfl, key (op := 3) rfl rfl rfl, key (op := 4) rfl rfl rfl,
      key (op := 5) rfl rfl rfl, key (op := 6) rfl rfl (amoNew_min _ _ _).symm, key (op := 7) rfl rfl (amoNew_max _ _ _).symm,
      key (op := 8) rfl rfl (amoNew_minu _ _ _).symm, key (op := 9) rfl rfl (amoNew_maxu _ _ _).symm⟩
  case compares =>
    rintro ⟨h, ⟨hc, htarget, hm⟩, hrel, htake⟩ t old
    have hcur : (sent t).cur = s.cur := (sent_keeps (t0 := t) (t := sent t) rfl).1.cur.trans (consumeAll_cur _ _)
    exact amo_own (op := 2) (t := sent t) rfl h rfl rfl hc horder hrel rfl hslot htarget hm (by rw [hcur]; exact htake) rfl rfl
  case places =>
    intro t0 t addr asks hc hrel
    obtain ⟨hfull, -, hcore, hwindow, hglobal⟩ := amo_checked (exec_of_mem_atomics hp) h rfl rfl hc horder hrel (t := t) rfl
    exact ⟨hfull, hcore, fun va htarget => ⟨hwindow va htarget, fun hwin v e hv => hglobal va v e _ htarget hwin hv rfl⟩⟩

end Sys2Proof.Proofs
end
